-- ==== Sys2Proof/Word.lean ====
section
/-! DEFINITION. The word types of the device: registers are 32 bits wide and little-endian (R7), frames and images are
bytes. -/

namespace Sys2Proof

/-- One byte of a frame, an image or a memory. -/
abbrev Byte := BitVec 8

/-- The value of one 32-bit register (R7). -/
abbrev Word := BitVec 32

end Sys2Proof
end

