-- ==== Sys2Proof/Syntax.lean ====
section
/-! DEFINITION. The commands of the KZ9616, one constructor for each row of spec/opcode_table.json, in the table's order,
with the operands the row's rule speaks of. A row that is a write or a read of a register carries the master `m` that makes
it (0 to 31 the PCIe functions, 32 the side-band, 33 JTAG: the MASTER codes of R372) and the fields of the write; `h` is the
hall whose window or slot it goes through (0: the native region). An event carries what the world outside fixes: the bytes
of an arriving frame, the level of a pin, the verdict of a self-test. -/

namespace Sys2Proof

/-- What the receive path finds wrong with a frame at its end (R138): a PCS error, an uncorrectable codeword, a bad FCS,
and the corrected symbols. The lengths and addresses are judged from the bytes. -/
structure RxErr where
  pcs : Bool
  fecUncorr : Bool
  fcs : Bool
  fecCorr : Nat
  deriving DecidableEq, Repr

/-- A hello of R314, field by field; the key and the signature as numbers. -/
structure Hello where
  dev : Nat
  prio : Nat
  flags : Nat
  req : Nat
  addr : Nat
  link : Nat
  localPort : Nat
  signSeq : Nat
  epoch : Nat
  px : Nat
  py : Nat
  r : Nat
  s : Nat
  live : Nat
  deriving DecidableEq, Repr

/-- One link of a report (R317): the local port, the neighbour and its port. -/
structure LinkRep where
  localPort : Nat
  nbr : Nat
  nbrPort : Nat
  deriving DecidableEq, Repr

/-- A report of R317. `epoch` is the epoch its sender has in force, `ack` the epoch it acknowledges as standby (R322; 0
none). -/
structure Report where
  dev : Nat
  prio : Nat
  req : Nat
  flags : Nat
  keyHash : Nat
  seq : Nat
  links : List LinkRep
  epoch : Nat
  ack : Nat
  passTo : Nat
  deriving DecidableEq, Repr

/-- The frames that carry an epoch (R320): a body segment, or the closing frame. `dst` is the member address it is sent to,
4095 for every member. -/
inductive EpochFrame where
  | seg (dst number idx count : Nat) (body : List Byte)
  | close (dst number members len applyAt digest px py r s : Nat)
  deriving DecidableEq, Repr

/-- Three copies of one triplicated field that were found to differ (R379): the register's address, the field's low bit and
the copies. -/
structure TvUpset where
  addr : Nat
  lo : Nat
  c0 : Nat
  c1 : Nat
  c2 : Nat
  deriving DecidableEq, Repr

/-- A side-band transaction as the target sees it (R387 to R391): the bytes after the address byte, the bytes that the
controller took of a read, and whether the bytes end at a STOP or repeated START. -/
structure SbXfer where
  bytes : List Byte
  readBytes : Nat
  stopped : Bool
  deriving DecidableEq, Repr

/-- An error line of R428: a pipeline or DMA state parity error, a TCAM parity error, an atrium bank's error (correctable or
not; of the word of which frame), and an uncorrectable error of a lookup table (R192). -/
inductive ErrLine where
  | pipe (p : Nat)
  | dma (e : Nat)
  | tcam (b row : Nat)
  | bank (b : Nat) (uncorr : Bool) (frame : Option Nat)
  | table (t idx : Nat)
  | tableCorr (t idx : Nat)
  deriving DecidableEq, Repr

/-- The commands. -/
inductive Instr where
  /-- POR (R52). -/
  | por (bootSrc sbAddr : Nat) (fails : List (Nat × Nat))
  /-- AUX_GOOD_RISE (R457). -/
  | auxGoodRise (sbAddr : Nat)
  /-- AUX_LOSS (R457). -/
  | auxLoss
  /-- AUX_HOLDUP_EXPIRE (R457). -/
  | auxHoldupExpire (fails : List (Nat × Nat))
  /-- VIN48_RISE (R458). -/
  | vin48Rise
  /-- VIN48_FALL (R458). -/
  | vin48Fall
  /-- PWR_GOOD_RISE (R459). -/
  | pwrGoodRise (bootSrc : Nat)
  /-- PWR_EN_FALL (R75). -/
  | pwrEnFall
  /-- PWR_EN_RISE (R75). -/
  | pwrEnRise
  /-- RESET_N_ASSERT (R461). -/
  | resetNAssert (lowNs : Nat)
  /-- RESET_N_RELEASE (R459). -/
  | resetNRelease (bootSrc sbAddr : Nat) (fails : List (Nat × Nat))
  /-- PERST_N_ASSERT (R462). -/
  | perstNAssert
  /-- PERST_N_RELEASE (R462). -/
  | perstNRelease
  /-- HOST_LINK_DOWN (R419). -/
  | hostLinkDown
  /-- BOOT (R52). -/
  | boot
  /-- IMAGE_HEADER_CHECK (R47). -/
  | imageHeaderCheck (readOk : Bool)
  /-- IMAGE_BODY_CHECK (R47). -/
  | imageBodyCheck (readOk eccOk : Bool)
  /-- IMAGE_APPLY (R66). -/
  | imageApply
  /-- RESET_DEV (R65). -/
  | resetDev (m : Nat)
  /-- RESET_STRUCT (R54). -/
  | resetStruct (m : Nat)
  /-- RESET_HALL (R77). -/
  | resetHall (m h : Nat)
  /-- RESET_PIPE (R68). -/
  | resetPipe (m p : Nat)
  /-- RESET_PORT (R77). -/
  | resetPort (m n : Nat)
  /-- HALL_RESET_COMPLETE (R344). -/
  | hallResetComplete (h : Nat)
  /-- QSC_STOP (R60). -/
  | qscStop (m dom idx : Nat)
  /-- QSC_RELEASE (R59). -/
  | qscRelease (m dom idx : Nat)
  /-- QUIESCED (R60). -/
  | quiesced
  /-- QSC_TIMEOUT (R60). -/
  | qscTimeout
  /-- PARK_REQUEST (R74). -/
  | parkRequest (m p : Nat)
  /-- PARK_COMPLETE (R74). -/
  | parkComplete (p : Nat)
  /-- UNPARK (R74). -/
  | unpark (m p : Nat)
  /-- PIPE_UNPARKED (R74). -/
  | pipeUnparked (p : Nat)
  /-- STANDBY (R75). -/
  | standby (m : Nat)
  /-- STANDBY_EXIT_WRITE (R75). -/
  | standbyExitWrite (v : Word)
  /-- STEP_EN_CLEAR (R72). -/
  | stepEnClear (m : Nat)
  /-- STEP_UP (R72). -/
  | stepUp
  /-- STEP_DOWN (R72). -/
  | stepDown
  /-- PORT_PIPE_WRITE (R33). -/
  | portPipeWrite (m n p : Nat)
  /-- PORT_REMAP (R35). -/
  | portRemap (n : Nat)
  /-- RX_FRAME_START (R140). -/
  | rxFrameStart (n : Nat) (data : List Byte)
  /-- HEADER_HANDOFF (R29). -/
  | headerHandoff (p n arrived : Nat)
  /-- RX_FRAME_END (R138). -/
  | rxFrameEnd (n : Nat) (e : RxErr)
  /-- STAGE8_COMPLETE (R29). -/
  | stage8Complete (p : Nat)
  /-- LEARN_INSERT (R205). -/
  | learnInsert (p : Nat)
  /-- TX_SELECT (R289). -/
  | txSelect (n : Nat)
  /-- TX_COPY_END (R258). -/
  | txCopyEnd (n : Nat)
  /-- PREEMPT_FRAGMENT_END (R299). -/
  | preemptFragmentEnd (n sent : Nat)
  /-- SHAPER_REFILL (R291). -/
  | shaperRefill
  /-- GATE_LIST_BOUNDARY (R296). -/
  | gateListBoundary (n : Nat)
  /-- HOLD_ASSERT (R300). -/
  | holdAssert (n : Nat)
  /-- STREAM_GATE_BOUNDARY (R183). -/
  | streamGateBoundary (g : Nat)
  /-- STREAM_GATE_REOPEN (R183). -/
  | streamGateReopen (m g : Nat)
  /-- ATRIUM_SWEEP_PASS (R267). -/
  | atriumSweepPass
  /-- ATRIUM_SWEEP_DONE (R267). -/
  | atriumSweepDone
  /-- RSQ_RETURN (R275). -/
  | rsqReturn (n : Nat)
  /-- RSQ_TIMEOUT (R277). -/
  | rsqTimeout (x : Nat)
  /-- RSQ_CONTEXT_FREE (R277). -/
  | rsqContextFree (x : Nat)
  /-- DUP_SWEEP_PASS (R232). -/
  | dupSweepPass
  /-- AGER_PASS (R209). -/
  | agerPass
  /-- COUNTER_READER_PASS (R439). -/
  | counterReaderPass
  /-- SUP_FRAME_TX (R240). -/
  | supFrameTx (k : Nat)
  /-- PROXY_SUP_TX (R240). -/
  | proxySupTx (k idx : Nat)
  /-- TIME_LATCH_READ (R81). -/
  | timeLatchRead (m : Nat)
  /-- CYC_ANGLE_LATCH_READ (R101). -/
  | cycAngleLatchRead (m : Nat)
  /-- RATE_LO_STAGE (R82). -/
  | rateLoStage (m : Nat) (v : Word)
  /-- RATE_COMMIT (R82). -/
  | rateCommit (m : Nat) (v : Word)
  /-- STEP_ABS (R93). -/
  | stepAbs (m : Nat)
  /-- STEP_REL (R93). -/
  | stepRel (m : Nat)
  /-- SERVO_CLEAR (R93). -/
  | servoClear (m : Nat)
  /-- OFFSET_WRITE (R95). -/
  | offsetWrite (m : Nat) (v : Word)
  /-- PPS_IN_EDGE (R94). -/
  | ppsInEdge
  /-- CLK10M_LOST (R83). -/
  | clk10mLost
  /-- CYC_REF_EDGE (R104). -/
  | cycRefEdge
  /-- CYC_REF_LOSS (R104). -/
  | cycRefLoss
  /-- CYC_SECOND_RECOMPUTE (R105). -/
  | cycSecondRecompute
  /-- CYC_FREQ_WRITE (R102). -/
  | cycFreqWrite (m : Nat) (v : Word)
  /-- EVENT_SLOT_ENABLE (R109). -/
  | eventSlotEnable (m k : Nat) (v : Word)
  /-- EVENT_SLOT_FIRE (R108). -/
  | eventSlotFire (k : Nat)
  /-- TOUT_PULSE_END (R110). -/
  | toutPulseEnd (x : Nat)
  /-- PPS_OUT_RISE (R111). -/
  | ppsOutRise
  /-- PPS_OUT_FALL (R111). -/
  | ppsOutFall
  /-- CAP_IN_EDGE (R112). -/
  | capInEdge (x : Nat) (rising : Bool) (stableNs : Nat)
  /-- TSQ_ENTRY_READ (R99). -/
  | tsqEntryRead (m : Nat) (cap : Bool) (n : Nat)
  /-- BRING_UP (R124). -/
  | bringUp (m n : Nat)
  /-- TAKE_DOWN (R124). -/
  | takeDown (m n : Nat)
  /-- RETRAIN (R124). -/
  | retrain (m n : Nat)
  /-- RX_SIGNAL_DETECT (R124). -/
  | rxSignalDetect (n : Nat)
  /-- CLOCK_RECOVERED (R124). -/
  | clockRecovered (n : Nat)
  /-- AN_COMPLETE (R118). -/
  | anComplete (n : Nat) (fullDuplex : Bool)
  /-- LINK_UP (R124). -/
  | linkUp (n : Nat)
  /-- LOCK_LOST (R124). -/
  | lockLost (n : Nat) (dark : Bool)
  /-- INTLK_OPEN (R135). -/
  | intlkOpen
  /-- INTLK_CLOSED (R136). -/
  | intlkClosed
  /-- SOURCE_DEGRADED (R126). -/
  | sourceDegraded (e src bias : Nat)
  /-- SOURCE_FAILED (R126). -/
  | sourceFailed (e src : Nat)
  /-- SWAP (R133). -/
  | swap (m e slot : Nat)
  /-- SWAP_SPARE_READY (R127). -/
  | swapSpareReady (e : Nat)
  /-- SWAP_SWITCH_DONE (R127). -/
  | swapSwitchDone (e : Nat)
  /-- SWAP_COMPLETE (R127). -/
  | swapComplete (e : Nat)
  /-- ERR_BUDGET_WINDOW (R149). -/
  | errBudgetWindow (n : Nat)
  /-- ERR_BUDGET_WRITE (R149). -/
  | errBudgetWrite (m n : Nat) (v : Word)
  /-- PMAC_VERIFY (R147). -/
  | pmacVerify (n : Nat) (response : Bool)
  /-- MACSEC_CIPHER_WRITE (R413). -/
  | macsecCipherWrite (m n : Nat) (v : Word)
  /-- TCAM_WRITE (R172). -/
  | tcamWrite (m h p layout owner row : Nat)
  /-- TCAM_INVALIDATE (R172). -/
  | tcamInvalidate (m h p layout owner row : Nat)
  /-- TCAM_READ (R172). -/
  | tcamRead (m h p layout owner row : Nat)
  /-- SEARCH (R216). -/
  | tblSearch (m h table : Nat)
  /-- NEXT (R217). -/
  | tblNext (m h table : Nat)
  /-- INSERT (R216). -/
  | tblInsert (m h table : Nat)
  /-- DELETE (R216). -/
  | tblDelete (m h table : Nat)
  /-- FLUSH_PORT (R216). -/
  | tblFlushPort (m h table : Nat)
  /-- FLUSH_HALL (R216). -/
  | tblFlushHall (m h table : Nat)
  /-- AGE (R216). -/
  | tblAge (m h table : Nat)
  /-- TBL_CMD_COMPLETE (R219). -/
  | tblCmdComplete (h : Nat)
  /-- TBL_RES_READ (R218). -/
  | tblResRead (m h : Nat)
  /-- LRN_REC_READ (R212). -/
  | lrnRecRead (m h : Nat)
  /-- SET (R227). -/
  | redSet (m k : Nat)
  /-- CLEAR (R227). -/
  | redClear (m k : Nat)
  /-- RETIRE (R252). -/
  | retire (m bank : Nat)
  /-- MIR_SEED_WRITE (R270). -/
  | mirSeedWrite (m : Nat) (v : Word)
  /-- QUEUE (R304). -/
  | flushQueue (m h n q : Nat)
  /-- BAY (R304). -/
  | flushBay (m h n b : Nat)
  /-- PORT (R304). -/
  | flushPortQueues (m h n : Nat)
  /-- SWITCH (R301). -/
  | gclSwitch (m n : Nat)
  /-- CANCEL (R301). -/
  | gclCancel (m n : Nat)
  /-- GCL_ENABLE_WRITE (R297). -/
  | gclEnableWrite (m n : Nat) (v : Word)
  /-- SHAPER_RATE_WRITE (R293). -/
  | shaperRateWrite (m n kind idx : Nat) (v : Word)
  /-- SHAPER_ENABLE_WRITE (R293). -/
  | shaperEnableWrite (m n kind idx : Nat) (v : Word)
  /-- HELLO_TX (R314). -/
  | helloTx (k : Nat)
  /-- HELLO_RX (R316). -/
  | helloRx (k : Nat) (hello : Hello)
  /-- STAIR_LINK_LOST (R316). -/
  | stairLinkLost (k : Nat)
  /-- ADMIT (R316). -/
  | admitMember (m k : Nat)
  /-- STAIR_LINK_VALID_WRITE (R309). -/
  | stairLinkValidWrite (m k : Nat) (v : Word)
  /-- REPORT_TX (R317). -/
  | reportTx
  /-- REPORT_RX (R317). -/
  | reportRx (k : Nat) (rep : Report)
  /-- REPORT_EXPIRE (R317). -/
  | reportExpire (dev : Nat)
  /-- ELECT_SETTLE (R318). -/
  | electSettle
  /-- ELECT (R328). -/
  | elect (m : Nat)
  /-- HANDOVER (R318). -/
  | handover (m : Nat)
  /-- EPOCH_BUILD (R322). -/
  | epochBuild
  /-- EPOCH_FRAME_RX (R321). -/
  | epochFrameRx (k : Nat) (fr : EpochFrame)
  /-- EPOCH_ACK_TIMEOUT (R322). -/
  | epochAckTimeout
  /-- EPOCH_APPLY (R322). -/
  | epochApply
  /-- ORPHAN_REELECT (R328). -/
  | orphanReelect
  /-- SPRAY_ENTRY_FREE (R325). -/
  | sprayEntryFree (dst flow : Nat)
  /-- VF_FLR (R333). -/
  | vfFlr (h : Nat)
  /-- PF_FLR (R333). -/
  | pfFlr
  /-- PORT_OWN_WRITE (R335). -/
  | portOwnWrite (m n : Nat) (v : Word)
  /-- SEND (R346). -/
  | mbxSend (m h : Nat) (v : Word)
  /-- IN_ACK (R345). -/
  | mbxInAck (m h : Nat)
  /-- REPLY (R346). -/
  | mbxReply (m h len : Nat)
  /-- OUT_ACK (R345). -/
  | mbxOutAck (m h : Nat)
  /-- RING_ENABLE (R349). -/
  | ringEnable (m h r : Nat) (v : Word)
  /-- RING_TAIL_WRITE (R349). -/
  | ringTailWrite (m h r tail : Nat)
  /-- TX_DESCRIPTOR (R353). -/
  | txDescriptor (h r : Nat)
  /-- RX_COPY_DELIVER (R354). -/
  | rxCopyDeliver (h r : Nat)
  /-- RING_IRQ_TIMER (R348). -/
  | ringIrqTimer (h r : Nat)
  /-- OPEN (R358). -/
  | hallOpen (m h : Nat)
  /-- FREEZE (R358). -/
  | hallFreeze (m h : Nat)
  /-- SAVE (R359). -/
  | hallSave (m h : Nat) (cnt dyn : Bool)
  /-- RESTORE (R360). -/
  | hallRestore (m h : Nat)
  /-- THAW (R358). -/
  | hallThaw (m h : Nat)
  /-- CLOSE (R358). -/
  | hallClose (m h : Nat)
  /-- HALL_CMD_COMPLETE (R358). -/
  | hallCmdComplete (readOk : Bool)
  /-- REGISTER_WRITE (R63). `be` is the byte enables of a one-word request; of the others 16 is a request of two words with all
  byte enables set, 17 one of two words with an enable clear, 18 a longer one (R365). `v` is the data, the word at the lower address in
  bits 31:0. -/
  | registerWrite (m addr be : Nat) (v : BitVec 64)
  /-- UNLOCK (R375). -/
  | unlock (m : Nat) (v : Word)
  /-- KG_LOCK_TIMEOUT (R10). -/
  | kgLockTimeout
  /-- ACCESS_ERR_READ (R373). -/
  | accessErrRead (m : Nat)
  /-- RC_FIELD_READ (R371), `be` as for REGISTER_WRITE. -/
  | rcFieldRead (m addr be : Nat)
  /-- PAIR_LOW_READ (R369), `be` as for REGISTER_WRITE. -/
  | pairLowRead (m addr be : Nat)
  /-- PRIV_MAP_WRITE (R377). -/
  | privMapWrite (m : Nat) (v : Word)
  /-- TV_SCRUB (R380). -/
  | tvScrub (upsets : List TvUpset)
  /-- DKC_ENABLE_WRITE (R384). -/
  | dkcEnableWrite (m : Nat) (v : Word)
  /-- SB_WRITE (R389). -/
  | sbWrite (x : SbXfer)
  /-- SB_READ (R390). -/
  | sbRead (x : SbXfer)
  /-- SB_SCL_TIMEOUT (R391). -/
  | sbSclTimeout
  /-- SB_ALERT_RESPONSE (R393). -/
  | sbAlertResponse
  /-- REG_ACCESS (R473). -/
  | regAccess (go isWrite : Bool) (addr : Nat) (data : Word)
  /-- ADVANCE (R399). -/
  | lcAdvance (m : Nat)
  /-- PROGRAM (R401). -/
  | fuseProgram (m row : Nat)
  /-- FUSE_BURN_COMPLETE (R401). -/
  | fuseBurnComplete (stuck : List (Nat × Nat))
  /-- SHA384 (R406). -/
  | ceSha384 (m : Nat)
  /-- VERIFY (R408). -/
  | ceVerify (m curve : Nat)
  /-- SIGN (R406). -/
  | ceSign (m keySel curve : Nat)
  /-- DERIVE (R406). -/
  | ceDerive (m curve : Nat)
  /-- PUBKEY (R406). -/
  | cePubkey (m keySel curve : Nat)
  /-- IDK_GEN (R408). -/
  | ceIdkGen (m curve : Nat)
  /-- CE_OP_COMPLETE (R407). -/
  | ceOpComplete
  /-- CE_RES_READ (R409). -/
  | ceResRead (m which : Nat)
  /-- WRAP (R411). -/
  | keWrap (m : Nat)
  /-- UNWRAP (R412). -/
  | keUnwrap (m : Nat)
  /-- ERASE (R412). -/
  | keErase (m : Nat)
  /-- KE_CMD_COMPLETE (R412). -/
  | keCmdComplete
  /-- ENTROPY_WINDOW (R415). -/
  | entropyWindow (samples : List Bool)
  /-- DRBG_RESEED (R414). -/
  | drbgReseed
  /-- INIT (R416). -/
  | rngInit (m : Nat)
  /-- GENERATE (R415). -/
  | rngGenerate (m : Nat)
  /-- FI_GATE_CLOSE (R417). -/
  | fiGateClose
  /-- FLT_CLEAR (R420). -/
  | fltClear (m : Nat) (v : Word)
  /-- FLT_HIST_CLEAR (R425). -/
  | fltHistClear (m : Nat)
  /-- FENCE (R427). -/
  | fence (m kind idx : Nat)
  /-- UNFENCE (R427). -/
  | unfence (m kind idx : Nat)
  /-- UNIT_ERROR (R428). -/
  | unitError (line : ErrLine)
  /-- PIPE_SLOT_TIMEOUT (R428). -/
  | pipeSlotTimeout (p : Nat)
  /-- COLLECTOR_OUTVOTED (R423). -/
  | collectorOutvoted (copy : Nat)
  /-- SAFE_TRIP (R424). -/
  | safeTrip
  /-- THERM_THRESHOLD (R432). -/
  | thermThreshold (i : Nat) (t16 : Int)
  /-- THERM_TRIP (R433). -/
  | thermTrip (i : Nat) (t16 : Int)
  /-- VOLT_BAND_EXIT (R434). -/
  | voltBandExit (r mv : Nat)
  /-- VOLT_BAND_RECOVER (R434). -/
  | voltBandRecover (r mv : Nat)
  /-- RAISE (R436). -/
  | fiRaise (m fault idx : Nat)
  /-- ECC1 (R436). -/
  | fiEcc1 (m target idx : Nat)
  /-- ECC2 (R436). -/
  | fiEcc2 (m target idx : Nat)
  /-- FAIL_UNIT (R436). -/
  | fiFailUnit (m target idx : Nat)
  /-- COLLECTOR (R436). -/
  | fiCollector (m copies : Nat)
  /-- CLEAR_ALL (R436). -/
  | fiClearAll (m : Nat)
  /-- SNAP (R442). -/
  | snap (m h pool : Nat) (clear : Bool)
  /-- SNAP_COMPLETE (R443). -/
  | snapComplete (h : Nat)
  /-- EVC_CLEAR (R445). -/
  | evcClear (m blk : Nat)
  /-- EVC_FREEZE (R445). -/
  | evcFreeze (m blk : Nat)
  /-- EVC_RECORD_READ (R449). -/
  | evcRecordRead (m p : Nat)
  /-- CLK10M_RETURN (R419). -/
  | clk10mReturn
  /-- THERM_CONDITION_CLEAR (R432). -/
  | thermConditionClear (t16 : Int) (bootSrc : Nat)
  /-- HOST_LINK_UP (R462). -/
  | hostLinkUp
  /-- COLLECTOR_SELF_TEST (R422). -/
  | collectorSelfTest
  /-- FI_GATE_OPEN (R417). -/
  | fiGateOpen
  /-- RESET_COMPLETE (R65). -/
  | resetComplete (pass : Bool)
  /-- TCAM_CMD_COMPLETE (R172). -/
  | tcamCmdComplete (p : Nat)
  /-- FLUSH_CMD_COMPLETE (R304). -/
  | flushCmdComplete (h : Nat)
  /-- FENCE_CMD_COMPLETE (R427). -/
  | fenceCmdComplete (pass : Bool)
  /-- REG_ACCESS_COMPLETE (R473). -/
  | regAccessComplete
  deriving DecidableEq, Repr

end Sys2Proof
end

