-- ==== Sys2Proof/WellFormed.lean ====
section
/-! DEFINITION. Well-formed commands: every operand names something that the device has (masters of R372, ports, pipelines,
halls, slots), and bytes are bytes. -/

namespace Sys2Proof

/-- A master: the PCIe functions 0 to 31, the side-band 32, JTAG 33 (R372). -/
def wfMaster (m : Nat) : Bool := decide (m < 34)
def wfHall (h : Nat) : Bool := decide (h < 32)
def wfPort (n : Nat) : Bool := decide (n < 96)
def wfPipe (p : Nat) : Bool := decide (p < 4)
def wfEngine (e : Nat) : Bool := decide (e < 8)
/-- A stair link, an event slot, a pair slot, a stream gate, a ring. -/
def wfStair (k : Nat) : Bool := decide (k < 32)
def wfSlot (k : Nat) : Bool := decide (k < 256)
def wfPair (k : Nat) : Bool := decide (k < 48)
def wfRing (r : Nat) : Bool := decide (r < 32)
/-- The units that a self-test may fail: PORT, PIPE, TCAM, DMA with their indices, the atrium banks as kind 5 (R429), and
the fuse row pairs as kind 6 (R396). -/
def wfFail (u : Nat × Nat) : Bool :=
  decide ((u.1 = 0 ∧ u.2 < 96) ∨ ((u.1 = 1 ∨ u.1 = 2 ∨ u.1 = 3) ∧ u.2 < 4) ∨ (u.1 = 5 ∧ u.2 < 64) ∨ (u.1 = 6 ∧ u.2 < 96))
/-- A shaper block: 64 bays, 8 services, the port (R289). -/
def wfShaper (kind idx : Nat) : Bool := decide ((kind = 0 ∧ idx < 64) ∨ (kind = 1 ∧ idx < 8) ∨ (kind = 2 ∧ idx = 0))
/-- The codes of a quiesce domain with its index (R58), and the index of a reset (R67): every value that the fields hold. -/
def wfDomain (d i : Nat) : Bool := decide (d < 8 ∧ i < 128)
def wfIndex (i : Nat) : Bool := decide (i < 128)
/-- A frame as it arrives holds at least its addresses and its type, and no more than the largest MAX_LEN (R137). -/
def wfFrame (l : List Byte) : Bool := decide (l.length ≤ 16380)
def wfErrLine (l : ErrLine) : Bool :=
  match l with
  | .pipe p => wfPipe p
  | .dma e => decide (e < 4)
  | .tcam b row => decide (b < 4 ∧ row < 6144)
  | .bank b _ _ => decide (b < 64)
  | .table t _ => decide (t < 8)
  | .tableCorr t _ => decide (t < 8)

/-- The check of a command's operands. -/
def Instr.wf (i : Instr) : Bool :=
  match i with
  | .por b s f => decide (b < 4) && decide (s < 8) && f.all wfFail
  | .auxGoodRise s => decide (s < 8)
  | .auxHoldupExpire f => f.all wfFail
  | .pwrGoodRise b => decide (b < 4)
  | .resetNRelease b s f => decide (b < 4) && decide (s < 8) && f.all wfFail
  | .thermConditionClear _ b => decide (b < 4)
  | .auxLoss | .vin48Rise | .vin48Fall | .pwrEnFall | .pwrEnRise | .perstNAssert | .perstNRelease | .hostLinkDown
  | .hostLinkUp | .boot
  | .imageApply | .quiesced | .qscTimeout | .stepUp | .stepDown | .shaperRefill | .atriumSweepPass | .atriumSweepDone
  | .dupSweepPass | .agerPass | .counterReaderPass | .ppsInEdge | .clk10mLost | .cycRefEdge | .cycRefLoss
  | .cycSecondRecompute | .ppsOutRise | .ppsOutFall | .intlkOpen | .intlkClosed | .reportTx | .electSettle | .epochBuild
  | .epochAckTimeout | .epochApply | .orphanReelect | .pfFlr | .kgLockTimeout | .sbSclTimeout | .sbAlertResponse
  | .ceOpComplete | .keCmdComplete | .drbgReseed | .fiGateClose | .safeTrip | .clk10mReturn
  | .collectorSelfTest | .fiGateOpen | .regAccessComplete => true
  | .resetNAssert _ | .imageHeaderCheck _ | .imageBodyCheck _ _ | .standbyExitWrite _ | .rsqTimeout _ | .rsqContextFree _
  | .reportExpire _ | .sprayEntryFree _ _ | .hallCmdComplete _ | .tvScrub _ | .sbWrite _ | .sbRead _ | .regAccess _ _ _ _
  | .fuseBurnComplete _ | .entropyWindow _ | .resetComplete _ | .fenceCmdComplete _ => true
  | .resetDev m | .resetStruct m | .standby m | .stepEnClear m | .timeLatchRead m | .cycAngleLatchRead m | .rateLoStage m _
  | .rateCommit m _ | .stepAbs m | .stepRel m | .servoClear m | .offsetWrite m _ | .cycFreqWrite m _ | .mirSeedWrite m _
  | .elect m | .handover m | .unlock m _ | .accessErrRead m | .privMapWrite m _ | .dkcEnableWrite m _ | .lcAdvance m
  | .ceSha384 m | .keWrap m | .keUnwrap m | .keErase m | .rngInit m | .rngGenerate m | .fltClear m _ | .fltHistClear m
  | .fiClearAll m => wfMaster m
  | .resetHall m x | .resetPipe m x | .resetPort m x => wfMaster m && wfIndex x
  | .mbxSend m h _ | .mbxInAck m h | .mbxReply m h _ | .mbxOutAck m h | .tblResRead m h | .lrnRecRead m h
  | .hallOpen m h | .hallFreeze m h | .hallSave m h _ _ | .hallRestore m h | .hallThaw m h | .hallClose m h
  | .snap m h _ _ => wfMaster m && wfHall h
  | .tblSearch m h t | .tblNext m h t | .tblInsert m h t | .tblDelete m h t | .tblFlushPort m h t | .tblFlushHall m h t
  | .tblAge m h t => wfMaster m && wfHall h && decide (t < 8)
  | .parkRequest m p | .unpark m p | .evcRecordRead m p => wfMaster m && wfPipe p
  | .bringUp m n | .takeDown m n | .retrain m n | .gclSwitch m n | .gclCancel m n | .gclEnableWrite m n _
  | .errBudgetWrite m n _ | .macsecCipherWrite m n _ | .portOwnWrite m n _ => wfMaster m && wfPort n
  | .hallResetComplete h | .tblCmdComplete h | .vfFlr h | .snapComplete h | .flushCmdComplete h => wfHall h
  | .qscStop m d x | .qscRelease m d x => wfMaster m && wfDomain d x
  | .parkComplete p | .pipeUnparked p | .stage8Complete p | .learnInsert p | .pipeSlotTimeout p | .tcamCmdComplete p => wfPipe p
  | .portPipeWrite m n p => wfMaster m && wfPort n && wfPipe p
  | .portRemap n | .txSelect n | .txCopyEnd n | .gateListBoundary n | .holdAssert n | .rsqReturn n | .rxSignalDetect n
  | .clockRecovered n | .linkUp n | .errBudgetWindow n => wfPort n
  | .rxFrameStart n data => wfPort n && wfFrame data
  | .headerHandoff p n _ => wfPipe p && wfPort n
  | .rxFrameEnd n _ | .preemptFragmentEnd n _ | .anComplete n _ | .lockLost n _ | .pmacVerify n _ => wfPort n
  | .streamGateBoundary g => wfSlot g
  | .streamGateReopen m g => wfMaster m && wfSlot g
  | .supFrameTx k | .proxySupTx k _ => wfPair k
  | .eventSlotEnable m k _ => wfMaster m && wfSlot k
  | .eventSlotFire k => wfSlot k
  | .toutPulseEnd x | .capInEdge x _ _ => decide (x < 4)
  | .tsqEntryRead m cap n => wfMaster m && decide (n < (if cap then 4 else 96))
  | .sourceDegraded e src _ | .sourceFailed e src => wfEngine e && decide (src < 6)
  | .swap m e slot => wfMaster m && wfEngine e && decide (slot < 4)
  | .swapSpareReady e | .swapSwitchDone e | .swapComplete e => wfEngine e
  | .tcamWrite m h p l o row | .tcamInvalidate m h p l o row | .tcamRead m h p l o row =>
    wfMaster m && wfHall h && wfPipe p && decide (l < 8) && wfHall o && decide (row < 8192)
  | .redSet m k | .redClear m k => wfMaster m && decide (k < 64)
  | .retire m bank => wfMaster m && decide (bank < 64)
  | .flushQueue m h n q => wfMaster m && wfHall h && decide (n < 128 ∧ q < 256)
  | .flushBay m h n b => wfMaster m && wfHall h && decide (n < 128 ∧ b < 256)
  | .flushPortQueues m h n => wfMaster m && wfHall h && decide (n < 128)
  | .shaperRateWrite m n kind idx _ | .shaperEnableWrite m n kind idx _ => wfMaster m && wfPort n && wfShaper kind idx
  | .helloTx k | .helloRx k _ | .stairLinkLost k | .reportRx k _ | .epochFrameRx k _ => wfStair k
  | .admitMember m k | .stairLinkValidWrite m k _ => wfMaster m && wfStair k
  | .ringEnable m h r _ | .ringTailWrite m h r _ => wfMaster m && wfHall h && wfRing r
  | .txDescriptor h r | .rxCopyDeliver h r => wfHall h && decide (r < 16)
  | .ringIrqTimer h r => wfHall h && wfRing r
  | .registerWrite m _ be _ | .rcFieldRead m _ be | .pairLowRead m _ be => wfMaster m && decide (be < 19)
  | .fuseProgram m row => wfMaster m && decide (row < 256)
  | .ceVerify m c | .ceDerive m c | .ceIdkGen m c => wfMaster m && decide (c < 2)
  | .ceSign m k c | .cePubkey m k c => wfMaster m && decide (k < 2 ∧ c < 2)
  | .ceResRead m w => wfMaster m && decide (w < 3)
  | .fence m k x | .unfence m k x => wfMaster m && decide (k < 8 ∧ x < 128)
  | .unitError l => wfErrLine l
  | .collectorOutvoted k => decide (k < 3)
  | .thermThreshold s _ | .thermTrip s _ => decide (s < 16)
  | .voltBandExit r _ | .voltBandRecover r _ => decide (r < 6)
  | .fiRaise m f x => wfMaster m && decide (f < 64 ∧ x < 256)
  | .fiEcc1 m t x | .fiEcc2 m t x | .fiFailUnit m t x => wfMaster m && decide (t < 8 ∧ x < 256)
  | .fiCollector m c => wfMaster m && decide (c < 256)
  | .evcClear m b | .evcFreeze m b => wfMaster m && decide (b < 5)

end Sys2Proof
end

