-- ==== Sys2Proof/Decode.lean ====
section
/-! DEFINITION. The words of spec/opcode_table.json. The table gives none of its rows any bits: a block's commands are accesses and
events, and no word spells one. -/

namespace Sys2Proof

/-- The command that `nbits` bits `w` spell by the table: none of its rows gives bits, so none. -/
def decodeTableWord (_nbits _w : Nat) : Option Instr := none

end Sys2Proof
end

