-- ==== Sys2Proof/Config.lean ====
section
/-! DEFINITION. What the spec leaves open: the free values. Each is a constant without a body, so that nothing in Lean can
evaluate it or prove a value of it; a statement about one holds for every value. Applied to the counter `freeCtr` of the
state (a fresh value at each draw) or to the operands it depends on. -/

namespace Sys2Proof.Config

/-- Random bits drawn from the entropy source through the DRBG (R414): `n` numbers the draw. Log 4. -/
opaque freeRandom : (n : Nat) → Nat

/-- The word that a write in progress, a result or a field whose value the spec does not state holds. Log 5. -/
opaque freeWord : (n : Nat) → Nat

/-- The key under which the key engine wraps, derived from the root key inside the engine (R403, R411): the spec does not
state the derivation. The first argument is 0 for MACsec keys and 1 for the identity key. Log 6. -/
opaque freeWrapKey : (use root : Nat) → Nat

/-- The frequency step of the second-order loop of R103 in µHz for a phase error, from its state and the frequency in use: the spec
gives its bandwidth and its limit, not its equations. Log 7. -/
opaque freeLoopStep : (bw err : Nat) → (loop : Int) → (freq : Nat) → Int

/-- The state of that loop after the phase error. Log 7. -/
opaque freeLoopState : (bw err : Nat) → (loop : Int) → Int

/-- Received optical power in 0.01 dBm while light is present (R483). Log 8. -/
opaque freeRxPower : (e l n : Nat) → Nat

/-- Present bias of a laser source as a percentage of its beginning-of-life bias, while no event has reported one. Log 9. -/
opaque freeBias : (e s n : Nat) → Nat

/-- The row of the free cell that a group's free list gives (R249 states no order within a group). Log 18. -/
opaque freeCell : (g n : Nat) → Nat

/-- DMA engine status word (HAL_DMA_e_STATUS), whose layout the spec does not give. Log 10. -/
opaque freeDmaStatus : (e n : Nat) → Nat

/-- The PF MSI-X vector of a device event whose chapter names none (R333 gives 34 to 63 for them): the time interrupt of
R108 is event 0, the error budget's of R150 event 1, that of the packet number threshold of R144 event 2. Logs 13 and 125. -/
opaque freeVector : (event : Nat) → Nat

/-- Destination of a gallery tag on a copy that reaches a stair link's port by no gallery route (R311 gives it a tag, and no
destination). Log 150. -/
opaque freeDst : (fid n : Nat) → Nat

/-- The device's number of multicast group `g` of hall `h`'s own numbering, and the hall's number of a device group that no number
of the hall's names (R221 gives no map). Log 32. -/
opaque groupDevice : (h g : Nat) → Nat
opaque groupOther : (h g : Nat) → Nat

/-- The PCIe Vendor ID assigned to Ifenal (R331), which the spec does not give. Log 136. -/
opaque freeVendorId : Nat

/-- The native register of a word of the DK2408 window (R385), whose layout is the Dranik DK2408 manual's and not in the spec: for a
block of the table and an offset in it, the offset of the register among the block's native registers; `none` where the DK2408
field has no native equivalent. Log 53. -/
opaque dkcReg : (block off : Nat) → Option Nat

/-- The bits of that word: (window bit, native bit, width) of each field. Log 53. -/
opaque dkcBits : (block off : Nat) → List (Nat × Nat × Nat)

/-- A DK2408 rate field in that word: its low bit and width. Log 53. -/
opaque dkcRate : (block off : Nat) → Option (Nat × Nat)

/-- The DK2408 codes for 1 and 10 Gbit/s. Log 53. -/
opaque dkcRateCode : (gbps : Nat) → Nat

/-- The nominal voltage in mV of rails 3 to 5, the module's own regulators, which the spec does not give. Log 46. -/
opaque railNominal : (r : Nat) → Nat

end Sys2Proof.Config
end

