-- ==== Sys2Proof/Machine/Regs.lean ====
section
/-! DEFINITION. The register map of the KZ9616: every register of spec/ by its own name, its place in the
address map (R362, R363 and the register tables of each chapter), and its field map (Bits, Field, Type, Reset,
Kept through). A field is named by its register and its bits; the values of the fields are held in State. -/

namespace Sys2Proof.Machine

/-- The registers of the device, under the names the spec gives them. -/
inductive R where
  | GLB_ID | GLB_CAP | GLB_UID | GLB_UNLOCK | GLB_ACCESS_ERR | GLB_ACCESS_ERR_ADDR
  | GLB_ACCESS_ERR_CNT | GLB_DKC_CTRL | GLB_PRIV_MAP | GLB_TV_STATUS | GLB_TV_ADDR | GLB_SB_CTRL
  | GLB_SB_STATUS | GLB_IMG_CTRL | GLB_IMG_ADDR_LO | GLB_IMG_ADDR_HI | GLB_IMG_LEN | GLB_IMG_ID
  | GLB_IMG_REV | GLB_QSC_CMD | GLB_QSC_TIMEOUT | GLB_QSC_PORT | GLB_QSC_GATE | GLB_QSC_HALL
  | GLB_QSC_MISC | GLB_RESET | GLB_PWR_CTRL | GLB_STATE_ERR_CNT | GLB_HALL_CMD | GLB_HALL_ADDR_LO
  | GLB_HALL_ADDR_HI | GLB_HALL_LEN | GLB_HALL_RES | GLB_HALL_DETAIL | GLB_HALL_REMAP | GLB_PORT_PIPE
  | GLB_PORT_OWN | GLB_PORT_QOWN | GLB_QUOTA_W0 | GLB_QUOTA_W1 | GLB_QUOTA_W2 | GLB_QUOTA_W3
  | GLB_QUOTA_W4 | GLB_QUOTA_W5 | GLB_QUOTA_W6 | GLB_QUOTA_W7 | GLB_QUOTA_W8 | GLB_QUOTA_W9
  | GLB_QUOTA_W10 | GLB_VSLICE | GLB_HPORT | FLT_STATUS | FLT_COND | FLT_CLEAR
  | FLT_MASK | FLT_PIN_EN | FLT_ALERT_EN | FLT_REACT | FLT_BANK_POLICY | FLT_VOTE_STATUS
  | FLT_FENCE_CMD | FLT_FENCED_PORT | FLT_FENCED_UNIT | FLT_FENCED_STAIR | FLT_EVT_CNT | FLT_HIST_STATUS
  | FLT_HIST_CLEAR | FLT_HIST | FLT_TEMP | FLT_THERM_CTRL | FLT_VMON | FLT_FI_CMD
  | TIM_CTRL | TIM_STATUS | TIM_TIME_NS | TIM_TIME_SEC_LO | TIM_TIME_SEC_HI | TIM_RATE_LO
  | TIM_RATE_HI | TIM_SLEW | TIM_CMD | TIM_STEP_SEC_LO | TIM_STEP_SEC_HI | TIM_STEP_NS
  | TIM_OFFSET | TIM_JUMP_THRESH | TIM_JUMP_CTRL | TIM_RESTEP_CNT | TIM_TC_DOM | TIM_CYC_CTRL
  | TIM_CYC_STATUS | TIM_CYC_ANGLE | TIM_CYC_COUNT | TIM_CYC_FREQ | TIM_CYC_NOM_FREQ | TIM_CYC_MEAS_FREQ
  | TIM_CYC_LT_NS | TIM_CYC_REF_PHASE | TIM_CYC_SV_STREAM | TIM_CYC_SV_DELAY | TIM_PPS_CTRL | TIM_CAP_CTRL
  | TIM_CAP_STATUS | TIM_CAP_W | TIM_PORT_CTRL | TIM_PORT_LAT | TIM_PORT_LINK_DELAY | TIM_TSQ_STATUS
  | TIM_TSQ_W | TIM_EVT_CTRL | TIM_EVT_T_LO | TIM_EVT_T_MID | TIM_EVT_T_HI | TIM_EVT_PERIOD
  | TIM_EVT_WIDTH | TIM_EVT_STATUS | PRT_LINK_CFG | PRT_LINK_CMD | PRT_LINK_STATUS | PRT_MAC_CTRL
  | PRT_HASH | PRT_VEST_STATUS | PRT_VEST_DROP | PRT_PMAC_CTRL | PRT_PMAC_STATUS | PRT_ERR_BUDGET
  | PRT_ERR_REACT | PRT_PARSE_CTRL | PRT_PCP_MAP | PRT_LEARN_CTRL | PRT_LEARN_STATUS | PRT_RX_CNT
  | PRT_DISC | PRT_MACSEC_CTRL | PRT_MACSEC_REPLAY_WINDOW | PRT_MACSEC_TX_PN_THRESH | PRT_MACSEC_TX_SCI | PRT_MACSEC_TX_SA_SEL
  | PRT_MACSEC_TX_SA_CTRL | PRT_MACSEC_TX_SA_NEXT_PN | PRT_MACSEC_TX_SA_SSCI | PRT_MACSEC_TX_SA_SALT | PRT_MACSEC_RX_SC_CTRL | PRT_MACSEC_RX_SC_SCI
  | PRT_MACSEC_RX_SA_CTRL | PRT_MACSEC_RX_SA_NEXT_PN_LO | PRT_MACSEC_RX_SA_NEXT_PN_HI | PRT_MACSEC_RX_SA_LOWEST_PN_LO | PRT_MACSEC_RX_SA_LOWEST_PN_HI | PRT_MACSEC_RX_SA_SSCI
  | PRT_MACSEC_RX_SA_SALT0 | PRT_MACSEC_RX_SA_SALT1 | PRT_MACSEC_RX_SA_SALT2 | OPT_SRC_STATUS | OPT_SPARE_MAP | OPT_SPARE_CTRL
  | OPT_SPARE_CMD | OPT_LANE_STATUS | OPT_INTLK | PIP_PARSE_CFG | PIP_LOST_ON_FENCE | PIP_PARSE_EXC
  | PIP_TCAM_STAGE | PIP_TCAM_CMD | PIP_HASH | PIP_EVC_CFG | PIP_EVC_SAMPLE | PIP_EVC_COUNT_LO
  | PIP_EVC_COUNT_HI | PIP_EVC_CTRL | PIP_SLOT_LO | PIP_SLOT_HI | PIP_EREC_STATUS | PIP_EREC_W
  | TBL_FDB_CTRL | TBL_AGE_CTRL | TBL_FDB_STATUS | TBL_FDB_EVT | TBL_SID_PROF | TBL_HASH_SEED
  | TBL_CMD | TBL_CMD_IDX | TBL_CMD_ARG | TBL_KEY | TBL_DATA | TBL_RES
  | TBL_RES_INFO | TBL_CMD_LOG | TBL_STALE_CNT | TBL_LRN_REC | TBL_SGATE_CTRL | TBL_SGATE_CYCLE
  | TBL_SGATE_BASE_NS | TBL_SGATE_BASE_SEC_LO | TBL_SGATE_BASE_SEC_HI | TBL_SGATE_STATUS | TBL_SGATE_REOPEN | TBL_SGLIST_W0
  | TBL_SGLIST_W1 | TBL_VLAN_W0 | TBL_VLAN_W1 | TBL_HASHIND | ATR_ADM_CTRL | ATR_STATUS
  | ATR_CLASS_CFG | ATR_CLASS_MAX | ATR_CLASS_USE | ATR_HALL_USE | ATR_AGE_CTRL | ATR_AGE_SV
  | ATR_AGE_GOOSE_CAP | ATR_HEALTH_CTRL | ATR_AGE_CLASS | ATR_AGED | ATR_CNT | ATR_BANK_MAP
  | ATR_BANK_CMD | ATR_RSQ_CTRL | ATR_RSQ_STATUS | ATR_MIR_CTRL | ATR_MIR_SEL | ATR_MIR_SOURCE
  | ATR_MIR_SAMPLED | ATR_MIR_DROPS | ATR_MIR_ENCAP | ATR_MIR_SEED | ATR_EVC_CFG | ATR_EVC_SAMPLE
  | ATR_EVC_COUNT_LO | ATR_EVC_COUNT_HI | ATR_EVC_CTRL | SCH_Q_CFG | SCH_Q_DEPTH | SCH_Q_FRAMES
  | SCH_BAY_CFG | SCH_BAY_RATE | SCH_BAY_HI | SCH_BAY_CREDIT | SCH_SVC_CFG | SCH_SVC_RATE
  | SCH_SVC_HI | SCH_SVC_CREDIT | SCH_PORT_CFG | SCH_PORT_RATE | SCH_PORT_HI | SCH_PORT_CREDIT
  | SCH_CLASS_MAP | SCH_GCL_CTRL | SCH_GCL_CYCLE | SCH_GCL_BASE_NS | SCH_GCL_BASE_SEC_LO | SCH_GCL_BASE_SEC_HI
  | SCH_GCL_HOLD | SCH_GCL_PEND_CTRL | SCH_GCL_PEND_CYCLE | SCH_GCL_PEND_BASE_NS | SCH_GCL_PEND_BASE_SEC_LO | SCH_GCL_PEND_BASE_SEC_HI
  | SCH_GCL_CMD | SCH_GCL_STATUS | SCH_GCL_ERR | SCH_GCL_W0 | SCH_GCL_W1 | SCH_FLUSH_CMD
  | SCH_FLUSH_RES | RED_DUP_CTRL | RED_ROLE_CMD | RED_CB_CTRL | RED_PAIR_CFG | RED_PAIR_MAC_HI
  | RED_PAIR_MAC_LO | RED_PAIR_SUP | RED_PAIR_FALLBACK | RED_PAIR_CNT | GAL_CTRL | GAL_ETYPE
  | GAL_ADDR_REQ | GAL_STATUS | GAL_EPOCH | GAL_TIMERS | GAL_SPRAY_CTRL | GAL_CMD
  | GAL_KEEPER_ID | GAL_STANDBY_ID | GAL_LINK_CFG | GAL_LINK_STATUS | GAL_LINK_NBR_ID | GAL_LINK_LOST_CNT
  | GAL_CNT | SEC_LC_CMD | SEC_FUSE_CMD | SEC_FUSE_DATA | SEC_FUSE_ROW | SEC_CAL_ROW
  | SEC_CE_CMD | SEC_CE_OP | SEC_CE_RES | SEC_CE_RES_INFO | SEC_KE_CMD | SEC_KE_TARGET
  | SEC_KE_KEY | SEC_KE_BLOB | SEC_KE_OUT | SEC_KE_RES_INFO | SEC_RNG_STATUS | SEC_RNG_CMD
  | SEC_RNG_CTRL | SEC_RNG_OUT | SEC_RNG_INFO | SEC_TRUST | SEC_FI_GATE | CNT_OVF_STATUS
  | CNT_SNAP_CMD | CNT_SNAP_ADDR_LO | CNT_SNAP_ADDR_HI | CNT_SNAP_LEN | CNT_SNAP_RES | CNT_SNAP_LOG
  | CNT_STALE_CNT | CNT_WIN_SEL | CNT_DEV | CNT_WIN | HAL_ID | HAL_GEN
  | HAL_APERTURE_SEL | HAL_QUOTA | HAL_USE | HAL_MBX_OUT | HAL_MBX_IN | HAL_MBX_CTRL
  | HAL_MBX_MGR | HAL_RING_BASE | HAL_RING_CPL | HAL_RING_CTRL | HAL_RING_TAIL | HAL_RING_HEAD
  | HAL_RING_CPLT | HAL_RING_ERR | HAL_RING_IRQ | HAL_RING_TOO_BIG | HAL_RX_MAP | HAL_RX_CFG
  | HAL_DMA_STATUS | HAL_DMA_LOG | HAL_DMA_STALE_CNT
  deriving DecidableEq, Repr

/-- A field: its register and its bits [hi:lo]. -/
structure F where
  r : R
  hi : Nat
  lo : Nat
  deriving DecidableEq, Repr

/-- The access type of a field (00_scope.md, access types). -/
inductive Acc where
  | rw | ro | rc | wo
  deriving DecidableEq, Repr

/-- One row of a field map. `kept` is the Kept through column as a mask over the reset kinds: 1 POR, 2 PIN, 4 DEV,
8 STRUCT, 16 HALL, 32 PIPE, 64 PORT, 128 STANDBY (STEP and PARK return no field to its Reset value, R13). `view` marks
a field that reports state held elsewhere in State. -/
structure Row where
  f : F
  acc : Acc
  live : Bool
  kg : Bool
  tv : Bool
  pv : Bool
  view : Bool
  reset : Nat
  kept : Nat
  deriving DecidableEq, Repr

/-- The quiesce domain a register belongs to under R63 (`none` for the pair words of R225). -/
inductive DomOf where
  | device | port | gate | pipe | time | gallery | hall | pair | lane
  deriving DecidableEq, Repr

/-- Where the elements of a register array lie: base + s1*i + s2*a + s3*b with j = a*n3 + b (R363). -/
structure Layout where
  base : Nat
  s1 : Nat
  n1 : Nat
  s2 : Nat
  n2 : Nat
  s3 : Nat
  n3 : Nat
  deriving DecidableEq, Repr

/-! The fields, each under `Fd.<register>_<field>`. -/
namespace Fd
abbrev GLB_ID_PART : F := ⟨.GLB_ID, 31, 16⟩
abbrev GLB_ID_STEPPING : F := ⟨.GLB_ID, 15, 8⟩
abbrev GLB_ID_SKU : F := ⟨.GLB_ID, 1, 0⟩
abbrev GLB_CAP_LIFECYCLE : F := ⟨.GLB_CAP, 31, 30⟩
abbrev GLB_CAP_HALL_LIMIT : F := ⟨.GLB_CAP, 21, 16⟩
abbrev GLB_CAP_MACSEC : F := ⟨.GLB_CAP, 0, 0⟩
abbrev GLB_UID_UID : F := ⟨.GLB_UID, 31, 0⟩
abbrev GLB_UNLOCK_KEY : F := ⟨.GLB_UNLOCK, 31, 0⟩
abbrev GLB_ACCESS_ERR_VALID : F := ⟨.GLB_ACCESS_ERR, 31, 31⟩
abbrev GLB_ACCESS_ERR_MORE : F := ⟨.GLB_ACCESS_ERR, 30, 30⟩
abbrev GLB_ACCESS_ERR_KIND : F := ⟨.GLB_ACCESS_ERR, 29, 27⟩
abbrev GLB_ACCESS_ERR_WRITE : F := ⟨.GLB_ACCESS_ERR, 26, 26⟩
abbrev GLB_ACCESS_ERR_MASTER : F := ⟨.GLB_ACCESS_ERR, 21, 16⟩
abbrev GLB_ACCESS_ERR_ADDR_ADDR : F := ⟨.GLB_ACCESS_ERR_ADDR, 25, 0⟩
abbrev GLB_ACCESS_ERR_CNT_OVF : F := ⟨.GLB_ACCESS_ERR_CNT, 31, 31⟩
abbrev GLB_ACCESS_ERR_CNT_COUNT : F := ⟨.GLB_ACCESS_ERR_CNT, 30, 0⟩
abbrev GLB_DKC_CTRL_EN : F := ⟨.GLB_DKC_CTRL, 31, 31⟩
abbrev GLB_DKC_CTRL_PORT_BASE : F := ⟨.GLB_DKC_CTRL, 6, 0⟩
abbrev GLB_PRIV_MAP_JTAG : F := ⟨.GLB_PRIV_MAP, 2, 2⟩
abbrev GLB_PRIV_MAP_SB : F := ⟨.GLB_PRIV_MAP, 1, 1⟩
abbrev GLB_PRIV_MAP_PF : F := ⟨.GLB_PRIV_MAP, 0, 0⟩
abbrev GLB_TV_STATUS_UNCORR : F := ⟨.GLB_TV_STATUS, 31, 31⟩
abbrev GLB_TV_STATUS_CORR : F := ⟨.GLB_TV_STATUS, 15, 0⟩
abbrev GLB_TV_ADDR_ADDR : F := ⟨.GLB_TV_ADDR, 25, 0⟩
abbrev GLB_SB_CTRL_ALERT_EN : F := ⟨.GLB_SB_CTRL, 1, 1⟩
abbrev GLB_SB_CTRL_PEC_REQ : F := ⟨.GLB_SB_CTRL, 0, 0⟩
abbrev GLB_SB_STATUS_ABORTED : F := ⟨.GLB_SB_STATUS, 31, 24⟩
abbrev GLB_SB_STATUS_PEC_ERR : F := ⟨.GLB_SB_STATUS, 23, 16⟩
abbrev GLB_SB_STATUS_ADDR : F := ⟨.GLB_SB_STATUS, 6, 0⟩
abbrev GLB_IMG_CTRL_STATUS : F := ⟨.GLB_IMG_CTRL, 31, 28⟩
abbrev GLB_IMG_CTRL_DETAIL : F := ⟨.GLB_IMG_CTRL, 27, 20⟩
abbrev GLB_IMG_CTRL_SLOT_USED : F := ⟨.GLB_IMG_CTRL, 17, 16⟩
abbrev GLB_IMG_CTRL_SRC : F := ⟨.GLB_IMG_CTRL, 9, 8⟩
abbrev GLB_IMG_ADDR_LO_ADDR : F := ⟨.GLB_IMG_ADDR_LO, 31, 0⟩
abbrev GLB_IMG_ADDR_HI_ADDR : F := ⟨.GLB_IMG_ADDR_HI, 31, 0⟩
abbrev GLB_IMG_LEN_LEN : F := ⟨.GLB_IMG_LEN, 31, 0⟩
abbrev GLB_IMG_ID_ID : F := ⟨.GLB_IMG_ID, 31, 0⟩
abbrev GLB_IMG_REV_REV : F := ⟨.GLB_IMG_REV, 31, 0⟩
abbrev GLB_QSC_CMD_STATUS : F := ⟨.GLB_QSC_CMD, 31, 28⟩
abbrev GLB_QSC_CMD_OP : F := ⟨.GLB_QSC_CMD, 17, 16⟩
abbrev GLB_QSC_CMD_INDEX : F := ⟨.GLB_QSC_CMD, 14, 8⟩
abbrev GLB_QSC_CMD_DOMAIN : F := ⟨.GLB_QSC_CMD, 2, 0⟩
abbrev GLB_QSC_TIMEOUT_TIMEOUT_US : F := ⟨.GLB_QSC_TIMEOUT, 15, 0⟩
abbrev GLB_QSC_PORT_MAP : F := ⟨.GLB_QSC_PORT, 31, 0⟩
abbrev GLB_QSC_GATE_MAP : F := ⟨.GLB_QSC_GATE, 31, 0⟩
abbrev GLB_QSC_HALL_MAP : F := ⟨.GLB_QSC_HALL, 31, 0⟩
abbrev GLB_QSC_MISC_MAP : F := ⟨.GLB_QSC_MISC, 6, 0⟩
abbrev GLB_RESET_STATUS : F := ⟨.GLB_RESET, 31, 28⟩
abbrev GLB_RESET_INDEX : F := ⟨.GLB_RESET, 14, 8⟩
abbrev GLB_RESET_KIND : F := ⟨.GLB_RESET, 2, 0⟩
abbrev GLB_PWR_CTRL_STATUS : F := ⟨.GLB_PWR_CTRL, 31, 28⟩
abbrev GLB_PWR_CTRL_PARKED : F := ⟨.GLB_PWR_CTRL, 27, 24⟩
abbrev GLB_PWR_CTRL_PARK : F := ⟨.GLB_PWR_CTRL, 23, 20⟩
abbrev GLB_PWR_CTRL_CUR_STEP : F := ⟨.GLB_PWR_CTRL, 19, 18⟩
abbrev GLB_PWR_CTRL_STEP_FLOOR : F := ⟨.GLB_PWR_CTRL, 5, 4⟩
abbrev GLB_PWR_CTRL_STANDBY : F := ⟨.GLB_PWR_CTRL, 1, 1⟩
abbrev GLB_PWR_CTRL_STEP_EN : F := ⟨.GLB_PWR_CTRL, 0, 0⟩
abbrev GLB_STATE_ERR_CNT_OVF : F := ⟨.GLB_STATE_ERR_CNT, 31, 31⟩
abbrev GLB_STATE_ERR_CNT_COUNT : F := ⟨.GLB_STATE_ERR_CNT, 30, 0⟩
abbrev GLB_HALL_CMD_STATUS : F := ⟨.GLB_HALL_CMD, 31, 28⟩
abbrev GLB_HALL_CMD_HALL : F := ⟨.GLB_HALL_CMD, 20, 16⟩
abbrev GLB_HALL_CMD_CNT : F := ⟨.GLB_HALL_CMD, 9, 9⟩
abbrev GLB_HALL_CMD_DYN : F := ⟨.GLB_HALL_CMD, 8, 8⟩
abbrev GLB_HALL_CMD_OP : F := ⟨.GLB_HALL_CMD, 2, 0⟩
abbrev GLB_HALL_ADDR_LO_ADDR : F := ⟨.GLB_HALL_ADDR_LO, 31, 0⟩
abbrev GLB_HALL_ADDR_HI_ADDR : F := ⟨.GLB_HALL_ADDR_HI, 31, 0⟩
abbrev GLB_HALL_LEN_LEN : F := ⟨.GLB_HALL_LEN, 31, 0⟩
abbrev GLB_HALL_RES_BYTES : F := ⟨.GLB_HALL_RES, 31, 0⟩
abbrev GLB_HALL_DETAIL_SECTION : F := ⟨.GLB_HALL_DETAIL, 31, 16⟩
abbrev GLB_HALL_DETAIL_CHECK : F := ⟨.GLB_HALL_DETAIL, 7, 0⟩
abbrev GLB_HALL_REMAP_VALID : F := ⟨.GLB_HALL_REMAP, 31, 31⟩
abbrev GLB_HALL_REMAP_PORT : F := ⟨.GLB_HALL_REMAP, 6, 0⟩
abbrev GLB_PORT_PIPE_REMAPPED : F := ⟨.GLB_PORT_PIPE, 9, 9⟩
abbrev GLB_PORT_PIPE_MOVE_PENDING : F := ⟨.GLB_PORT_PIPE, 8, 8⟩
abbrev GLB_PORT_PIPE_PIPE : F := ⟨.GLB_PORT_PIPE, 1, 0⟩
abbrev GLB_PORT_OWN_SHARED : F := ⟨.GLB_PORT_OWN, 31, 31⟩
abbrev GLB_PORT_OWN_OWNER : F := ⟨.GLB_PORT_OWN, 4, 0⟩
abbrev GLB_PORT_QOWN_OWNER3 : F := ⟨.GLB_PORT_QOWN, 28, 24⟩
abbrev GLB_PORT_QOWN_OWNER2 : F := ⟨.GLB_PORT_QOWN, 20, 16⟩
abbrev GLB_PORT_QOWN_OWNER1 : F := ⟨.GLB_PORT_QOWN, 12, 8⟩
abbrev GLB_PORT_QOWN_OWNER0 : F := ⟨.GLB_PORT_QOWN, 4, 0⟩
abbrev GLB_QUOTA_W0_CELLS : F := ⟨.GLB_QUOTA_W0, 18, 0⟩
abbrev GLB_QUOTA_W1_FDB : F := ⟨.GLB_QUOTA_W1, 18, 0⟩
abbrev GLB_QUOTA_W2_MCAST : F := ⟨.GLB_QUOTA_W2, 16, 0⟩
abbrev GLB_QUOTA_W3_TCAM : F := ⟨.GLB_QUOTA_W3, 12, 0⟩
abbrev GLB_QUOTA_W4_STREAM : F := ⟨.GLB_QUOTA_W4, 16, 0⟩
abbrev GLB_QUOTA_W5_POLICER : F := ⟨.GLB_QUOTA_W5, 16, 0⟩
abbrev GLB_QUOTA_W6_DUP : F := ⟨.GLB_QUOTA_W6, 17, 0⟩
abbrev GLB_QUOTA_W7_RECOVERY : F := ⟨.GLB_QUOTA_W7, 14, 0⟩
abbrev GLB_QUOTA_W8_TSQ_SHARE : F := ⟨.GLB_QUOTA_W8, 20, 16⟩
abbrev GLB_QUOTA_W8_LRN_REC : F := ⟨.GLB_QUOTA_W8, 12, 0⟩
abbrev GLB_QUOTA_W9_TX_RINGS : F := ⟨.GLB_QUOTA_W9, 28, 24⟩
abbrev GLB_QUOTA_W9_RX_RINGS : F := ⟨.GLB_QUOTA_W9, 20, 16⟩
abbrev GLB_QUOTA_W9_DMA_WEIGHT : F := ⟨.GLB_QUOTA_W9, 7, 0⟩
abbrev GLB_QUOTA_W10_CLASS : F := ⟨.GLB_QUOTA_W10, 2, 0⟩
abbrev GLB_VSLICE_VALID : F := ⟨.GLB_VSLICE, 31, 31⟩
abbrev GLB_VSLICE_HALL : F := ⟨.GLB_VSLICE, 4, 0⟩
abbrev GLB_HPORT_VALID : F := ⟨.GLB_HPORT, 31, 31⟩
abbrev GLB_HPORT_PORT : F := ⟨.GLB_HPORT, 6, 0⟩
abbrev FLT_STATUS_STATUS : F := ⟨.FLT_STATUS, 31, 0⟩
abbrev FLT_COND_COND : F := ⟨.FLT_COND, 31, 0⟩
abbrev FLT_CLEAR_CLEAR : F := ⟨.FLT_CLEAR, 31, 0⟩
abbrev FLT_MASK_MASK : F := ⟨.FLT_MASK, 31, 0⟩
abbrev FLT_PIN_EN_PIN_EN : F := ⟨.FLT_PIN_EN, 31, 0⟩
abbrev FLT_ALERT_EN_ALERT_EN : F := ⟨.FLT_ALERT_EN, 31, 0⟩
abbrev FLT_REACT_TCAM_LIMIT : F := ⟨.FLT_REACT, 15, 8⟩
abbrev FLT_REACT_THERM : F := ⟨.FLT_REACT, 7, 6⟩
abbrev FLT_REACT_TCAM : F := ⟨.FLT_REACT, 5, 4⟩
abbrev FLT_REACT_DMA : F := ⟨.FLT_REACT, 3, 2⟩
abbrev FLT_REACT_PIPE : F := ⟨.FLT_REACT, 1, 0⟩
abbrev FLT_BANK_POLICY_CORR_LIMIT : F := ⟨.FLT_BANK_POLICY, 31, 16⟩
abbrev FLT_BANK_POLICY_MAX_AUTO : F := ⟨.FLT_BANK_POLICY, 11, 8⟩
abbrev FLT_BANK_POLICY_UNCORR_LIMIT : F := ⟨.FLT_BANK_POLICY, 7, 0⟩
abbrev FLT_VOTE_STATUS_SAFE : F := ⟨.FLT_VOTE_STATUS, 31, 31⟩
abbrev FLT_VOTE_STATUS_COPY_OK : F := ⟨.FLT_VOTE_STATUS, 30, 28⟩
abbrev FLT_VOTE_STATUS_CORR : F := ⟨.FLT_VOTE_STATUS, 15, 0⟩
abbrev FLT_FENCE_CMD_STATUS : F := ⟨.FLT_FENCE_CMD, 31, 28⟩
abbrev FLT_FENCE_CMD_KIND : F := ⟨.FLT_FENCE_CMD, 26, 24⟩
abbrev FLT_FENCE_CMD_OP : F := ⟨.FLT_FENCE_CMD, 17, 16⟩
abbrev FLT_FENCE_CMD_INDEX : F := ⟨.FLT_FENCE_CMD, 6, 0⟩
abbrev FLT_FENCED_PORT_MAP : F := ⟨.FLT_FENCED_PORT, 31, 0⟩
abbrev FLT_FENCED_UNIT_MAP : F := ⟨.FLT_FENCED_UNIT, 31, 0⟩
abbrev FLT_FENCED_STAIR_MAP : F := ⟨.FLT_FENCED_STAIR, 31, 0⟩
abbrev FLT_EVT_CNT_COUNT : F := ⟨.FLT_EVT_CNT, 31, 0⟩
abbrev FLT_HIST_STATUS_BOOT : F := ⟨.FLT_HIST_STATUS, 31, 24⟩
abbrev FLT_HIST_STATUS_COUNT : F := ⟨.FLT_HIST_STATUS, 20, 16⟩
abbrev FLT_HIST_STATUS_NEWEST : F := ⟨.FLT_HIST_STATUS, 11, 8⟩
abbrev FLT_HIST_STATUS_OVERWRITTEN : F := ⟨.FLT_HIST_STATUS, 7, 0⟩
abbrev FLT_HIST_CLEAR_CLEAR : F := ⟨.FLT_HIST_CLEAR, 0, 0⟩
abbrev FLT_HIST_WORD : F := ⟨.FLT_HIST, 31, 0⟩
abbrev FLT_TEMP_TEMP : F := ⟨.FLT_TEMP, 15, 0⟩
abbrev FLT_THERM_CTRL_CRIT_C : F := ⟨.FLT_THERM_CTRL, 15, 8⟩
abbrev FLT_THERM_CTRL_WARN_C : F := ⟨.FLT_THERM_CTRL, 7, 0⟩
abbrev FLT_VMON_MV : F := ⟨.FLT_VMON, 15, 0⟩
abbrev FLT_FI_CMD_STATUS : F := ⟨.FLT_FI_CMD, 31, 28⟩
abbrev FLT_FI_CMD_OP : F := ⟨.FLT_FI_CMD, 26, 24⟩
abbrev FLT_FI_CMD_TARGET : F := ⟨.FLT_FI_CMD, 22, 20⟩
abbrev FLT_FI_CMD_FAULT : F := ⟨.FLT_FI_CMD, 13, 8⟩
abbrev FLT_FI_CMD_INDEX : F := ⟨.FLT_FI_CMD, 7, 0⟩
abbrev TIM_CTRL_KI_SHIFT : F := ⟨.TIM_CTRL, 15, 12⟩
abbrev TIM_CTRL_KP_SHIFT : F := ⟨.TIM_CTRL, 11, 8⟩
abbrev TIM_CTRL_PPS_QUAL : F := ⟨.TIM_CTRL, 7, 7⟩
abbrev TIM_CTRL_TC_IPV4 : F := ⟨.TIM_CTRL, 6, 6⟩
abbrev TIM_CTRL_TC_MODE : F := ⟨.TIM_CTRL, 5, 4⟩
abbrev TIM_CTRL_SERVO_SRC : F := ⟨.TIM_CTRL, 1, 0⟩
abbrev TIM_STATUS_EPOCH : F := ⟨.TIM_STATUS, 15, 14⟩
abbrev TIM_STATUS_CLK10M_LOST : F := ⟨.TIM_STATUS, 13, 13⟩
abbrev TIM_STATUS_RANGE_CLAMP : F := ⟨.TIM_STATUS, 12, 12⟩
abbrev TIM_STATUS_SLEW_CLAMP : F := ⟨.TIM_STATUS, 11, 11⟩
abbrev TIM_STATUS_JUMP : F := ⟨.TIM_STATUS, 10, 10⟩
abbrev TIM_STATUS_STBY_HOLD : F := ⟨.TIM_STATUS, 9, 9⟩
abbrev TIM_STATUS_STEP_USED : F := ⟨.TIM_STATUS, 8, 8⟩
abbrev TIM_STATUS_SERVO_STATE : F := ⟨.TIM_STATUS, 1, 0⟩
abbrev TIM_TIME_NS_NS : F := ⟨.TIM_TIME_NS, 31, 0⟩
abbrev TIM_TIME_SEC_LO_SEC : F := ⟨.TIM_TIME_SEC_LO, 31, 0⟩
abbrev TIM_TIME_SEC_HI_SEC : F := ⟨.TIM_TIME_SEC_HI, 31, 16⟩
abbrev TIM_TIME_SEC_HI_FRAC : F := ⟨.TIM_TIME_SEC_HI, 15, 0⟩
abbrev TIM_RATE_LO_RATE : F := ⟨.TIM_RATE_LO, 31, 0⟩
abbrev TIM_RATE_HI_RATE : F := ⟨.TIM_RATE_HI, 7, 0⟩
abbrev TIM_SLEW_PPB : F := ⟨.TIM_SLEW, 23, 0⟩
abbrev TIM_CMD_STATUS : F := ⟨.TIM_CMD, 31, 28⟩
abbrev TIM_CMD_OP : F := ⟨.TIM_CMD, 3, 0⟩
abbrev TIM_STEP_SEC_LO_SEC : F := ⟨.TIM_STEP_SEC_LO, 31, 0⟩
abbrev TIM_STEP_SEC_HI_SIGN : F := ⟨.TIM_STEP_SEC_HI, 16, 16⟩
abbrev TIM_STEP_SEC_HI_SEC : F := ⟨.TIM_STEP_SEC_HI, 15, 0⟩
abbrev TIM_STEP_NS_NS : F := ⟨.TIM_STEP_NS, 29, 0⟩
abbrev TIM_OFFSET_OFFSET : F := ⟨.TIM_OFFSET, 31, 0⟩
abbrev TIM_JUMP_THRESH_NS : F := ⟨.TIM_JUMP_THRESH, 31, 0⟩
abbrev TIM_JUMP_CTRL_RECOVER_N : F := ⟨.TIM_JUMP_CTRL, 3, 0⟩
abbrev TIM_RESTEP_CNT_COUNT : F := ⟨.TIM_RESTEP_CNT, 31, 0⟩
abbrev TIM_TC_DOM_MAP : F := ⟨.TIM_TC_DOM, 31, 0⟩
abbrev TIM_CYC_CTRL_SLEW_MHZ : F := ⟨.TIM_CYC_CTRL, 23, 20⟩
abbrev TIM_CYC_CTRL_BW : F := ⟨.TIM_CYC_CTRL, 19, 18⟩
abbrev TIM_CYC_CTRL_PULL : F := ⟨.TIM_CYC_CTRL, 17, 16⟩
abbrev TIM_CYC_CTRL_SPC : F := ⟨.TIM_CYC_CTRL, 8, 8⟩
abbrev TIM_CYC_CTRL_RAIL : F := ⟨.TIM_CYC_CTRL, 4, 4⟩
abbrev TIM_CYC_CTRL_MODE : F := ⟨.TIM_CYC_CTRL, 1, 0⟩
abbrev TIM_CYC_STATUS_FREQ_CLAMP : F := ⟨.TIM_CYC_STATUS, 10, 10⟩
abbrev TIM_CYC_STATUS_UNLOCK : F := ⟨.TIM_CYC_STATUS, 9, 9⟩
abbrev TIM_CYC_STATUS_ANCHORED : F := ⟨.TIM_CYC_STATUS, 8, 8⟩
abbrev TIM_CYC_STATUS_STATE : F := ⟨.TIM_CYC_STATUS, 2, 0⟩
abbrev TIM_CYC_ANGLE_ANGLE : F := ⟨.TIM_CYC_ANGLE, 31, 0⟩
abbrev TIM_CYC_COUNT_COUNT : F := ⟨.TIM_CYC_COUNT, 31, 0⟩
abbrev TIM_CYC_FREQ_UHZ : F := ⟨.TIM_CYC_FREQ, 31, 0⟩
abbrev TIM_CYC_NOM_FREQ_UHZ : F := ⟨.TIM_CYC_NOM_FREQ, 31, 0⟩
abbrev TIM_CYC_MEAS_FREQ_UHZ : F := ⟨.TIM_CYC_MEAS_FREQ, 31, 0⟩
abbrev TIM_CYC_LT_NS_NS : F := ⟨.TIM_CYC_LT_NS, 31, 0⟩
abbrev TIM_CYC_REF_PHASE_CU : F := ⟨.TIM_CYC_REF_PHASE, 31, 0⟩
abbrev TIM_CYC_SV_STREAM_STREAM : F := ⟨.TIM_CYC_SV_STREAM, 15, 0⟩
abbrev TIM_CYC_SV_DELAY_NS : F := ⟨.TIM_CYC_SV_DELAY, 31, 0⟩
abbrev TIM_PPS_CTRL_ENABLE : F := ⟨.TIM_PPS_CTRL, 31, 31⟩
abbrev TIM_PPS_CTRL_WIDTH_MS : F := ⟨.TIM_PPS_CTRL, 30, 20⟩
abbrev TIM_PPS_CTRL_OFFSET_NS : F := ⟨.TIM_PPS_CTRL, 19, 0⟩
abbrev TIM_CAP_CTRL_ENABLE : F := ⟨.TIM_CAP_CTRL, 31, 31⟩
abbrev TIM_CAP_CTRL_EDGE : F := ⟨.TIM_CAP_CTRL, 30, 29⟩
abbrev TIM_CAP_CTRL_FILTER_NS : F := ⟨.TIM_CAP_CTRL, 7, 0⟩
abbrev TIM_CAP_STATUS_OVF : F := ⟨.TIM_CAP_STATUS, 31, 31⟩
abbrev TIM_CAP_STATUS_LEVEL : F := ⟨.TIM_CAP_STATUS, 4, 0⟩
abbrev TIM_CAP_W_WORD : F := ⟨.TIM_CAP_W, 31, 0⟩
abbrev TIM_PORT_CTRL_TS_FWD : F := ⟨.TIM_PORT_CTRL, 1, 1⟩
abbrev TIM_PORT_CTRL_TC_EN : F := ⟨.TIM_PORT_CTRL, 0, 0⟩
abbrev TIM_PORT_LAT_TX_ADJ : F := ⟨.TIM_PORT_LAT, 31, 16⟩
abbrev TIM_PORT_LAT_RX_ADJ : F := ⟨.TIM_PORT_LAT, 15, 0⟩
abbrev TIM_PORT_LINK_DELAY_NS : F := ⟨.TIM_PORT_LINK_DELAY, 31, 0⟩
abbrev TIM_TSQ_STATUS_LOST : F := ⟨.TIM_TSQ_STATUS, 31, 31⟩
abbrev TIM_TSQ_STATUS_LOST_CNT : F := ⟨.TIM_TSQ_STATUS, 23, 8⟩
abbrev TIM_TSQ_STATUS_LEVEL : F := ⟨.TIM_TSQ_STATUS, 4, 0⟩
abbrev TIM_TSQ_W_WORD : F := ⟨.TIM_TSQ_W, 31, 0⟩
abbrev TIM_EVT_CTRL_ENABLE : F := ⟨.TIM_EVT_CTRL, 31, 31⟩
abbrev TIM_EVT_CTRL_BASE : F := ⟨.TIM_EVT_CTRL, 30, 30⟩
abbrev TIM_EVT_CTRL_PERIODIC : F := ⟨.TIM_EVT_CTRL, 29, 29⟩
abbrev TIM_EVT_CTRL_ACTION : F := ⟨.TIM_EVT_CTRL, 28, 26⟩
abbrev TIM_EVT_CTRL_TOUT : F := ⟨.TIM_EVT_CTRL, 25, 24⟩
abbrev TIM_EVT_CTRL_IRQ : F := ⟨.TIM_EVT_CTRL, 23, 23⟩
abbrev TIM_EVT_T_LO_T : F := ⟨.TIM_EVT_T_LO, 31, 0⟩
abbrev TIM_EVT_T_MID_T : F := ⟨.TIM_EVT_T_MID, 31, 0⟩
abbrev TIM_EVT_T_HI_T : F := ⟨.TIM_EVT_T_HI, 15, 0⟩
abbrev TIM_EVT_PERIOD_PERIOD : F := ⟨.TIM_EVT_PERIOD, 31, 0⟩
abbrev TIM_EVT_WIDTH_WIDTH : F := ⟨.TIM_EVT_WIDTH, 31, 0⟩
abbrev TIM_EVT_STATUS_FIRED : F := ⟨.TIM_EVT_STATUS, 31, 31⟩
abbrev TIM_EVT_STATUS_LATE : F := ⟨.TIM_EVT_STATUS, 30, 30⟩
abbrev TIM_EVT_STATUS_COLLIDE : F := ⟨.TIM_EVT_STATUS, 29, 29⟩
abbrev TIM_EVT_STATUS_FIRE_CNT : F := ⟨.TIM_EVT_STATUS, 15, 0⟩
abbrev PRT_LINK_CFG_AN_EN : F := ⟨.PRT_LINK_CFG, 8, 8⟩
abbrev PRT_LINK_CFG_FEC : F := ⟨.PRT_LINK_CFG, 5, 4⟩
abbrev PRT_LINK_CFG_RATE : F := ⟨.PRT_LINK_CFG, 2, 0⟩
abbrev PRT_LINK_CMD_STATUS : F := ⟨.PRT_LINK_CMD, 31, 28⟩
abbrev PRT_LINK_CMD_OP : F := ⟨.PRT_LINK_CMD, 1, 0⟩
abbrev PRT_LINK_STATUS_AN_NO_FD : F := ⟨.PRT_LINK_STATUS, 18, 18⟩
abbrev PRT_LINK_STATUS_LINK_LOST : F := ⟨.PRT_LINK_STATUS, 17, 17⟩
abbrev PRT_LINK_STATUS_RX_SIGNAL : F := ⟨.PRT_LINK_STATUS, 16, 16⟩
abbrev PRT_LINK_STATUS_STATE : F := ⟨.PRT_LINK_STATUS, 3, 0⟩
abbrev PRT_MAC_CTRL_GRP_FILTER : F := ⟨.PRT_MAC_CTRL, 19, 18⟩
abbrev PRT_MAC_CTRL_BCAST_EN : F := ⟨.PRT_MAC_CTRL, 17, 17⟩
abbrev PRT_MAC_CTRL_CUT_THRU : F := ⟨.PRT_MAC_CTRL, 16, 16⟩
abbrev PRT_MAC_CTRL_MAX_LEN : F := ⟨.PRT_MAC_CTRL, 14, 0⟩
abbrev PRT_HASH_BINS : F := ⟨.PRT_HASH, 31, 0⟩
abbrev PRT_VEST_STATUS_PEAK : F := ⟨.PRT_VEST_STATUS, 25, 16⟩
abbrev PRT_VEST_STATUS_LEVEL : F := ⟨.PRT_VEST_STATUS, 9, 0⟩
abbrev PRT_VEST_DROP_OVF : F := ⟨.PRT_VEST_DROP, 31, 31⟩
abbrev PRT_VEST_DROP_COUNT : F := ⟨.PRT_VEST_DROP, 30, 0⟩
abbrev PRT_PMAC_CTRL_VERIFY_LIMIT : F := ⟨.PRT_PMAC_CTRL, 27, 24⟩
abbrev PRT_PMAC_CTRL_VERIFY_MS : F := ⟨.PRT_PMAC_CTRL, 23, 16⟩
abbrev PRT_PMAC_CTRL_EXPRESS_MASK : F := ⟨.PRT_PMAC_CTRL, 15, 8⟩
abbrev PRT_PMAC_CTRL_ADD_FRAG : F := ⟨.PRT_PMAC_CTRL, 3, 2⟩
abbrev PRT_PMAC_CTRL_VERIFY_DIS : F := ⟨.PRT_PMAC_CTRL, 1, 1⟩
abbrev PRT_PMAC_CTRL_EN : F := ⟨.PRT_PMAC_CTRL, 0, 0⟩
abbrev PRT_PMAC_STATUS_ACTIVE : F := ⟨.PRT_PMAC_STATUS, 3, 3⟩
abbrev PRT_PMAC_STATUS_VERIFY_STATE : F := ⟨.PRT_PMAC_STATUS, 2, 0⟩
abbrev PRT_ERR_BUDGET_LIMIT : F := ⟨.PRT_ERR_BUDGET, 31, 16⟩
abbrev PRT_ERR_BUDGET_WINDOW_MS : F := ⟨.PRT_ERR_BUDGET, 15, 8⟩
abbrev PRT_ERR_BUDGET_EVENTS : F := ⟨.PRT_ERR_BUDGET, 7, 0⟩
abbrev PRT_ERR_REACT_IRQ : F := ⟨.PRT_ERR_REACT, 16, 16⟩
abbrev PRT_ERR_REACT_EXCEEDED : F := ⟨.PRT_ERR_REACT, 8, 8⟩
abbrev PRT_ERR_REACT_REACTION : F := ⟨.PRT_ERR_REACT, 1, 0⟩
abbrev PRT_PARSE_CTRL_TRAILER : F := ⟨.PRT_PARSE_CTRL, 16, 16⟩
abbrev PRT_PARSE_CTRL_UNK_STREAM : F := ⟨.PRT_PARSE_CTRL, 13, 12⟩
abbrev PRT_PARSE_CTRL_FAIL_ACT : F := ⟨.PRT_PARSE_CTRL, 9, 8⟩
abbrev PRT_PARSE_CTRL_FAIL_TC : F := ⟨.PRT_PARSE_CTRL, 6, 4⟩
abbrev PRT_PARSE_CTRL_DEF_TC : F := ⟨.PRT_PARSE_CTRL, 2, 0⟩
abbrev PRT_PCP_MAP_CLASS7 : F := ⟨.PRT_PCP_MAP, 23, 21⟩
abbrev PRT_PCP_MAP_CLASS6 : F := ⟨.PRT_PCP_MAP, 20, 18⟩
abbrev PRT_PCP_MAP_CLASS5 : F := ⟨.PRT_PCP_MAP, 17, 15⟩
abbrev PRT_PCP_MAP_CLASS4 : F := ⟨.PRT_PCP_MAP, 14, 12⟩
abbrev PRT_PCP_MAP_CLASS3 : F := ⟨.PRT_PCP_MAP, 11, 9⟩
abbrev PRT_PCP_MAP_CLASS2 : F := ⟨.PRT_PCP_MAP, 8, 6⟩
abbrev PRT_PCP_MAP_CLASS1 : F := ⟨.PRT_PCP_MAP, 5, 3⟩
abbrev PRT_PCP_MAP_CLASS0 : F := ⟨.PRT_PCP_MAP, 2, 0⟩
abbrev PRT_LEARN_CTRL_LIMIT : F := ⟨.PRT_LEARN_CTRL, 31, 16⟩
abbrev PRT_LEARN_CTRL_STATIC_DROP : F := ⟨.PRT_LEARN_CTRL, 4, 4⟩
abbrev PRT_LEARN_CTRL_EXCESS : F := ⟨.PRT_LEARN_CTRL, 3, 2⟩
abbrev PRT_LEARN_CTRL_MODE : F := ⟨.PRT_LEARN_CTRL, 1, 0⟩
abbrev PRT_LEARN_STATUS_AT_LIMIT : F := ⟨.PRT_LEARN_STATUS, 31, 31⟩
abbrev PRT_LEARN_STATUS_COUNT : F := ⟨.PRT_LEARN_STATUS, 20, 0⟩
abbrev PRT_RX_CNT_COUNT : F := ⟨.PRT_RX_CNT, 31, 0⟩
abbrev PRT_DISC_COUNT : F := ⟨.PRT_DISC, 31, 0⟩
abbrev PRT_MACSEC_CTRL_REPLAY_PROTECT : F := ⟨.PRT_MACSEC_CTRL, 10, 10⟩
abbrev PRT_MACSEC_CTRL_USE_ES : F := ⟨.PRT_MACSEC_CTRL, 9, 9⟩
abbrev PRT_MACSEC_CTRL_INCLUDE_SCI : F := ⟨.PRT_MACSEC_CTRL, 8, 8⟩
abbrev PRT_MACSEC_CTRL_VALIDATE : F := ⟨.PRT_MACSEC_CTRL, 7, 6⟩
abbrev PRT_MACSEC_CTRL_CONF_OFFSET : F := ⟨.PRT_MACSEC_CTRL, 5, 4⟩
abbrev PRT_MACSEC_CTRL_CIPHER : F := ⟨.PRT_MACSEC_CTRL, 3, 2⟩
abbrev PRT_MACSEC_CTRL_PROTECT : F := ⟨.PRT_MACSEC_CTRL, 1, 1⟩
abbrev PRT_MACSEC_CTRL_ENABLE : F := ⟨.PRT_MACSEC_CTRL, 0, 0⟩
abbrev PRT_MACSEC_REPLAY_WINDOW_WINDOW : F := ⟨.PRT_MACSEC_REPLAY_WINDOW, 31, 0⟩
abbrev PRT_MACSEC_TX_PN_THRESH_THRESH : F := ⟨.PRT_MACSEC_TX_PN_THRESH, 31, 0⟩
abbrev PRT_MACSEC_TX_SCI_SCI : F := ⟨.PRT_MACSEC_TX_SCI, 31, 0⟩
abbrev PRT_MACSEC_TX_SA_SEL_PN_EXHAUSTED : F := ⟨.PRT_MACSEC_TX_SA_SEL, 4, 4⟩
abbrev PRT_MACSEC_TX_SA_SEL_PN_THRESH : F := ⟨.PRT_MACSEC_TX_SA_SEL, 1, 1⟩
abbrev PRT_MACSEC_TX_SA_SEL_ENC_SA : F := ⟨.PRT_MACSEC_TX_SA_SEL, 0, 0⟩
abbrev PRT_MACSEC_TX_SA_CTRL_KEY_LOADED : F := ⟨.PRT_MACSEC_TX_SA_CTRL, 3, 3⟩
abbrev PRT_MACSEC_TX_SA_CTRL_AN : F := ⟨.PRT_MACSEC_TX_SA_CTRL, 2, 1⟩
abbrev PRT_MACSEC_TX_SA_CTRL_VALID : F := ⟨.PRT_MACSEC_TX_SA_CTRL, 0, 0⟩
abbrev PRT_MACSEC_TX_SA_NEXT_PN_PN : F := ⟨.PRT_MACSEC_TX_SA_NEXT_PN, 31, 0⟩
abbrev PRT_MACSEC_TX_SA_SSCI_SSCI : F := ⟨.PRT_MACSEC_TX_SA_SSCI, 31, 0⟩
abbrev PRT_MACSEC_TX_SA_SALT_SALT : F := ⟨.PRT_MACSEC_TX_SA_SALT, 31, 0⟩
abbrev PRT_MACSEC_RX_SC_CTRL_VALID : F := ⟨.PRT_MACSEC_RX_SC_CTRL, 0, 0⟩
abbrev PRT_MACSEC_RX_SC_SCI_SCI : F := ⟨.PRT_MACSEC_RX_SC_SCI, 31, 0⟩
abbrev PRT_MACSEC_RX_SA_CTRL_KEY_LOADED : F := ⟨.PRT_MACSEC_RX_SA_CTRL, 3, 3⟩
abbrev PRT_MACSEC_RX_SA_CTRL_AN : F := ⟨.PRT_MACSEC_RX_SA_CTRL, 2, 1⟩
abbrev PRT_MACSEC_RX_SA_CTRL_VALID : F := ⟨.PRT_MACSEC_RX_SA_CTRL, 0, 0⟩
abbrev PRT_MACSEC_RX_SA_NEXT_PN_LO_PN : F := ⟨.PRT_MACSEC_RX_SA_NEXT_PN_LO, 31, 0⟩
abbrev PRT_MACSEC_RX_SA_NEXT_PN_HI_PN : F := ⟨.PRT_MACSEC_RX_SA_NEXT_PN_HI, 31, 0⟩
abbrev PRT_MACSEC_RX_SA_LOWEST_PN_LO_PN : F := ⟨.PRT_MACSEC_RX_SA_LOWEST_PN_LO, 31, 0⟩
abbrev PRT_MACSEC_RX_SA_LOWEST_PN_HI_PN : F := ⟨.PRT_MACSEC_RX_SA_LOWEST_PN_HI, 31, 0⟩
abbrev PRT_MACSEC_RX_SA_SSCI_SSCI : F := ⟨.PRT_MACSEC_RX_SA_SSCI, 31, 0⟩
abbrev PRT_MACSEC_RX_SA_SALT0_SALT : F := ⟨.PRT_MACSEC_RX_SA_SALT0, 31, 0⟩
abbrev PRT_MACSEC_RX_SA_SALT1_SALT : F := ⟨.PRT_MACSEC_RX_SA_SALT1, 31, 0⟩
abbrev PRT_MACSEC_RX_SA_SALT2_SALT : F := ⟨.PRT_MACSEC_RX_SA_SALT2, 31, 0⟩
abbrev OPT_SRC_STATUS_BIAS_PCT : F := ⟨.OPT_SRC_STATUS, 15, 8⟩
abbrev OPT_SRC_STATUS_STATE : F := ⟨.OPT_SRC_STATUS, 2, 0⟩
abbrev OPT_SPARE_MAP_SPARES_LEFT : F := ⟨.OPT_SPARE_MAP, 17, 16⟩
abbrev OPT_SPARE_MAP_SLOT3 : F := ⟨.OPT_SPARE_MAP, 14, 12⟩
abbrev OPT_SPARE_MAP_SLOT2 : F := ⟨.OPT_SPARE_MAP, 10, 8⟩
abbrev OPT_SPARE_MAP_SLOT1 : F := ⟨.OPT_SPARE_MAP, 6, 4⟩
abbrev OPT_SPARE_MAP_SLOT0 : F := ⟨.OPT_SPARE_MAP, 2, 0⟩
abbrev OPT_SPARE_CTRL_RELOCK_US : F := ⟨.OPT_SPARE_CTRL, 25, 16⟩
abbrev OPT_SPARE_CTRL_BIAS_LIMIT : F := ⟨.OPT_SPARE_CTRL, 15, 8⟩
abbrev OPT_SPARE_CTRL_AUTO : F := ⟨.OPT_SPARE_CTRL, 0, 0⟩
abbrev OPT_SPARE_CMD_STATUS : F := ⟨.OPT_SPARE_CMD, 31, 28⟩
abbrev OPT_SPARE_CMD_SLOT : F := ⟨.OPT_SPARE_CMD, 5, 4⟩
abbrev OPT_SPARE_CMD_OP : F := ⟨.OPT_SPARE_CMD, 1, 0⟩
abbrev OPT_LANE_STATUS_RX_POWER : F := ⟨.OPT_LANE_STATUS, 31, 16⟩
abbrev OPT_LANE_STATUS_MOD_ON : F := ⟨.OPT_LANE_STATUS, 5, 5⟩
abbrev OPT_LANE_STATUS_FEC_LOCK : F := ⟨.OPT_LANE_STATUS, 4, 4⟩
abbrev OPT_LANE_STATUS_AM_LOCK : F := ⟨.OPT_LANE_STATUS, 3, 3⟩
abbrev OPT_LANE_STATUS_BLOCK_LOCK : F := ⟨.OPT_LANE_STATUS, 2, 2⟩
abbrev OPT_LANE_STATUS_CDR_LOCK : F := ⟨.OPT_LANE_STATUS, 1, 1⟩
abbrev OPT_LANE_STATUS_RX_SIGNAL : F := ⟨.OPT_LANE_STATUS, 0, 0⟩
abbrev OPT_INTLK_OPEN_CNT : F := ⟨.OPT_INTLK, 31, 16⟩
abbrev OPT_INTLK_LATCH : F := ⟨.OPT_INTLK, 1, 1⟩
abbrev OPT_INTLK_OPEN : F := ⟨.OPT_INTLK, 0, 0⟩
abbrev PIP_PARSE_CFG_MAX_VISITS : F := ⟨.PIP_PARSE_CFG, 5, 0⟩
abbrev PIP_LOST_ON_FENCE_COUNT : F := ⟨.PIP_LOST_ON_FENCE, 31, 0⟩
abbrev PIP_PARSE_EXC_COUNT : F := ⟨.PIP_PARSE_EXC, 31, 0⟩
abbrev PIP_TCAM_STAGE_DATA : F := ⟨.PIP_TCAM_STAGE, 31, 0⟩
abbrev PIP_TCAM_CMD_STATUS : F := ⟨.PIP_TCAM_CMD, 31, 28⟩
abbrev PIP_TCAM_CMD_LAYOUT : F := ⟨.PIP_TCAM_CMD, 27, 25⟩
abbrev PIP_TCAM_CMD_OWNER : F := ⟨.PIP_TCAM_CMD, 24, 20⟩
abbrev PIP_TCAM_CMD_OP : F := ⟨.PIP_TCAM_CMD, 17, 16⟩
abbrev PIP_TCAM_CMD_ROW : F := ⟨.PIP_TCAM_CMD, 12, 0⟩
abbrev PIP_HASH_SEL : F := ⟨.PIP_HASH, 31, 0⟩
abbrev PIP_EVC_CFG_EN : F := ⟨.PIP_EVC_CFG, 31, 31⟩
abbrev PIP_EVC_CFG_MODE : F := ⟨.PIP_EVC_CFG, 29, 28⟩
abbrev PIP_EVC_CFG_EVENT : F := ⟨.PIP_EVC_CFG, 7, 0⟩
abbrev PIP_EVC_SAMPLE_SAMPLE_N : F := ⟨.PIP_EVC_SAMPLE, 23, 0⟩
abbrev PIP_EVC_COUNT_LO_COUNT : F := ⟨.PIP_EVC_COUNT_LO, 31, 0⟩
abbrev PIP_EVC_COUNT_HI_OVF : F := ⟨.PIP_EVC_COUNT_HI, 31, 31⟩
abbrev PIP_EVC_COUNT_HI_COUNT : F := ⟨.PIP_EVC_COUNT_HI, 15, 0⟩
abbrev PIP_EVC_CTRL_CLEAR : F := ⟨.PIP_EVC_CTRL, 1, 1⟩
abbrev PIP_EVC_CTRL_FREEZE : F := ⟨.PIP_EVC_CTRL, 0, 0⟩
abbrev PIP_SLOT_LO_COUNT : F := ⟨.PIP_SLOT_LO, 31, 0⟩
abbrev PIP_SLOT_HI_OVF : F := ⟨.PIP_SLOT_HI, 31, 31⟩
abbrev PIP_SLOT_HI_COUNT : F := ⟨.PIP_SLOT_HI, 15, 0⟩
abbrev PIP_EREC_STATUS_LOST : F := ⟨.PIP_EREC_STATUS, 31, 31⟩
abbrev PIP_EREC_STATUS_LOST_CNT : F := ⟨.PIP_EREC_STATUS, 23, 8⟩
abbrev PIP_EREC_STATUS_LEVEL : F := ⟨.PIP_EREC_STATUS, 6, 0⟩
abbrev PIP_EREC_W_WORD : F := ⟨.PIP_EREC_W, 31, 0⟩
abbrev TBL_FDB_CTRL_LIMIT_MEMBERS : F := ⟨.TBL_FDB_CTRL, 27, 24⟩
abbrev TBL_FDB_CTRL_NOTIFY : F := ⟨.TBL_FDB_CTRL, 8, 8⟩
abbrev TBL_FDB_CTRL_SVL : F := ⟨.TBL_FDB_CTRL, 4, 4⟩
abbrev TBL_FDB_CTRL_LEARN_EN : F := ⟨.TBL_FDB_CTRL, 0, 0⟩
abbrev TBL_AGE_CTRL_ENABLE : F := ⟨.TBL_AGE_CTRL, 31, 31⟩
abbrev TBL_AGE_CTRL_AGE_S : F := ⟨.TBL_AGE_CTRL, 19, 0⟩
abbrev TBL_FDB_STATUS_PASS_ACTIVE : F := ⟨.TBL_FDB_STATUS, 31, 31⟩
abbrev TBL_FDB_STATUS_COUNT : F := ⟨.TBL_FDB_STATUS, 20, 0⟩
abbrev TBL_FDB_EVT_COUNT : F := ⟨.TBL_FDB_EVT, 31, 0⟩
abbrev TBL_SID_PROF_EN2 : F := ⟨.TBL_SID_PROF, 11, 11⟩
abbrev TBL_SID_PROF_M2 : F := ⟨.TBL_SID_PROF, 10, 8⟩
abbrev TBL_SID_PROF_EN1 : F := ⟨.TBL_SID_PROF, 7, 7⟩
abbrev TBL_SID_PROF_M1 : F := ⟨.TBL_SID_PROF, 6, 4⟩
abbrev TBL_SID_PROF_EN0 : F := ⟨.TBL_SID_PROF, 3, 3⟩
abbrev TBL_SID_PROF_M0 : F := ⟨.TBL_SID_PROF, 2, 0⟩
abbrev TBL_HASH_SEED_SEED : F := ⟨.TBL_HASH_SEED, 31, 0⟩
abbrev TBL_CMD_STATUS : F := ⟨.TBL_CMD, 31, 28⟩
abbrev TBL_CMD_HALL : F := ⟨.TBL_CMD, 24, 20⟩
abbrev TBL_CMD_TABLE : F := ⟨.TBL_CMD, 18, 16⟩
abbrev TBL_CMD_OP : F := ⟨.TBL_CMD, 11, 8⟩
abbrev TBL_CMD_IDX_INDEX : F := ⟨.TBL_CMD_IDX, 19, 0⟩
abbrev TBL_CMD_ARG_BY_INDEX : F := ⟨.TBL_CMD_ARG, 17, 17⟩
abbrev TBL_CMD_ARG_STATIC : F := ⟨.TBL_CMD_ARG, 16, 16⟩
abbrev TBL_CMD_ARG_HALL : F := ⟨.TBL_CMD_ARG, 12, 8⟩
abbrev TBL_CMD_ARG_PORT : F := ⟨.TBL_CMD_ARG, 6, 0⟩
abbrev TBL_KEY_KEY : F := ⟨.TBL_KEY, 31, 0⟩
abbrev TBL_DATA_DATA : F := ⟨.TBL_DATA, 31, 0⟩
abbrev TBL_RES_RES : F := ⟨.TBL_RES, 31, 0⟩
abbrev TBL_RES_INFO_RESULT_VALID : F := ⟨.TBL_RES_INFO, 31, 31⟩
abbrev TBL_RES_INFO_REPLACED : F := ⟨.TBL_RES_INFO, 30, 30⟩
abbrev TBL_RES_INFO_INDEX_OR_COUNT : F := ⟨.TBL_RES_INFO, 20, 0⟩
abbrev TBL_CMD_LOG_STATUS : F := ⟨.TBL_CMD_LOG, 31, 28⟩
abbrev TBL_CMD_LOG_HALL : F := ⟨.TBL_CMD_LOG, 24, 20⟩
abbrev TBL_CMD_LOG_OP : F := ⟨.TBL_CMD_LOG, 11, 8⟩
abbrev TBL_CMD_LOG_GEN : F := ⟨.TBL_CMD_LOG, 7, 0⟩
abbrev TBL_STALE_CNT_COUNT : F := ⟨.TBL_STALE_CNT, 31, 0⟩
abbrev TBL_LRN_REC_WORD : F := ⟨.TBL_LRN_REC, 31, 0⟩
abbrev TBL_SGATE_CTRL_ENABLE : F := ⟨.TBL_SGATE_CTRL, 31, 31⟩
abbrev TBL_SGATE_CTRL_BASE : F := ⟨.TBL_SGATE_CTRL, 30, 30⟩
abbrev TBL_SGATE_CTRL_CLOSE_INV_RX : F := ⟨.TBL_SGATE_CTRL, 29, 29⟩
abbrev TBL_SGATE_CTRL_CLOSE_INV_OCT : F := ⟨.TBL_SGATE_CTRL, 28, 28⟩
abbrev TBL_SGATE_CTRL_LIST_BASE : F := ⟨.TBL_SGATE_CTRL, 27, 16⟩
abbrev TBL_SGATE_CTRL_LIST_LEN : F := ⟨.TBL_SGATE_CTRL, 6, 0⟩
abbrev TBL_SGATE_CYCLE_CYCLE : F := ⟨.TBL_SGATE_CYCLE, 31, 0⟩
abbrev TBL_SGATE_BASE_NS_NS : F := ⟨.TBL_SGATE_BASE_NS, 31, 0⟩
abbrev TBL_SGATE_BASE_SEC_LO_SEC : F := ⟨.TBL_SGATE_BASE_SEC_LO, 31, 0⟩
abbrev TBL_SGATE_BASE_SEC_HI_SEC : F := ⟨.TBL_SGATE_BASE_SEC_HI, 15, 0⟩
abbrev TBL_SGATE_STATUS_CLOSED_INV : F := ⟨.TBL_SGATE_STATUS, 31, 31⟩
abbrev TBL_SGATE_STATUS_OPEN : F := ⟨.TBL_SGATE_STATUS, 30, 30⟩
abbrev TBL_SGATE_STATUS_CUR_ENTRY : F := ⟨.TBL_SGATE_STATUS, 5, 0⟩
abbrev TBL_SGATE_REOPEN_REOPEN : F := ⟨.TBL_SGATE_REOPEN, 0, 0⟩
abbrev TBL_SGLIST_W0_OPEN : F := ⟨.TBL_SGLIST_W0, 31, 31⟩
abbrev TBL_SGLIST_W0_IPV_EN : F := ⟨.TBL_SGLIST_W0, 30, 30⟩
abbrev TBL_SGLIST_W0_IPV : F := ⟨.TBL_SGLIST_W0, 29, 27⟩
abbrev TBL_SGLIST_W0_OCTET_MAX : F := ⟨.TBL_SGLIST_W0, 23, 0⟩
abbrev TBL_SGLIST_W1_INTERVAL : F := ⟨.TBL_SGLIST_W1, 31, 0⟩
abbrev TBL_VLAN_W0_VALID : F := ⟨.TBL_VLAN_W0, 31, 31⟩
abbrev TBL_VLAN_W0_LEARN_DIS : F := ⟨.TBL_VLAN_W0, 30, 30⟩
abbrev TBL_VLAN_W0_UUC_GRP : F := ⟨.TBL_VLAN_W0, 15, 0⟩
abbrev TBL_VLAN_W1_UMC_GRP : F := ⟨.TBL_VLAN_W1, 31, 16⟩
abbrev TBL_VLAN_W1_BC_GRP : F := ⟨.TBL_VLAN_W1, 15, 0⟩
abbrev TBL_HASHIND_VALID : F := ⟨.TBL_HASHIND, 31, 31⟩
abbrev TBL_HASHIND_KIND : F := ⟨.TBL_HASHIND, 30, 29⟩
abbrev TBL_HASHIND_TARGET : F := ⟨.TBL_HASHIND, 18, 0⟩
abbrev ATR_ADM_CTRL_HR_CLASSES : F := ⟨.ATR_ADM_CTRL, 31, 24⟩
abbrev ATR_ADM_CTRL_HEADROOM : F := ⟨.ATR_ADM_CTRL, 18, 0⟩
abbrev ATR_STATUS_RETIRED : F := ⟨.ATR_STATUS, 31, 25⟩
abbrev ATR_STATUS_FREE : F := ⟨.ATR_STATUS, 18, 0⟩
abbrev ATR_CLASS_CFG_ALPHA : F := ⟨.ATR_CLASS_CFG, 30, 28⟩
abbrev ATR_CLASS_CFG_YSHIFT : F := ⟨.ATR_CLASS_CFG, 27, 26⟩
abbrev ATR_CLASS_CFG_QMIN : F := ⟨.ATR_CLASS_CFG, 15, 0⟩
abbrev ATR_CLASS_MAX_MAX : F := ⟨.ATR_CLASS_MAX, 18, 0⟩
abbrev ATR_CLASS_USE_USE : F := ⟨.ATR_CLASS_USE, 18, 0⟩
abbrev ATR_HALL_USE_USE : F := ⟨.ATR_HALL_USE, 18, 0⟩
abbrev ATR_AGE_CTRL_SWEEP_EN : F := ⟨.ATR_AGE_CTRL, 31, 31⟩
abbrev ATR_AGE_CTRL_SWEEP_US : F := ⟨.ATR_AGE_CTRL, 25, 16⟩
abbrev ATR_AGE_CTRL_TRK_SPC : F := ⟨.ATR_AGE_CTRL, 9, 9⟩
abbrev ATR_AGE_CTRL_GOOSE_BASE : F := ⟨.ATR_AGE_CTRL, 8, 8⟩
abbrev ATR_AGE_CTRL_SV_BASE : F := ⟨.ATR_AGE_CTRL, 0, 0⟩
abbrev ATR_AGE_SV_VALUE : F := ⟨.ATR_AGE_SV, 31, 0⟩
abbrev ATR_AGE_GOOSE_CAP_VALUE : F := ⟨.ATR_AGE_GOOSE_CAP, 31, 0⟩
abbrev ATR_HEALTH_CTRL_LATE_NS : F := ⟨.ATR_HEALTH_CTRL, 31, 0⟩
abbrev ATR_AGE_CLASS_BASE : F := ⟨.ATR_AGE_CLASS, 31, 31⟩
abbrev ATR_AGE_CLASS_VALUE : F := ⟨.ATR_AGE_CLASS, 30, 0⟩
abbrev ATR_AGED_COUNT : F := ⟨.ATR_AGED, 31, 0⟩
abbrev ATR_CNT_COUNT : F := ⟨.ATR_CNT, 31, 0⟩
abbrev ATR_BANK_MAP_MAP : F := ⟨.ATR_BANK_MAP, 31, 0⟩
abbrev ATR_BANK_CMD_STATUS : F := ⟨.ATR_BANK_CMD, 31, 28⟩
abbrev ATR_BANK_CMD_OP : F := ⟨.ATR_BANK_CMD, 17, 16⟩
abbrev ATR_BANK_CMD_BANK : F := ⟨.ATR_BANK_CMD, 5, 0⟩
abbrev ATR_RSQ_CTRL_WINDOW : F := ⟨.ATR_RSQ_CTRL, 23, 16⟩
abbrev ATR_RSQ_CTRL_TIMEOUT_US : F := ⟨.ATR_RSQ_CTRL, 15, 0⟩
abbrev ATR_RSQ_STATUS_CONTEXTS : F := ⟨.ATR_RSQ_STATUS, 26, 16⟩
abbrev ATR_RSQ_STATUS_HELD : F := ⟨.ATR_RSQ_STATUS, 12, 0⟩
abbrev ATR_MIR_CTRL_ENABLE : F := ⟨.ATR_MIR_CTRL, 31, 31⟩
abbrev ATR_MIR_CTRL_TC : F := ⟨.ATR_MIR_CTRL, 30, 28⟩
abbrev ATR_MIR_CTRL_SRC : F := ⟨.ATR_MIR_CTRL, 27, 26⟩
abbrev ATR_MIR_CTRL_HDR : F := ⟨.ATR_MIR_CTRL, 25, 25⟩
abbrev ATR_MIR_CTRL_DEST_KIND : F := ⟨.ATR_MIR_CTRL, 24, 24⟩
abbrev ATR_MIR_CTRL_SNAP : F := ⟨.ATR_MIR_CTRL, 23, 22⟩
abbrev ATR_MIR_CTRL_HALL : F := ⟨.ATR_MIR_CTRL, 20, 16⟩
abbrev ATR_MIR_CTRL_RING : F := ⟨.ATR_MIR_CTRL, 11, 8⟩
abbrev ATR_MIR_CTRL_DEST_PORT : F := ⟨.ATR_MIR_CTRL, 6, 0⟩
abbrev ATR_MIR_SEL_RANDOM : F := ⟨.ATR_MIR_SEL, 31, 31⟩
abbrev ATR_MIR_SEL_N : F := ⟨.ATR_MIR_SEL, 23, 0⟩
abbrev ATR_MIR_SOURCE_SRC_PORT : F := ⟨.ATR_MIR_SOURCE, 22, 16⟩
abbrev ATR_MIR_SOURCE_SRC_STREAM : F := ⟨.ATR_MIR_SOURCE, 15, 0⟩
abbrev ATR_MIR_SAMPLED_SAMPLED : F := ⟨.ATR_MIR_SAMPLED, 31, 0⟩
abbrev ATR_MIR_DROPS_DROPS : F := ⟨.ATR_MIR_DROPS, 31, 0⟩
abbrev ATR_MIR_ENCAP_DATA : F := ⟨.ATR_MIR_ENCAP, 31, 0⟩
abbrev ATR_MIR_SEED_SEED : F := ⟨.ATR_MIR_SEED, 31, 0⟩
abbrev ATR_EVC_CFG_EN : F := ⟨.ATR_EVC_CFG, 31, 31⟩
abbrev ATR_EVC_CFG_MODE : F := ⟨.ATR_EVC_CFG, 29, 28⟩
abbrev ATR_EVC_CFG_EVENT : F := ⟨.ATR_EVC_CFG, 7, 0⟩
abbrev ATR_EVC_SAMPLE_SAMPLE_N : F := ⟨.ATR_EVC_SAMPLE, 23, 0⟩
abbrev ATR_EVC_COUNT_LO_COUNT : F := ⟨.ATR_EVC_COUNT_LO, 31, 0⟩
abbrev ATR_EVC_COUNT_HI_OVF : F := ⟨.ATR_EVC_COUNT_HI, 31, 31⟩
abbrev ATR_EVC_COUNT_HI_COUNT : F := ⟨.ATR_EVC_COUNT_HI, 15, 0⟩
abbrev ATR_EVC_CTRL_CLEAR : F := ⟨.ATR_EVC_CTRL, 1, 1⟩
abbrev ATR_EVC_CTRL_FREEZE : F := ⟨.ATR_EVC_CTRL, 0, 0⟩
abbrev SCH_Q_CFG_BAY : F := ⟨.SCH_Q_CFG, 29, 24⟩
abbrev SCH_Q_CFG_WEIGHT : F := ⟨.SCH_Q_CFG, 23, 16⟩
abbrev SCH_Q_CFG_MAX_LEN : F := ⟨.SCH_Q_CFG, 14, 0⟩
abbrev SCH_Q_DEPTH_CELLS : F := ⟨.SCH_Q_DEPTH, 18, 0⟩
abbrev SCH_Q_FRAMES_COPIES : F := ⟨.SCH_Q_FRAMES, 17, 0⟩
abbrev SCH_BAY_CFG_SHAPE_EN : F := ⟨.SCH_BAY_CFG, 31, 31⟩
abbrev SCH_BAY_CFG_SVC : F := ⟨.SCH_BAY_CFG, 26, 24⟩
abbrev SCH_BAY_CFG_WEIGHT : F := ⟨.SCH_BAY_CFG, 15, 8⟩
abbrev SCH_BAY_RATE_RATE_KBPS : F := ⟨.SCH_BAY_RATE, 31, 0⟩
abbrev SCH_BAY_HI_HI_CREDIT : F := ⟨.SCH_BAY_HI, 23, 0⟩
abbrev SCH_BAY_CREDIT_CREDIT : F := ⟨.SCH_BAY_CREDIT, 31, 0⟩
abbrev SCH_SVC_CFG_SHAPE_EN : F := ⟨.SCH_SVC_CFG, 31, 31⟩
abbrev SCH_SVC_CFG_WEIGHT : F := ⟨.SCH_SVC_CFG, 15, 8⟩
abbrev SCH_SVC_RATE_RATE_KBPS : F := ⟨.SCH_SVC_RATE, 31, 0⟩
abbrev SCH_SVC_HI_HI_CREDIT : F := ⟨.SCH_SVC_HI, 23, 0⟩
abbrev SCH_SVC_CREDIT_CREDIT : F := ⟨.SCH_SVC_CREDIT, 31, 0⟩
abbrev SCH_PORT_CFG_SHAPE_EN : F := ⟨.SCH_PORT_CFG, 31, 31⟩
abbrev SCH_PORT_CFG_DEI_MARK : F := ⟨.SCH_PORT_CFG, 0, 0⟩
abbrev SCH_PORT_RATE_RATE_KBPS : F := ⟨.SCH_PORT_RATE, 31, 0⟩
abbrev SCH_PORT_HI_HI_CREDIT : F := ⟨.SCH_PORT_HI, 23, 0⟩
abbrev SCH_PORT_CREDIT_CREDIT : F := ⟨.SCH_PORT_CREDIT, 31, 0⟩
abbrev SCH_CLASS_MAP_Q3 : F := ⟨.SCH_CLASS_MAP, 31, 24⟩
abbrev SCH_CLASS_MAP_Q2 : F := ⟨.SCH_CLASS_MAP, 23, 16⟩
abbrev SCH_CLASS_MAP_Q1 : F := ⟨.SCH_CLASS_MAP, 15, 8⟩
abbrev SCH_CLASS_MAP_Q0 : F := ⟨.SCH_CLASS_MAP, 7, 0⟩
abbrev SCH_GCL_CTRL_ENABLE : F := ⟨.SCH_GCL_CTRL, 31, 31⟩
abbrev SCH_GCL_CTRL_BASE : F := ⟨.SCH_GCL_CTRL, 30, 30⟩
abbrev SCH_GCL_CTRL_LEN : F := ⟨.SCH_GCL_CTRL, 24, 16⟩
abbrev SCH_GCL_CTRL_START : F := ⟨.SCH_GCL_CTRL, 7, 0⟩
abbrev SCH_GCL_CYCLE_CYCLE : F := ⟨.SCH_GCL_CYCLE, 31, 0⟩
abbrev SCH_GCL_BASE_NS_NS : F := ⟨.SCH_GCL_BASE_NS, 31, 0⟩
abbrev SCH_GCL_BASE_SEC_LO_SEC : F := ⟨.SCH_GCL_BASE_SEC_LO, 31, 0⟩
abbrev SCH_GCL_BASE_SEC_HI_SEC : F := ⟨.SCH_GCL_BASE_SEC_HI, 15, 0⟩
abbrev SCH_GCL_HOLD_HOLD_ADV_NS : F := ⟨.SCH_GCL_HOLD, 11, 0⟩
abbrev SCH_GCL_PEND_CTRL_BASE : F := ⟨.SCH_GCL_PEND_CTRL, 30, 30⟩
abbrev SCH_GCL_PEND_CTRL_LEN : F := ⟨.SCH_GCL_PEND_CTRL, 24, 16⟩
abbrev SCH_GCL_PEND_CTRL_START : F := ⟨.SCH_GCL_PEND_CTRL, 7, 0⟩
abbrev SCH_GCL_PEND_CYCLE_CYCLE : F := ⟨.SCH_GCL_PEND_CYCLE, 31, 0⟩
abbrev SCH_GCL_PEND_BASE_NS_NS : F := ⟨.SCH_GCL_PEND_BASE_NS, 31, 0⟩
abbrev SCH_GCL_PEND_BASE_SEC_LO_SEC : F := ⟨.SCH_GCL_PEND_BASE_SEC_LO, 31, 0⟩
abbrev SCH_GCL_PEND_BASE_SEC_HI_SEC : F := ⟨.SCH_GCL_PEND_BASE_SEC_HI, 15, 0⟩
abbrev SCH_GCL_CMD_STATUS : F := ⟨.SCH_GCL_CMD, 31, 28⟩
abbrev SCH_GCL_CMD_OP : F := ⟨.SCH_GCL_CMD, 1, 0⟩
abbrev SCH_GCL_STATUS_STATE : F := ⟨.SCH_GCL_STATUS, 31, 29⟩
abbrev SCH_GCL_STATUS_HOLD : F := ⟨.SCH_GCL_STATUS, 28, 28⟩
abbrev SCH_GCL_STATUS_CUR_ENTRY : F := ⟨.SCH_GCL_STATUS, 23, 16⟩
abbrev SCH_GCL_STATUS_CYCLES : F := ⟨.SCH_GCL_STATUS, 15, 0⟩
abbrev SCH_GCL_ERR_ACTIVE_WRITE : F := ⟨.SCH_GCL_ERR, 31, 31⟩
abbrev SCH_GCL_ERR_NEVER_FITS : F := ⟨.SCH_GCL_ERR, 15, 0⟩
abbrev SCH_GCL_W0_OP : F := ⟨.SCH_GCL_W0, 31, 30⟩
abbrev SCH_GCL_W0_GATES : F := ⟨.SCH_GCL_W0, 7, 0⟩
abbrev SCH_GCL_W1_INTERVAL : F := ⟨.SCH_GCL_W1, 31, 0⟩
abbrev SCH_FLUSH_CMD_STATUS : F := ⟨.SCH_FLUSH_CMD, 31, 28⟩
abbrev SCH_FLUSH_CMD_OP : F := ⟨.SCH_FLUSH_CMD, 17, 16⟩
abbrev SCH_FLUSH_CMD_PORT : F := ⟨.SCH_FLUSH_CMD, 14, 8⟩
abbrev SCH_FLUSH_CMD_INDEX : F := ⟨.SCH_FLUSH_CMD, 7, 0⟩
abbrev SCH_FLUSH_RES_COPIES : F := ⟨.SCH_FLUSH_RES, 18, 0⟩
abbrev RED_DUP_CTRL_SWEEP_EN : F := ⟨.RED_DUP_CTRL, 31, 31⟩
abbrev RED_DUP_CTRL_SRC_LOG2 : F := ⟨.RED_DUP_CTRL, 28, 24⟩
abbrev RED_DUP_CTRL_GEN_AGE_S : F := ⟨.RED_DUP_CTRL, 23, 16⟩
abbrev RED_DUP_CTRL_FORGET_MS : F := ⟨.RED_DUP_CTRL, 15, 0⟩
abbrev RED_ROLE_CMD_STATUS : F := ⟨.RED_ROLE_CMD, 31, 28⟩
abbrev RED_ROLE_CMD_OP : F := ⟨.RED_ROLE_CMD, 17, 16⟩
abbrev RED_ROLE_CMD_PAIR : F := ⟨.RED_ROLE_CMD, 5, 0⟩
abbrev RED_CB_CTRL_RTAG_HDR_ID : F := ⟨.RED_CB_CTRL, 31, 24⟩
abbrev RED_CB_CTRL_RTAG_PV : F := ⟨.RED_CB_CTRL, 23, 16⟩
abbrev RED_PAIR_CFG_ACTIVE : F := ⟨.RED_PAIR_CFG, 31, 31⟩
abbrev RED_PAIR_CFG_PORT_B : F := ⟨.RED_PAIR_CFG, 30, 24⟩
abbrev RED_PAIR_CFG_PORT_A : F := ⟨.RED_PAIR_CFG, 22, 16⟩
abbrev RED_PAIR_CFG_NET_ID : F := ⟨.RED_PAIR_CFG, 15, 13⟩
abbrev RED_PAIR_CFG_PASS_SEQ : F := ⟨.RED_PAIR_CFG, 12, 12⟩
abbrev RED_PAIR_CFG_HSR_MODE : F := ⟨.RED_PAIR_CFG, 11, 11⟩
abbrev RED_PAIR_CFG_SUP_TRAP : F := ⟨.RED_PAIR_CFG, 10, 10⟩
abbrev RED_PAIR_CFG_PROXY_SUP : F := ⟨.RED_PAIR_CFG, 9, 9⟩
abbrev RED_PAIR_CFG_QUAD_EN : F := ⟨.RED_PAIR_CFG, 8, 8⟩
abbrev RED_PAIR_CFG_QUAD_PEER : F := ⟨.RED_PAIR_CFG, 7, 2⟩
abbrev RED_PAIR_CFG_ROLE : F := ⟨.RED_PAIR_CFG, 1, 0⟩
abbrev RED_PAIR_MAC_HI_MAC : F := ⟨.RED_PAIR_MAC_HI, 15, 0⟩
abbrev RED_PAIR_MAC_LO_MAC : F := ⟨.RED_PAIR_MAC_LO, 31, 0⟩
abbrev RED_PAIR_SUP_SUP_EN : F := ⟨.RED_PAIR_SUP, 31, 31⟩
abbrev RED_PAIR_SUP_TC : F := ⟨.RED_PAIR_SUP, 26, 24⟩
abbrev RED_PAIR_SUP_DA_LSB : F := ⟨.RED_PAIR_SUP, 23, 16⟩
abbrev RED_PAIR_SUP_LIFE_MS : F := ⟨.RED_PAIR_SUP, 15, 0⟩
abbrev RED_PAIR_FALLBACK_SEQ : F := ⟨.RED_PAIR_FALLBACK, 15, 0⟩
abbrev RED_PAIR_CNT_COUNT : F := ⟨.RED_PAIR_CNT, 31, 0⟩
abbrev GAL_CTRL_ENABLE : F := ⟨.GAL_CTRL, 31, 31⟩
abbrev GAL_CTRL_AUTO_REELECT : F := ⟨.GAL_CTRL, 30, 30⟩
abbrev GAL_CTRL_MAX_HOPS : F := ⟨.GAL_CTRL, 27, 24⟩
abbrev GAL_CTRL_PRIORITY : F := ⟨.GAL_CTRL, 23, 16⟩
abbrev GAL_CTRL_CTRL_TC : F := ⟨.GAL_CTRL, 10, 8⟩
abbrev GAL_CTRL_DEPTH : F := ⟨.GAL_CTRL, 1, 0⟩
abbrev GAL_ETYPE_ETHERTYPE : F := ⟨.GAL_ETYPE, 15, 0⟩
abbrev GAL_ADDR_REQ_L1_AUTO : F := ⟨.GAL_ADDR_REQ, 16, 16⟩
abbrev GAL_ADDR_REQ_ADDR : F := ⟨.GAL_ADDR_REQ, 11, 0⟩
abbrev GAL_STATUS_STATE : F := ⟨.GAL_STATUS, 31, 29⟩
abbrev GAL_STATUS_ROLE : F := ⟨.GAL_STATUS, 28, 27⟩
abbrev GAL_STATUS_MEMBERS : F := ⟨.GAL_STATUS, 24, 12⟩
abbrev GAL_STATUS_ADDR : F := ⟨.GAL_STATUS, 11, 0⟩
abbrev GAL_EPOCH_NUMBER : F := ⟨.GAL_EPOCH, 31, 0⟩
abbrev GAL_TIMERS_HELLO_LOSS : F := ⟨.GAL_TIMERS, 31, 28⟩
abbrev GAL_TIMERS_SETTLE_MS : F := ⟨.GAL_TIMERS, 23, 16⟩
abbrev GAL_TIMERS_ACK_MS : F := ⟨.GAL_TIMERS, 15, 8⟩
abbrev GAL_TIMERS_APPLY_MS : F := ⟨.GAL_TIMERS, 7, 0⟩
abbrev GAL_SPRAY_CTRL_ENABLE : F := ⟨.GAL_SPRAY_CTRL, 31, 31⟩
abbrev GAL_SPRAY_CTRL_WARM_US : F := ⟨.GAL_SPRAY_CTRL, 15, 8⟩
abbrev GAL_SPRAY_CTRL_CLASS_MASK : F := ⟨.GAL_SPRAY_CTRL, 7, 0⟩
abbrev GAL_CMD_STATUS : F := ⟨.GAL_CMD, 31, 28⟩
abbrev GAL_CMD_OP : F := ⟨.GAL_CMD, 1, 0⟩
abbrev GAL_KEEPER_ID_ID : F := ⟨.GAL_KEEPER_ID, 31, 0⟩
abbrev GAL_STANDBY_ID_ID : F := ⟨.GAL_STANDBY_ID, 31, 0⟩
abbrev GAL_LINK_CFG_VALID : F := ⟨.GAL_LINK_CFG, 31, 31⟩
abbrev GAL_LINK_CFG_ADMIT_MODE : F := ⟨.GAL_LINK_CFG, 30, 30⟩
abbrev GAL_LINK_CFG_ADMIT : F := ⟨.GAL_LINK_CFG, 29, 29⟩
abbrev GAL_LINK_CFG_PORT : F := ⟨.GAL_LINK_CFG, 6, 0⟩
abbrev GAL_LINK_STATUS_STATE : F := ⟨.GAL_LINK_STATUS, 31, 29⟩
abbrev GAL_LINK_STATUS_NBR_PORT : F := ⟨.GAL_LINK_STATUS, 18, 0⟩
abbrev GAL_LINK_NBR_ID_ID : F := ⟨.GAL_LINK_NBR_ID, 31, 0⟩
abbrev GAL_LINK_LOST_CNT_COUNT : F := ⟨.GAL_LINK_LOST_CNT, 31, 0⟩
abbrev GAL_CNT_COUNT : F := ⟨.GAL_CNT, 31, 0⟩
abbrev SEC_LC_CMD_STATUS : F := ⟨.SEC_LC_CMD, 31, 28⟩
abbrev SEC_LC_CMD_OP : F := ⟨.SEC_LC_CMD, 1, 0⟩
abbrev SEC_FUSE_CMD_STATUS : F := ⟨.SEC_FUSE_CMD, 31, 28⟩
abbrev SEC_FUSE_CMD_ROW : F := ⟨.SEC_FUSE_CMD, 23, 16⟩
abbrev SEC_FUSE_CMD_OP : F := ⟨.SEC_FUSE_CMD, 1, 0⟩
abbrev SEC_FUSE_DATA_DATA : F := ⟨.SEC_FUSE_DATA, 31, 0⟩
abbrev SEC_FUSE_ROW_ROW : F := ⟨.SEC_FUSE_ROW, 31, 0⟩
abbrev SEC_CAL_ROW_ROW : F := ⟨.SEC_CAL_ROW, 31, 0⟩
abbrev SEC_CE_CMD_STATUS : F := ⟨.SEC_CE_CMD, 31, 28⟩
abbrev SEC_CE_CMD_TRNG_WAIT : F := ⟨.SEC_CE_CMD, 27, 27⟩
abbrev SEC_CE_CMD_KEY_SEL : F := ⟨.SEC_CE_CMD, 20, 20⟩
abbrev SEC_CE_CMD_CURVE : F := ⟨.SEC_CE_CMD, 16, 16⟩
abbrev SEC_CE_CMD_OP : F := ⟨.SEC_CE_CMD, 3, 0⟩
abbrev SEC_CE_OP_OPW : F := ⟨.SEC_CE_OP, 31, 0⟩
abbrev SEC_CE_RES_RES : F := ⟨.SEC_CE_RES, 31, 0⟩
abbrev SEC_CE_RES_INFO_RESULT_VALID : F := ⟨.SEC_CE_RES_INFO, 31, 31⟩
abbrev SEC_CE_RES_INFO_LEN : F := ⟨.SEC_CE_RES_INFO, 7, 0⟩
abbrev SEC_KE_CMD_STATUS : F := ⟨.SEC_KE_CMD, 31, 28⟩
abbrev SEC_KE_CMD_TRNG_WAIT : F := ⟨.SEC_KE_CMD, 27, 27⟩
abbrev SEC_KE_CMD_OP : F := ⟨.SEC_KE_CMD, 1, 0⟩
abbrev SEC_KE_TARGET_KLEN : F := ⟨.SEC_KE_TARGET, 28, 28⟩
abbrev SEC_KE_TARGET_DIR : F := ⟨.SEC_KE_TARGET, 24, 24⟩
abbrev SEC_KE_TARGET_PORT : F := ⟨.SEC_KE_TARGET, 22, 16⟩
abbrev SEC_KE_TARGET_SC : F := ⟨.SEC_KE_TARGET, 9, 8⟩
abbrev SEC_KE_TARGET_SA : F := ⟨.SEC_KE_TARGET, 0, 0⟩
abbrev SEC_KE_KEY_KEY : F := ⟨.SEC_KE_KEY, 31, 0⟩
abbrev SEC_KE_BLOB_BLOB : F := ⟨.SEC_KE_BLOB, 31, 0⟩
abbrev SEC_KE_OUT_OUT : F := ⟨.SEC_KE_OUT, 31, 0⟩
abbrev SEC_KE_RES_INFO_RESULT_VALID : F := ⟨.SEC_KE_RES_INFO, 31, 31⟩
abbrev SEC_RNG_STATUS_FAIL_CNT : F := ⟨.SEC_RNG_STATUS, 31, 16⟩
abbrev SEC_RNG_STATUS_FAIL_RUN : F := ⟨.SEC_RNG_STATUS, 9, 8⟩
abbrev SEC_RNG_STATUS_STATE : F := ⟨.SEC_RNG_STATUS, 2, 0⟩
abbrev SEC_RNG_CMD_STATUS : F := ⟨.SEC_RNG_CMD, 31, 28⟩
abbrev SEC_RNG_CMD_OP : F := ⟨.SEC_RNG_CMD, 1, 0⟩
abbrev SEC_RNG_CTRL_RESEED_MS : F := ⟨.SEC_RNG_CTRL, 15, 0⟩
abbrev SEC_RNG_OUT_OUT : F := ⟨.SEC_RNG_OUT, 31, 0⟩
abbrev SEC_RNG_INFO_RESULT_VALID : F := ⟨.SEC_RNG_INFO, 31, 31⟩
abbrev SEC_TRUST_WORD : F := ⟨.SEC_TRUST, 31, 0⟩
abbrev SEC_FI_GATE_OPEN : F := ⟨.SEC_FI_GATE, 0, 0⟩
abbrev CNT_OVF_STATUS_POOLS : F := ⟨.CNT_OVF_STATUS, 4, 0⟩
abbrev CNT_SNAP_CMD_STATUS : F := ⟨.CNT_SNAP_CMD, 31, 28⟩
abbrev CNT_SNAP_CMD_GEN : F := ⟨.CNT_SNAP_CMD, 27, 20⟩
abbrev CNT_SNAP_CMD_POOL : F := ⟨.CNT_SNAP_CMD, 18, 16⟩
abbrev CNT_SNAP_CMD_CLEAR : F := ⟨.CNT_SNAP_CMD, 8, 8⟩
abbrev CNT_SNAP_CMD_OP : F := ⟨.CNT_SNAP_CMD, 1, 0⟩
abbrev CNT_SNAP_ADDR_LO_ADDR : F := ⟨.CNT_SNAP_ADDR_LO, 31, 0⟩
abbrev CNT_SNAP_ADDR_HI_ADDR : F := ⟨.CNT_SNAP_ADDR_HI, 31, 0⟩
abbrev CNT_SNAP_LEN_LEN : F := ⟨.CNT_SNAP_LEN, 31, 0⟩
abbrev CNT_SNAP_RES_BYTES : F := ⟨.CNT_SNAP_RES, 31, 0⟩
abbrev CNT_SNAP_LOG_STATUS : F := ⟨.CNT_SNAP_LOG, 31, 28⟩
abbrev CNT_SNAP_LOG_HALL : F := ⟨.CNT_SNAP_LOG, 24, 20⟩
abbrev CNT_SNAP_LOG_GEN : F := ⟨.CNT_SNAP_LOG, 7, 0⟩
abbrev CNT_STALE_CNT_COUNT : F := ⟨.CNT_STALE_CNT, 31, 0⟩
abbrev CNT_WIN_SEL_POOL : F := ⟨.CNT_WIN_SEL, 31, 29⟩
abbrev CNT_WIN_SEL_BASE : F := ⟨.CNT_WIN_SEL, 19, 0⟩
abbrev CNT_DEV_COUNT : F := ⟨.CNT_DEV, 31, 0⟩
abbrev CNT_WIN_COUNT : F := ⟨.CNT_WIN, 31, 0⟩
abbrev HAL_ID_STATE : F := ⟨.HAL_ID, 26, 24⟩
abbrev HAL_ID_CLASS : F := ⟨.HAL_ID, 20, 16⟩
abbrev HAL_ID_HALL : F := ⟨.HAL_ID, 4, 0⟩
abbrev HAL_GEN_CURRENT : F := ⟨.HAL_GEN, 16, 16⟩
abbrev HAL_GEN_ACK : F := ⟨.HAL_GEN, 15, 8⟩
abbrev HAL_GEN_GEN : F := ⟨.HAL_GEN, 7, 0⟩
abbrev HAL_APERTURE_SEL_SEL : F := ⟨.HAL_APERTURE_SEL, 6, 0⟩
abbrev HAL_QUOTA_WORD : F := ⟨.HAL_QUOTA, 31, 0⟩
abbrev HAL_USE_WORD : F := ⟨.HAL_USE, 31, 0⟩
abbrev HAL_MBX_OUT_DATA : F := ⟨.HAL_MBX_OUT, 31, 0⟩
abbrev HAL_MBX_IN_DATA : F := ⟨.HAL_MBX_IN, 31, 0⟩
abbrev HAL_MBX_CTRL_STATUS : F := ⟨.HAL_MBX_CTRL, 31, 28⟩
abbrev HAL_MBX_CTRL_OUT_LEN : F := ⟨.HAL_MBX_CTRL, 22, 16⟩
abbrev HAL_MBX_CTRL_IN_LEN : F := ⟨.HAL_MBX_CTRL, 14, 8⟩
abbrev HAL_MBX_CTRL_IN_FULL : F := ⟨.HAL_MBX_CTRL, 5, 5⟩
abbrev HAL_MBX_CTRL_OUT_FULL : F := ⟨.HAL_MBX_CTRL, 4, 4⟩
abbrev HAL_MBX_CTRL_IN_ACK : F := ⟨.HAL_MBX_CTRL, 1, 1⟩
abbrev HAL_MBX_CTRL_SEND : F := ⟨.HAL_MBX_CTRL, 0, 0⟩
abbrev HAL_MBX_MGR_GEN : F := ⟨.HAL_MBX_MGR, 31, 24⟩
abbrev HAL_MBX_MGR_IN_LEN : F := ⟨.HAL_MBX_MGR, 22, 16⟩
abbrev HAL_MBX_MGR_REPLY : F := ⟨.HAL_MBX_MGR, 1, 1⟩
abbrev HAL_MBX_MGR_OUT_ACK : F := ⟨.HAL_MBX_MGR, 0, 0⟩
abbrev HAL_RING_BASE_ADDR : F := ⟨.HAL_RING_BASE, 31, 0⟩
abbrev HAL_RING_CPL_ADDR : F := ⟨.HAL_RING_CPL, 31, 0⟩
abbrev HAL_RING_CTRL_EN : F := ⟨.HAL_RING_CTRL, 31, 31⟩
abbrev HAL_RING_CTRL_IRQ_EN : F := ⟨.HAL_RING_CTRL, 30, 30⟩
abbrev HAL_RING_CTRL_ENGINE : F := ⟨.HAL_RING_CTRL, 27, 26⟩
abbrev HAL_RING_CTRL_SIZE_LOG2 : F := ⟨.HAL_RING_CTRL, 20, 16⟩
abbrev HAL_RING_TAIL_TAIL : F := ⟨.HAL_RING_TAIL, 15, 0⟩
abbrev HAL_RING_HEAD_HEAD : F := ⟨.HAL_RING_HEAD, 15, 0⟩
abbrev HAL_RING_CPLT_PHASE : F := ⟨.HAL_RING_CPLT, 31, 31⟩
abbrev HAL_RING_CPLT_CPL_TAIL : F := ⟨.HAL_RING_CPLT, 15, 0⟩
abbrev HAL_RING_ERR_ERR : F := ⟨.HAL_RING_ERR, 31, 28⟩
abbrev HAL_RING_ERR_HALTED : F := ⟨.HAL_RING_ERR, 27, 27⟩
abbrev HAL_RING_IRQ_FRAMES : F := ⟨.HAL_RING_IRQ, 31, 16⟩
abbrev HAL_RING_IRQ_USEC : F := ⟨.HAL_RING_IRQ, 15, 0⟩
abbrev HAL_RING_TOO_BIG_COUNT : F := ⟨.HAL_RING_TOO_BIG, 31, 0⟩
abbrev HAL_RX_MAP_MAP : F := ⟨.HAL_RX_MAP, 31, 0⟩
abbrev HAL_RX_CFG_EXC_RING : F := ⟨.HAL_RX_CFG, 3, 0⟩
abbrev HAL_DMA_STATUS_STATUS : F := ⟨.HAL_DMA_STATUS, 31, 0⟩
abbrev HAL_DMA_LOG_STATUS : F := ⟨.HAL_DMA_LOG, 31, 28⟩
abbrev HAL_DMA_LOG_HALL : F := ⟨.HAL_DMA_LOG, 24, 20⟩
abbrev HAL_DMA_LOG_GEN : F := ⟨.HAL_DMA_LOG, 7, 0⟩
abbrev HAL_DMA_STALE_CNT_COUNT : F := ⟨.HAL_DMA_STALE_CNT, 31, 0⟩
end Fd

/-- The field maps, one list for each register. -/
def R.rows (r : R) : List Row :=
  match r with
  | .GLB_ID => [⟨Fd.GLB_ID_PART, .ro, false, false, false, false, false, 38422, 255⟩,
      ⟨Fd.GLB_ID_STEPPING, .ro, false, false, false, false, false, 176, 255⟩,
      ⟨Fd.GLB_ID_SKU, .ro, false, false, false, false, true, 0, 255⟩]
  | .GLB_CAP => [⟨Fd.GLB_CAP_LIFECYCLE, .ro, false, false, false, false, true, 0, 255⟩,
      ⟨Fd.GLB_CAP_HALL_LIMIT, .ro, false, false, false, false, true, 0, 255⟩,
      ⟨Fd.GLB_CAP_MACSEC, .ro, false, false, false, false, true, 0, 255⟩]
  | .GLB_UID => [⟨Fd.GLB_UID_UID, .ro, false, false, false, false, true, 0, 255⟩]
  | .GLB_UNLOCK => [⟨Fd.GLB_UNLOCK_KEY, .wo, true, false, false, false, false, 0, 0⟩]
  | .GLB_ACCESS_ERR => [⟨Fd.GLB_ACCESS_ERR_VALID, .rc, false, false, false, false, false, 0, 112⟩,
      ⟨Fd.GLB_ACCESS_ERR_MORE, .rc, false, false, false, false, false, 0, 112⟩,
      ⟨Fd.GLB_ACCESS_ERR_KIND, .rc, false, false, false, false, false, 0, 112⟩,
      ⟨Fd.GLB_ACCESS_ERR_WRITE, .rc, false, false, false, false, false, 0, 112⟩,
      ⟨Fd.GLB_ACCESS_ERR_MASTER, .rc, false, false, false, false, false, 0, 112⟩]
  | .GLB_ACCESS_ERR_ADDR => [⟨Fd.GLB_ACCESS_ERR_ADDR_ADDR, .ro, false, false, false, false, false, 0, 112⟩]
  | .GLB_ACCESS_ERR_CNT => [⟨Fd.GLB_ACCESS_ERR_CNT_OVF, .rc, false, false, false, false, false, 0, 112⟩,
      ⟨Fd.GLB_ACCESS_ERR_CNT_COUNT, .rc, false, false, false, false, false, 0, 112⟩]
  | .GLB_DKC_CTRL => [⟨Fd.GLB_DKC_CTRL_EN, .rw, false, false, false, false, false, 0, 112⟩,
      ⟨Fd.GLB_DKC_CTRL_PORT_BASE, .rw, false, false, false, false, false, 0, 112⟩]
  | .GLB_PRIV_MAP => [⟨Fd.GLB_PRIV_MAP_JTAG, .rw, true, true, true, false, false, 0, 112⟩,
      ⟨Fd.GLB_PRIV_MAP_SB, .rw, true, true, true, false, false, 0, 112⟩,
      ⟨Fd.GLB_PRIV_MAP_PF, .rw, true, true, true, false, false, 0, 112⟩]
  | .GLB_TV_STATUS => [⟨Fd.GLB_TV_STATUS_UNCORR, .rc, false, false, false, false, false, 0, 112⟩,
      ⟨Fd.GLB_TV_STATUS_CORR, .rc, false, false, false, false, false, 0, 112⟩]
  | .GLB_TV_ADDR => [⟨Fd.GLB_TV_ADDR_ADDR, .ro, false, false, false, false, false, 0, 112⟩]
  | .GLB_SB_CTRL => [⟨Fd.GLB_SB_CTRL_ALERT_EN, .rw, true, false, false, false, false, 1, 252⟩,
      ⟨Fd.GLB_SB_CTRL_PEC_REQ, .rw, true, false, false, false, false, 0, 252⟩]
  | .GLB_SB_STATUS => [⟨Fd.GLB_SB_STATUS_ABORTED, .rc, false, false, false, false, false, 0, 252⟩,
      ⟨Fd.GLB_SB_STATUS_PEC_ERR, .rc, false, false, false, false, false, 0, 252⟩,
      ⟨Fd.GLB_SB_STATUS_ADDR, .ro, false, false, false, false, true, 0, 252⟩]
  | .GLB_IMG_CTRL => [⟨Fd.GLB_IMG_CTRL_STATUS, .ro, false, false, false, false, false, 0, 124⟩,
      ⟨Fd.GLB_IMG_CTRL_DETAIL, .ro, false, false, false, false, false, 0, 124⟩,
      ⟨Fd.GLB_IMG_CTRL_SLOT_USED, .ro, false, false, false, false, false, 3, 116⟩,
      ⟨Fd.GLB_IMG_CTRL_SRC, .rw, true, false, false, false, false, 0, 124⟩]
  | .GLB_IMG_ADDR_LO => [⟨Fd.GLB_IMG_ADDR_LO_ADDR, .rw, true, false, false, false, false, 0, 124⟩]
  | .GLB_IMG_ADDR_HI => [⟨Fd.GLB_IMG_ADDR_HI_ADDR, .rw, true, false, false, false, false, 0, 124⟩]
  | .GLB_IMG_LEN => [⟨Fd.GLB_IMG_LEN_LEN, .rw, true, false, false, false, false, 0, 124⟩]
  | .GLB_IMG_ID => [⟨Fd.GLB_IMG_ID_ID, .ro, false, false, false, false, true, 0, 116⟩]
  | .GLB_IMG_REV => [⟨Fd.GLB_IMG_REV_REV, .ro, false, false, false, false, true, 0, 116⟩]
  | .GLB_QSC_CMD => [⟨Fd.GLB_QSC_CMD_STATUS, .ro, false, false, false, false, false, 0, 0⟩,
      ⟨Fd.GLB_QSC_CMD_OP, .wo, true, false, false, false, false, 0, 0⟩,
      ⟨Fd.GLB_QSC_CMD_INDEX, .rw, true, false, false, false, false, 0, 0⟩,
      ⟨Fd.GLB_QSC_CMD_DOMAIN, .rw, true, false, false, false, false, 0, 0⟩]
  | .GLB_QSC_TIMEOUT => [⟨Fd.GLB_QSC_TIMEOUT_TIMEOUT_US, .rw, true, false, false, false, false, 1000, 112⟩]
  | .GLB_QSC_PORT => [⟨Fd.GLB_QSC_PORT_MAP, .ro, false, false, false, false, true, 0, 0⟩]
  | .GLB_QSC_GATE => [⟨Fd.GLB_QSC_GATE_MAP, .ro, false, false, false, false, true, 0, 0⟩]
  | .GLB_QSC_HALL => [⟨Fd.GLB_QSC_HALL_MAP, .ro, false, false, false, false, true, 0, 0⟩]
  | .GLB_QSC_MISC => [⟨Fd.GLB_QSC_MISC_MAP, .ro, false, false, false, false, true, 0, 0⟩]
  | .GLB_RESET => [⟨Fd.GLB_RESET_STATUS, .ro, false, false, false, false, false, 0, 124⟩,
      ⟨Fd.GLB_RESET_INDEX, .rw, true, true, false, false, false, 0, 0⟩,
      ⟨Fd.GLB_RESET_KIND, .rw, true, true, false, false, false, 0, 0⟩]
  | .GLB_PWR_CTRL => [⟨Fd.GLB_PWR_CTRL_STATUS, .ro, false, false, false, false, false, 0, 0⟩,
      ⟨Fd.GLB_PWR_CTRL_PARKED, .ro, false, false, false, false, false, 0, 112⟩,
      ⟨Fd.GLB_PWR_CTRL_PARK, .rw, true, false, false, false, false, 0, 112⟩,
      ⟨Fd.GLB_PWR_CTRL_CUR_STEP, .ro, false, false, false, false, true, 0, 0⟩,
      ⟨Fd.GLB_PWR_CTRL_STEP_FLOOR, .rw, true, false, false, false, false, 2, 112⟩,
      ⟨Fd.GLB_PWR_CTRL_STANDBY, .rw, true, true, false, false, false, 0, 0⟩,
      ⟨Fd.GLB_PWR_CTRL_STEP_EN, .rw, true, false, false, false, false, 1, 112⟩]
  | .GLB_STATE_ERR_CNT => [⟨Fd.GLB_STATE_ERR_CNT_OVF, .rc, false, false, false, false, false, 0, 112⟩,
      ⟨Fd.GLB_STATE_ERR_CNT_COUNT, .rc, false, false, false, false, false, 0, 112⟩]
  | .GLB_HALL_CMD => [⟨Fd.GLB_HALL_CMD_STATUS, .ro, false, false, false, false, false, 0, 0⟩,
      ⟨Fd.GLB_HALL_CMD_HALL, .rw, true, false, false, true, false, 0, 0⟩,
      ⟨Fd.GLB_HALL_CMD_CNT, .rw, true, false, false, true, false, 0, 0⟩,
      ⟨Fd.GLB_HALL_CMD_DYN, .rw, true, false, false, true, false, 0, 0⟩,
      ⟨Fd.GLB_HALL_CMD_OP, .wo, true, false, false, true, false, 0, 0⟩]
  | .GLB_HALL_ADDR_LO => [⟨Fd.GLB_HALL_ADDR_LO_ADDR, .rw, true, false, false, true, false, 0, 112⟩]
  | .GLB_HALL_ADDR_HI => [⟨Fd.GLB_HALL_ADDR_HI_ADDR, .rw, true, false, false, true, false, 0, 112⟩]
  | .GLB_HALL_LEN => [⟨Fd.GLB_HALL_LEN_LEN, .rw, true, false, false, true, false, 0, 112⟩]
  | .GLB_HALL_RES => [⟨Fd.GLB_HALL_RES_BYTES, .ro, false, false, false, false, false, 0, 0⟩]
  | .GLB_HALL_DETAIL => [⟨Fd.GLB_HALL_DETAIL_SECTION, .ro, false, false, false, false, false, 0, 0⟩,
      ⟨Fd.GLB_HALL_DETAIL_CHECK, .ro, false, false, false, false, false, 0, 0⟩]
  | .GLB_HALL_REMAP => [⟨Fd.GLB_HALL_REMAP_VALID, .rw, true, false, false, true, false, 0, 112⟩,
      ⟨Fd.GLB_HALL_REMAP_PORT, .rw, true, false, false, true, false, 0, 112⟩]
  | .GLB_PORT_PIPE => [⟨Fd.GLB_PORT_PIPE_REMAPPED, .rc, false, false, false, false, false, 0, 112⟩,
      ⟨Fd.GLB_PORT_PIPE_MOVE_PENDING, .ro, false, false, false, false, false, 0, 0⟩,
      ⟨Fd.GLB_PORT_PIPE_PIPE, .rw, true, false, true, false, false, 0, 112⟩]
  | .GLB_PORT_OWN => [⟨Fd.GLB_PORT_OWN_SHARED, .rw, false, false, true, false, false, 0, 112⟩,
      ⟨Fd.GLB_PORT_OWN_OWNER, .rw, false, false, true, false, false, 0, 112⟩]
  | .GLB_PORT_QOWN => [⟨Fd.GLB_PORT_QOWN_OWNER3, .rw, false, false, false, false, false, 0, 112⟩,
      ⟨Fd.GLB_PORT_QOWN_OWNER2, .rw, false, false, false, false, false, 0, 112⟩,
      ⟨Fd.GLB_PORT_QOWN_OWNER1, .rw, false, false, false, false, false, 0, 112⟩,
      ⟨Fd.GLB_PORT_QOWN_OWNER0, .rw, false, false, false, false, false, 0, 112⟩]
  | .GLB_QUOTA_W0 => [⟨Fd.GLB_QUOTA_W0_CELLS, .rw, true, false, false, true, false, 0, 112⟩]
  | .GLB_QUOTA_W1 => [⟨Fd.GLB_QUOTA_W1_FDB, .rw, true, false, false, true, false, 0, 112⟩]
  | .GLB_QUOTA_W2 => [⟨Fd.GLB_QUOTA_W2_MCAST, .rw, true, false, false, true, false, 0, 112⟩]
  | .GLB_QUOTA_W3 => [⟨Fd.GLB_QUOTA_W3_TCAM, .rw, true, false, false, true, false, 0, 112⟩]
  | .GLB_QUOTA_W4 => [⟨Fd.GLB_QUOTA_W4_STREAM, .rw, true, false, false, true, false, 0, 112⟩]
  | .GLB_QUOTA_W5 => [⟨Fd.GLB_QUOTA_W5_POLICER, .rw, true, false, false, true, false, 0, 112⟩]
  | .GLB_QUOTA_W6 => [⟨Fd.GLB_QUOTA_W6_DUP, .rw, true, false, false, true, false, 0, 112⟩]
  | .GLB_QUOTA_W7 => [⟨Fd.GLB_QUOTA_W7_RECOVERY, .rw, true, false, false, true, false, 0, 112⟩]
  | .GLB_QUOTA_W8 => [⟨Fd.GLB_QUOTA_W8_TSQ_SHARE, .rw, true, false, false, true, false, 0, 112⟩,
      ⟨Fd.GLB_QUOTA_W8_LRN_REC, .rw, true, false, false, true, false, 0, 112⟩]
  | .GLB_QUOTA_W9 => [⟨Fd.GLB_QUOTA_W9_TX_RINGS, .rw, true, false, false, true, false, 0, 112⟩,
      ⟨Fd.GLB_QUOTA_W9_RX_RINGS, .rw, true, false, false, true, false, 0, 112⟩,
      ⟨Fd.GLB_QUOTA_W9_DMA_WEIGHT, .rw, true, false, false, true, false, 0, 112⟩]
  | .GLB_QUOTA_W10 => [⟨Fd.GLB_QUOTA_W10_CLASS, .ro, false, false, false, true, false, 0, 112⟩]
  | .GLB_VSLICE => [⟨Fd.GLB_VSLICE_VALID, .rw, true, false, false, false, false, 0, 112⟩,
      ⟨Fd.GLB_VSLICE_HALL, .rw, true, false, false, false, false, 0, 112⟩]
  | .GLB_HPORT => [⟨Fd.GLB_HPORT_VALID, .rw, false, false, false, false, false, 0, 112⟩,
      ⟨Fd.GLB_HPORT_PORT, .rw, false, false, false, false, false, 0, 112⟩]
  | .FLT_STATUS => [⟨Fd.FLT_STATUS_STATUS, .ro, false, false, false, false, false, 0, 252⟩]
  | .FLT_COND => [⟨Fd.FLT_COND_COND, .ro, false, false, false, false, true, 0, 0⟩]
  | .FLT_CLEAR => [⟨Fd.FLT_CLEAR_CLEAR, .wo, true, false, false, true, false, 0, 0⟩]
  | .FLT_MASK => [⟨Fd.FLT_MASK_MASK, .rw, true, true, true, true, false, 0, 112⟩]
  | .FLT_PIN_EN => [⟨Fd.FLT_PIN_EN_PIN_EN, .rw, true, true, true, true, false, 44851741, 112⟩]
  | .FLT_ALERT_EN => [⟨Fd.FLT_ALERT_EN_ALERT_EN, .rw, true, false, false, true, false, 44851741, 112⟩]
  | .FLT_REACT => [⟨Fd.FLT_REACT_TCAM_LIMIT, .rw, true, false, true, true, false, 8, 112⟩,
      ⟨Fd.FLT_REACT_THERM, .rw, true, false, true, true, false, 1, 112⟩,
      ⟨Fd.FLT_REACT_TCAM, .rw, true, false, true, true, false, 1, 112⟩,
      ⟨Fd.FLT_REACT_DMA, .rw, true, false, true, true, false, 0, 112⟩,
      ⟨Fd.FLT_REACT_PIPE, .rw, true, false, true, true, false, 0, 112⟩]
  | .FLT_BANK_POLICY => [⟨Fd.FLT_BANK_POLICY_CORR_LIMIT, .rw, true, false, true, true, false, 1000, 112⟩,
      ⟨Fd.FLT_BANK_POLICY_MAX_AUTO, .rw, true, false, true, true, false, 4, 112⟩,
      ⟨Fd.FLT_BANK_POLICY_UNCORR_LIMIT, .rw, true, false, true, true, false, 1, 112⟩]
  | .FLT_VOTE_STATUS => [⟨Fd.FLT_VOTE_STATUS_SAFE, .ro, false, false, false, false, false, 0, 252⟩,
      ⟨Fd.FLT_VOTE_STATUS_COPY_OK, .ro, false, false, false, false, false, 7, 0⟩,
      ⟨Fd.FLT_VOTE_STATUS_CORR, .rc, false, false, false, false, false, 0, 112⟩]
  | .FLT_FENCE_CMD => [⟨Fd.FLT_FENCE_CMD_STATUS, .ro, false, false, false, false, false, 0, 0⟩,
      ⟨Fd.FLT_FENCE_CMD_KIND, .rw, true, true, false, true, false, 0, 0⟩,
      ⟨Fd.FLT_FENCE_CMD_OP, .wo, true, true, false, true, false, 0, 0⟩,
      ⟨Fd.FLT_FENCE_CMD_INDEX, .rw, true, true, false, true, false, 0, 0⟩]
  | .FLT_FENCED_PORT => [⟨Fd.FLT_FENCED_PORT_MAP, .ro, false, false, false, false, true, 0, 252⟩]
  | .FLT_FENCED_UNIT => [⟨Fd.FLT_FENCED_UNIT_MAP, .ro, false, false, false, false, true, 0, 252⟩]
  | .FLT_FENCED_STAIR => [⟨Fd.FLT_FENCED_STAIR_MAP, .ro, false, false, false, false, true, 0, 252⟩]
  | .FLT_EVT_CNT => [⟨Fd.FLT_EVT_CNT_COUNT, .rc, false, false, false, false, false, 0, 112⟩]
  | .FLT_HIST_STATUS => [⟨Fd.FLT_HIST_STATUS_BOOT, .ro, false, false, false, false, false, 0, 254⟩,
      ⟨Fd.FLT_HIST_STATUS_COUNT, .ro, false, false, false, false, true, 0, 254⟩,
      ⟨Fd.FLT_HIST_STATUS_NEWEST, .ro, false, false, false, false, false, 0, 254⟩,
      ⟨Fd.FLT_HIST_STATUS_OVERWRITTEN, .ro, false, false, false, false, false, 0, 254⟩]
  | .FLT_HIST_CLEAR => [⟨Fd.FLT_HIST_CLEAR_CLEAR, .wo, true, true, false, true, false, 0, 0⟩]
  | .FLT_HIST => [⟨Fd.FLT_HIST_WORD, .ro, false, false, false, false, true, 0, 254⟩]
  | .FLT_TEMP => [⟨Fd.FLT_TEMP_TEMP, .ro, false, false, false, false, false, 0, 0⟩]
  | .FLT_THERM_CTRL => [⟨Fd.FLT_THERM_CTRL_CRIT_C, .rw, true, false, true, true, false, 125, 112⟩,
      ⟨Fd.FLT_THERM_CTRL_WARN_C, .rw, true, false, true, true, false, 118, 112⟩]
  | .FLT_VMON => [⟨Fd.FLT_VMON_MV, .ro, false, false, false, false, false, 0, 0⟩]
  | .FLT_FI_CMD => [⟨Fd.FLT_FI_CMD_STATUS, .ro, false, false, false, false, false, 0, 0⟩,
      ⟨Fd.FLT_FI_CMD_OP, .wo, true, true, false, true, false, 0, 0⟩,
      ⟨Fd.FLT_FI_CMD_TARGET, .rw, true, true, false, true, false, 0, 0⟩,
      ⟨Fd.FLT_FI_CMD_FAULT, .rw, true, true, false, true, false, 0, 0⟩,
      ⟨Fd.FLT_FI_CMD_INDEX, .rw, true, true, false, true, false, 0, 0⟩]
  | .TIM_CTRL => [⟨Fd.TIM_CTRL_KI_SHIFT, .rw, false, false, false, false, false, 4, 252⟩,
      ⟨Fd.TIM_CTRL_KP_SHIFT, .rw, false, false, false, false, false, 1, 252⟩,
      ⟨Fd.TIM_CTRL_PPS_QUAL, .rw, true, false, false, false, false, 0, 252⟩,
      ⟨Fd.TIM_CTRL_TC_IPV4, .rw, false, false, false, false, false, 1, 252⟩,
      ⟨Fd.TIM_CTRL_TC_MODE, .rw, false, false, false, false, false, 0, 252⟩,
      ⟨Fd.TIM_CTRL_SERVO_SRC, .rw, false, false, false, false, false, 0, 252⟩]
  | .TIM_STATUS => [⟨Fd.TIM_STATUS_EPOCH, .ro, false, false, false, false, false, 0, 252⟩,
      ⟨Fd.TIM_STATUS_CLK10M_LOST, .rc, false, false, false, false, false, 0, 252⟩,
      ⟨Fd.TIM_STATUS_RANGE_CLAMP, .rc, false, false, false, false, false, 0, 252⟩,
      ⟨Fd.TIM_STATUS_SLEW_CLAMP, .rc, false, false, false, false, false, 0, 252⟩,
      ⟨Fd.TIM_STATUS_JUMP, .rc, false, false, false, false, false, 0, 252⟩,
      ⟨Fd.TIM_STATUS_STBY_HOLD, .ro, false, false, false, false, false, 0, 252⟩,
      ⟨Fd.TIM_STATUS_STEP_USED, .ro, false, false, false, false, false, 0, 252⟩,
      ⟨Fd.TIM_STATUS_SERVO_STATE, .ro, false, false, false, false, false, 0, 252⟩]
  | .TIM_TIME_NS => [⟨Fd.TIM_TIME_NS_NS, .ro, false, false, false, false, true, 0, 252⟩]
  | .TIM_TIME_SEC_LO => [⟨Fd.TIM_TIME_SEC_LO_SEC, .ro, false, false, false, false, true, 0, 252⟩]
  | .TIM_TIME_SEC_HI => [⟨Fd.TIM_TIME_SEC_HI_SEC, .ro, false, false, false, false, true, 0, 252⟩,
      ⟨Fd.TIM_TIME_SEC_HI_FRAC, .ro, false, false, false, false, true, 0, 252⟩]
  | .TIM_RATE_LO => [⟨Fd.TIM_RATE_LO_RATE, .rw, true, false, false, false, true, 0, 252⟩]
  | .TIM_RATE_HI => [⟨Fd.TIM_RATE_HI_RATE, .rw, true, false, false, false, true, 0, 252⟩]
  | .TIM_SLEW => [⟨Fd.TIM_SLEW_PPB, .rw, true, false, false, false, false, 10000, 252⟩]
  | .TIM_CMD => [⟨Fd.TIM_CMD_STATUS, .ro, false, false, false, false, false, 0, 0⟩,
      ⟨Fd.TIM_CMD_OP, .wo, true, false, false, false, false, 0, 0⟩]
  | .TIM_STEP_SEC_LO => [⟨Fd.TIM_STEP_SEC_LO_SEC, .rw, true, false, false, false, false, 0, 252⟩]
  | .TIM_STEP_SEC_HI => [⟨Fd.TIM_STEP_SEC_HI_SIGN, .rw, true, false, false, false, false, 0, 252⟩,
      ⟨Fd.TIM_STEP_SEC_HI_SEC, .rw, true, false, false, false, false, 0, 252⟩]
  | .TIM_STEP_NS => [⟨Fd.TIM_STEP_NS_NS, .rw, true, false, false, false, false, 0, 252⟩]
  | .TIM_OFFSET => [⟨Fd.TIM_OFFSET_OFFSET, .rw, true, false, false, false, false, 0, 252⟩]
  | .TIM_JUMP_THRESH => [⟨Fd.TIM_JUMP_THRESH_NS, .rw, true, false, false, false, false, 1000000, 252⟩]
  | .TIM_JUMP_CTRL => [⟨Fd.TIM_JUMP_CTRL_RECOVER_N, .rw, true, false, false, false, false, 4, 252⟩]
  | .TIM_RESTEP_CNT => [⟨Fd.TIM_RESTEP_CNT_COUNT, .ro, false, false, false, false, false, 0, 252⟩]
  | .TIM_TC_DOM => [⟨Fd.TIM_TC_DOM_MAP, .rw, false, false, false, false, false, 4294967295, 252⟩]
  | .TIM_CYC_CTRL => [⟨Fd.TIM_CYC_CTRL_SLEW_MHZ, .rw, true, false, false, false, false, 5, 252⟩,
      ⟨Fd.TIM_CYC_CTRL_BW, .rw, false, false, false, false, false, 1, 252⟩,
      ⟨Fd.TIM_CYC_CTRL_PULL, .rw, false, false, false, false, false, 1, 252⟩,
      ⟨Fd.TIM_CYC_CTRL_SPC, .rw, false, false, false, false, false, 0, 252⟩,
      ⟨Fd.TIM_CYC_CTRL_RAIL, .rw, false, false, false, false, false, 0, 252⟩,
      ⟨Fd.TIM_CYC_CTRL_MODE, .rw, false, false, false, false, false, 0, 252⟩]
  | .TIM_CYC_STATUS => [⟨Fd.TIM_CYC_STATUS_FREQ_CLAMP, .rc, false, false, false, false, false, 0, 252⟩,
      ⟨Fd.TIM_CYC_STATUS_UNLOCK, .rc, false, false, false, false, false, 0, 252⟩,
      ⟨Fd.TIM_CYC_STATUS_ANCHORED, .ro, false, false, false, false, false, 0, 252⟩,
      ⟨Fd.TIM_CYC_STATUS_STATE, .ro, false, false, false, false, false, 0, 252⟩]
  | .TIM_CYC_ANGLE => [⟨Fd.TIM_CYC_ANGLE_ANGLE, .ro, false, false, false, false, true, 0, 252⟩]
  | .TIM_CYC_COUNT => [⟨Fd.TIM_CYC_COUNT_COUNT, .ro, false, false, false, false, true, 0, 252⟩]
  | .TIM_CYC_FREQ => [⟨Fd.TIM_CYC_FREQ_UHZ, .rw, true, false, false, false, false, 50000000, 252⟩]
  | .TIM_CYC_NOM_FREQ => [⟨Fd.TIM_CYC_NOM_FREQ_UHZ, .rw, false, false, false, false, false, 50000000, 252⟩]
  | .TIM_CYC_MEAS_FREQ => [⟨Fd.TIM_CYC_MEAS_FREQ_UHZ, .ro, false, false, false, false, true, 0, 252⟩]
  | .TIM_CYC_LT_NS => [⟨Fd.TIM_CYC_LT_NS_NS, .ro, false, false, false, false, true, 0, 252⟩]
  | .TIM_CYC_REF_PHASE => [⟨Fd.TIM_CYC_REF_PHASE_CU, .rw, false, false, false, false, false, 0, 252⟩]
  | .TIM_CYC_SV_STREAM => [⟨Fd.TIM_CYC_SV_STREAM_STREAM, .rw, false, false, false, false, false, 0, 252⟩]
  | .TIM_CYC_SV_DELAY => [⟨Fd.TIM_CYC_SV_DELAY_NS, .rw, false, false, false, false, false, 0, 252⟩]
  | .TIM_PPS_CTRL => [⟨Fd.TIM_PPS_CTRL_ENABLE, .rw, false, false, false, false, false, 1, 252⟩,
      ⟨Fd.TIM_PPS_CTRL_WIDTH_MS, .rw, false, false, false, false, false, 100, 252⟩,
      ⟨Fd.TIM_PPS_CTRL_OFFSET_NS, .rw, false, false, false, false, false, 0, 252⟩]
  | .TIM_CAP_CTRL => [⟨Fd.TIM_CAP_CTRL_ENABLE, .rw, true, false, false, false, false, 0, 252⟩,
      ⟨Fd.TIM_CAP_CTRL_EDGE, .rw, true, false, false, false, false, 1, 252⟩,
      ⟨Fd.TIM_CAP_CTRL_FILTER_NS, .rw, true, false, false, false, false, 4, 252⟩]
  | .TIM_CAP_STATUS => [⟨Fd.TIM_CAP_STATUS_OVF, .rc, false, false, false, false, false, 0, 252⟩,
      ⟨Fd.TIM_CAP_STATUS_LEVEL, .ro, false, false, false, false, true, 0, 252⟩]
  | .TIM_CAP_W => [⟨Fd.TIM_CAP_W_WORD, .ro, false, false, false, false, true, 0, 252⟩]
  | .TIM_PORT_CTRL => [⟨Fd.TIM_PORT_CTRL_TS_FWD, .rw, true, false, false, false, false, 0, 252⟩,
      ⟨Fd.TIM_PORT_CTRL_TC_EN, .rw, true, false, false, false, false, 1, 252⟩]
  | .TIM_PORT_LAT => [⟨Fd.TIM_PORT_LAT_TX_ADJ, .rw, false, false, false, false, false, 0, 252⟩,
      ⟨Fd.TIM_PORT_LAT_RX_ADJ, .rw, false, false, false, false, false, 0, 252⟩]
  | .TIM_PORT_LINK_DELAY => [⟨Fd.TIM_PORT_LINK_DELAY_NS, .rw, true, false, false, false, false, 0, 252⟩]
  | .TIM_TSQ_STATUS => [⟨Fd.TIM_TSQ_STATUS_LOST, .rc, false, false, false, false, false, 0, 112⟩,
      ⟨Fd.TIM_TSQ_STATUS_LOST_CNT, .rc, false, false, false, false, false, 0, 112⟩,
      ⟨Fd.TIM_TSQ_STATUS_LEVEL, .ro, false, false, false, false, true, 0, 0⟩]
  | .TIM_TSQ_W => [⟨Fd.TIM_TSQ_W_WORD, .ro, false, false, false, false, true, 0, 0⟩]
  | .TIM_EVT_CTRL => [⟨Fd.TIM_EVT_CTRL_ENABLE, .rw, true, false, false, false, false, 0, 252⟩,
      ⟨Fd.TIM_EVT_CTRL_BASE, .rw, false, false, false, false, false, 0, 252⟩,
      ⟨Fd.TIM_EVT_CTRL_PERIODIC, .rw, false, false, false, false, false, 0, 252⟩,
      ⟨Fd.TIM_EVT_CTRL_ACTION, .rw, false, false, false, false, false, 0, 252⟩,
      ⟨Fd.TIM_EVT_CTRL_TOUT, .rw, false, false, false, false, false, 0, 252⟩,
      ⟨Fd.TIM_EVT_CTRL_IRQ, .rw, false, false, false, false, false, 0, 252⟩]
  | .TIM_EVT_T_LO => [⟨Fd.TIM_EVT_T_LO_T, .rw, false, false, false, false, false, 0, 252⟩]
  | .TIM_EVT_T_MID => [⟨Fd.TIM_EVT_T_MID_T, .rw, false, false, false, false, false, 0, 252⟩]
  | .TIM_EVT_T_HI => [⟨Fd.TIM_EVT_T_HI_T, .rw, false, false, false, false, false, 0, 252⟩]
  | .TIM_EVT_PERIOD => [⟨Fd.TIM_EVT_PERIOD_PERIOD, .rw, false, false, false, false, false, 0, 252⟩]
  | .TIM_EVT_WIDTH => [⟨Fd.TIM_EVT_WIDTH_WIDTH, .rw, false, false, false, false, false, 0, 252⟩]
  | .TIM_EVT_STATUS => [⟨Fd.TIM_EVT_STATUS_FIRED, .rc, false, false, false, false, false, 0, 252⟩,
      ⟨Fd.TIM_EVT_STATUS_LATE, .rc, false, false, false, false, false, 0, 252⟩,
      ⟨Fd.TIM_EVT_STATUS_COLLIDE, .rc, false, false, false, false, false, 0, 252⟩,
      ⟨Fd.TIM_EVT_STATUS_FIRE_CNT, .rc, false, false, false, false, false, 0, 252⟩]
  | .PRT_LINK_CFG => [⟨Fd.PRT_LINK_CFG_AN_EN, .rw, false, false, false, false, false, 1, 112⟩,
      ⟨Fd.PRT_LINK_CFG_FEC, .rw, false, false, false, false, false, 2, 112⟩,
      ⟨Fd.PRT_LINK_CFG_RATE, .rw, false, false, false, false, false, 4, 112⟩]
  | .PRT_LINK_CMD => [⟨Fd.PRT_LINK_CMD_STATUS, .ro, false, false, false, false, false, 0, 0⟩,
      ⟨Fd.PRT_LINK_CMD_OP, .wo, true, false, false, false, false, 0, 0⟩]
  | .PRT_LINK_STATUS => [⟨Fd.PRT_LINK_STATUS_AN_NO_FD, .ro, false, false, false, false, false, 0, 0⟩,
      ⟨Fd.PRT_LINK_STATUS_LINK_LOST, .rc, false, false, false, false, false, 0, 32⟩,
      ⟨Fd.PRT_LINK_STATUS_RX_SIGNAL, .ro, false, false, false, false, false, 0, 0⟩,
      ⟨Fd.PRT_LINK_STATUS_STATE, .ro, false, false, false, false, false, 0, 0⟩]
  | .PRT_MAC_CTRL => [⟨Fd.PRT_MAC_CTRL_GRP_FILTER, .rw, false, false, false, false, false, 0, 112⟩,
      ⟨Fd.PRT_MAC_CTRL_BCAST_EN, .rw, false, false, false, false, false, 1, 112⟩,
      ⟨Fd.PRT_MAC_CTRL_CUT_THRU, .rw, false, false, false, false, false, 0, 112⟩,
      ⟨Fd.PRT_MAC_CTRL_MAX_LEN, .rw, false, false, false, false, false, 2048, 112⟩]
  | .PRT_HASH => [⟨Fd.PRT_HASH_BINS, .rw, true, false, false, false, false, 0, 112⟩]
  | .PRT_VEST_STATUS => [⟨Fd.PRT_VEST_STATUS_PEAK, .rc, false, false, false, false, false, 0, 32⟩,
      ⟨Fd.PRT_VEST_STATUS_LEVEL, .ro, false, false, false, false, true, 0, 0⟩]
  | .PRT_VEST_DROP => [⟨Fd.PRT_VEST_DROP_OVF, .rc, false, false, false, false, false, 0, 32⟩,
      ⟨Fd.PRT_VEST_DROP_COUNT, .rc, false, false, false, false, false, 0, 32⟩]
  | .PRT_PMAC_CTRL => [⟨Fd.PRT_PMAC_CTRL_VERIFY_LIMIT, .rw, false, false, false, false, false, 3, 112⟩,
      ⟨Fd.PRT_PMAC_CTRL_VERIFY_MS, .rw, false, false, false, false, false, 10, 112⟩,
      ⟨Fd.PRT_PMAC_CTRL_EXPRESS_MASK, .rw, false, false, false, false, false, 224, 112⟩,
      ⟨Fd.PRT_PMAC_CTRL_ADD_FRAG, .rw, false, false, false, false, false, 0, 112⟩,
      ⟨Fd.PRT_PMAC_CTRL_VERIFY_DIS, .rw, false, false, false, false, false, 0, 112⟩,
      ⟨Fd.PRT_PMAC_CTRL_EN, .rw, false, false, false, false, false, 0, 112⟩]
  | .PRT_PMAC_STATUS => [⟨Fd.PRT_PMAC_STATUS_ACTIVE, .ro, false, false, false, false, true, 0, 0⟩,
      ⟨Fd.PRT_PMAC_STATUS_VERIFY_STATE, .ro, false, false, false, false, true, 0, 0⟩]
  | .PRT_ERR_BUDGET => [⟨Fd.PRT_ERR_BUDGET_LIMIT, .rw, true, false, false, false, false, 1000, 112⟩,
      ⟨Fd.PRT_ERR_BUDGET_WINDOW_MS, .rw, true, false, false, false, false, 0, 112⟩,
      ⟨Fd.PRT_ERR_BUDGET_EVENTS, .rw, true, false, false, false, false, 61, 112⟩]
  | .PRT_ERR_REACT => [⟨Fd.PRT_ERR_REACT_IRQ, .rw, true, false, false, false, false, 1, 112⟩,
      ⟨Fd.PRT_ERR_REACT_EXCEEDED, .rc, false, false, false, false, false, 0, 32⟩,
      ⟨Fd.PRT_ERR_REACT_REACTION, .rw, true, false, false, false, false, 0, 112⟩]
  | .PRT_PARSE_CTRL => [⟨Fd.PRT_PARSE_CTRL_TRAILER, .ro, false, false, false, false, false, 0, 0⟩,
      ⟨Fd.PRT_PARSE_CTRL_UNK_STREAM, .rw, true, false, false, false, false, 0, 112⟩,
      ⟨Fd.PRT_PARSE_CTRL_FAIL_ACT, .rw, true, false, false, false, false, 0, 112⟩,
      ⟨Fd.PRT_PARSE_CTRL_FAIL_TC, .rw, true, false, false, false, false, 0, 112⟩,
      ⟨Fd.PRT_PARSE_CTRL_DEF_TC, .rw, true, false, false, false, false, 1, 112⟩]
  | .PRT_PCP_MAP => [⟨Fd.PRT_PCP_MAP_CLASS7, .rw, true, false, false, false, false, 7, 112⟩,
      ⟨Fd.PRT_PCP_MAP_CLASS6, .rw, true, false, false, false, false, 6, 112⟩,
      ⟨Fd.PRT_PCP_MAP_CLASS5, .rw, true, false, false, false, false, 5, 112⟩,
      ⟨Fd.PRT_PCP_MAP_CLASS4, .rw, true, false, false, false, false, 4, 112⟩,
      ⟨Fd.PRT_PCP_MAP_CLASS3, .rw, true, false, false, false, false, 3, 112⟩,
      ⟨Fd.PRT_PCP_MAP_CLASS2, .rw, true, false, false, false, false, 2, 112⟩,
      ⟨Fd.PRT_PCP_MAP_CLASS1, .rw, true, false, false, false, false, 1, 112⟩,
      ⟨Fd.PRT_PCP_MAP_CLASS0, .rw, true, false, false, false, false, 0, 112⟩]
  | .PRT_LEARN_CTRL => [⟨Fd.PRT_LEARN_CTRL_LIMIT, .rw, true, false, false, false, false, 65535, 112⟩,
      ⟨Fd.PRT_LEARN_CTRL_STATIC_DROP, .rw, true, false, false, false, false, 0, 112⟩,
      ⟨Fd.PRT_LEARN_CTRL_EXCESS, .rw, true, false, false, false, false, 0, 112⟩,
      ⟨Fd.PRT_LEARN_CTRL_MODE, .rw, true, false, false, false, false, 1, 112⟩]
  | .PRT_LEARN_STATUS => [⟨Fd.PRT_LEARN_STATUS_AT_LIMIT, .ro, false, false, false, false, true, 0, 0⟩,
      ⟨Fd.PRT_LEARN_STATUS_COUNT, .ro, false, false, false, false, true, 0, 0⟩]
  | .PRT_RX_CNT => [⟨Fd.PRT_RX_CNT_COUNT, .rc, false, false, false, false, false, 0, 32⟩]
  | .PRT_DISC => [⟨Fd.PRT_DISC_COUNT, .rc, false, false, false, false, false, 0, 32⟩]
  | .PRT_MACSEC_CTRL => [⟨Fd.PRT_MACSEC_CTRL_REPLAY_PROTECT, .rw, false, false, false, false, false, 1, 48⟩,
      ⟨Fd.PRT_MACSEC_CTRL_USE_ES, .rw, false, false, false, false, false, 0, 48⟩,
      ⟨Fd.PRT_MACSEC_CTRL_INCLUDE_SCI, .rw, false, false, false, false, false, 1, 48⟩,
      ⟨Fd.PRT_MACSEC_CTRL_VALIDATE, .rw, false, false, false, false, false, 2, 48⟩,
      ⟨Fd.PRT_MACSEC_CTRL_CONF_OFFSET, .rw, false, false, false, false, false, 0, 48⟩,
      ⟨Fd.PRT_MACSEC_CTRL_CIPHER, .rw, false, false, false, false, false, 0, 48⟩,
      ⟨Fd.PRT_MACSEC_CTRL_PROTECT, .rw, false, false, false, false, false, 0, 48⟩,
      ⟨Fd.PRT_MACSEC_CTRL_ENABLE, .rw, false, false, false, false, false, 0, 48⟩]
  | .PRT_MACSEC_REPLAY_WINDOW => [⟨Fd.PRT_MACSEC_REPLAY_WINDOW_WINDOW, .rw, false, false, false, false, false, 0, 48⟩]
  | .PRT_MACSEC_TX_PN_THRESH => [⟨Fd.PRT_MACSEC_TX_PN_THRESH_THRESH, .rw, true, false, false, false, true, 0, 48⟩]
  | .PRT_MACSEC_TX_SCI => [⟨Fd.PRT_MACSEC_TX_SCI_SCI, .rw, false, false, false, false, false, 0, 48⟩]
  | .PRT_MACSEC_TX_SA_SEL => [⟨Fd.PRT_MACSEC_TX_SA_SEL_PN_EXHAUSTED, .rc, false, false, false, false, false, 0, 48⟩,
      ⟨Fd.PRT_MACSEC_TX_SA_SEL_PN_THRESH, .rc, false, false, false, false, false, 0, 48⟩,
      ⟨Fd.PRT_MACSEC_TX_SA_SEL_ENC_SA, .rw, true, false, false, false, false, 0, 48⟩]
  | .PRT_MACSEC_TX_SA_CTRL => [⟨Fd.PRT_MACSEC_TX_SA_CTRL_KEY_LOADED, .ro, false, false, false, false, false, 0, 48⟩,
      ⟨Fd.PRT_MACSEC_TX_SA_CTRL_AN, .rw, false, false, false, false, false, 0, 48⟩,
      ⟨Fd.PRT_MACSEC_TX_SA_CTRL_VALID, .rw, true, false, false, false, false, 0, 48⟩]
  | .PRT_MACSEC_TX_SA_NEXT_PN => [⟨Fd.PRT_MACSEC_TX_SA_NEXT_PN_PN, .rw, false, false, false, false, true, 0, 48⟩]
  | .PRT_MACSEC_TX_SA_SSCI => [⟨Fd.PRT_MACSEC_TX_SA_SSCI_SSCI, .rw, false, false, false, false, false, 0, 48⟩]
  | .PRT_MACSEC_TX_SA_SALT => [⟨Fd.PRT_MACSEC_TX_SA_SALT_SALT, .rw, false, false, false, false, false, 0, 48⟩]
  | .PRT_MACSEC_RX_SC_CTRL => [⟨Fd.PRT_MACSEC_RX_SC_CTRL_VALID, .rw, true, false, false, false, false, 0, 48⟩]
  | .PRT_MACSEC_RX_SC_SCI => [⟨Fd.PRT_MACSEC_RX_SC_SCI_SCI, .rw, false, false, false, false, false, 0, 48⟩]
  | .PRT_MACSEC_RX_SA_CTRL => [⟨Fd.PRT_MACSEC_RX_SA_CTRL_KEY_LOADED, .ro, false, false, false, false, false, 0, 48⟩,
      ⟨Fd.PRT_MACSEC_RX_SA_CTRL_AN, .rw, false, false, false, false, false, 0, 48⟩,
      ⟨Fd.PRT_MACSEC_RX_SA_CTRL_VALID, .rw, true, false, false, false, false, 0, 48⟩]
  | .PRT_MACSEC_RX_SA_NEXT_PN_LO => [⟨Fd.PRT_MACSEC_RX_SA_NEXT_PN_LO_PN, .ro, false, false, false, false, false, 0, 48⟩]
  | .PRT_MACSEC_RX_SA_NEXT_PN_HI => [⟨Fd.PRT_MACSEC_RX_SA_NEXT_PN_HI_PN, .ro, false, false, false, false, false, 0, 48⟩]
  | .PRT_MACSEC_RX_SA_LOWEST_PN_LO => [⟨Fd.PRT_MACSEC_RX_SA_LOWEST_PN_LO_PN, .rw, false, false, false, false, true, 0, 48⟩]
  | .PRT_MACSEC_RX_SA_LOWEST_PN_HI => [⟨Fd.PRT_MACSEC_RX_SA_LOWEST_PN_HI_PN, .rw, false, false, false, false, true, 0, 48⟩]
  | .PRT_MACSEC_RX_SA_SSCI => [⟨Fd.PRT_MACSEC_RX_SA_SSCI_SSCI, .rw, false, false, false, false, false, 0, 48⟩]
  | .PRT_MACSEC_RX_SA_SALT0 => [⟨Fd.PRT_MACSEC_RX_SA_SALT0_SALT, .rw, false, false, false, false, false, 0, 48⟩]
  | .PRT_MACSEC_RX_SA_SALT1 => [⟨Fd.PRT_MACSEC_RX_SA_SALT1_SALT, .rw, false, false, false, false, false, 0, 48⟩]
  | .PRT_MACSEC_RX_SA_SALT2 => [⟨Fd.PRT_MACSEC_RX_SA_SALT2_SALT, .rw, false, false, false, false, false, 0, 48⟩]
  | .OPT_SRC_STATUS => [⟨Fd.OPT_SRC_STATUS_BIAS_PCT, .ro, false, false, false, false, false, 0, 0⟩,
      ⟨Fd.OPT_SRC_STATUS_STATE, .ro, false, false, false, false, false, 0, 255⟩]
  | .OPT_SPARE_MAP => [⟨Fd.OPT_SPARE_MAP_SPARES_LEFT, .ro, false, false, true, false, false, 2, 126⟩,
      ⟨Fd.OPT_SPARE_MAP_SLOT3, .ro, false, false, true, false, false, 3, 126⟩,
      ⟨Fd.OPT_SPARE_MAP_SLOT2, .ro, false, false, true, false, false, 2, 126⟩,
      ⟨Fd.OPT_SPARE_MAP_SLOT1, .ro, false, false, true, false, false, 1, 126⟩,
      ⟨Fd.OPT_SPARE_MAP_SLOT0, .ro, false, false, true, false, false, 0, 126⟩]
  | .OPT_SPARE_CTRL => [⟨Fd.OPT_SPARE_CTRL_RELOCK_US, .rw, true, false, false, false, false, 500, 112⟩,
      ⟨Fd.OPT_SPARE_CTRL_BIAS_LIMIT, .rw, true, false, false, false, false, 150, 112⟩,
      ⟨Fd.OPT_SPARE_CTRL_AUTO, .rw, true, false, false, false, false, 1, 112⟩]
  | .OPT_SPARE_CMD => [⟨Fd.OPT_SPARE_CMD_STATUS, .ro, false, false, false, false, false, 0, 0⟩,
      ⟨Fd.OPT_SPARE_CMD_SLOT, .rw, true, true, false, false, false, 0, 0⟩,
      ⟨Fd.OPT_SPARE_CMD_OP, .wo, true, true, false, false, false, 0, 0⟩]
  | .OPT_LANE_STATUS => [⟨Fd.OPT_LANE_STATUS_RX_POWER, .ro, false, false, false, false, true, 0, 0⟩,
      ⟨Fd.OPT_LANE_STATUS_MOD_ON, .ro, false, false, false, false, false, 0, 0⟩,
      ⟨Fd.OPT_LANE_STATUS_FEC_LOCK, .ro, false, false, false, false, false, 0, 0⟩,
      ⟨Fd.OPT_LANE_STATUS_AM_LOCK, .ro, false, false, false, false, false, 0, 0⟩,
      ⟨Fd.OPT_LANE_STATUS_BLOCK_LOCK, .ro, false, false, false, false, false, 0, 0⟩,
      ⟨Fd.OPT_LANE_STATUS_CDR_LOCK, .ro, false, false, false, false, false, 0, 0⟩,
      ⟨Fd.OPT_LANE_STATUS_RX_SIGNAL, .ro, false, false, false, false, true, 0, 0⟩]
  | .OPT_INTLK => [⟨Fd.OPT_INTLK_OPEN_CNT, .rc, false, false, false, false, false, 0, 32⟩,
      ⟨Fd.OPT_INTLK_LATCH, .rc, false, false, false, false, false, 0, 32⟩,
      ⟨Fd.OPT_INTLK_OPEN, .ro, false, false, false, false, true, 0, 0⟩]
  | .PIP_PARSE_CFG => [⟨Fd.PIP_PARSE_CFG_MAX_VISITS, .rw, false, false, false, false, false, 32, 80⟩]
  | .PIP_LOST_ON_FENCE => [⟨Fd.PIP_LOST_ON_FENCE_COUNT, .rc, false, false, false, false, false, 0, 112⟩]
  | .PIP_PARSE_EXC => [⟨Fd.PIP_PARSE_EXC_COUNT, .rc, false, false, false, false, false, 0, 16⟩]
  | .PIP_TCAM_STAGE => [⟨Fd.PIP_TCAM_STAGE_DATA, .rw, true, false, false, false, false, 0, 80⟩]
  | .PIP_TCAM_CMD => [⟨Fd.PIP_TCAM_CMD_STATUS, .ro, false, false, false, false, false, 0, 0⟩,
      ⟨Fd.PIP_TCAM_CMD_LAYOUT, .rw, true, false, false, false, false, 0, 0⟩,
      ⟨Fd.PIP_TCAM_CMD_OWNER, .rw, true, false, false, false, false, 0, 0⟩,
      ⟨Fd.PIP_TCAM_CMD_OP, .wo, true, false, false, false, false, 0, 0⟩,
      ⟨Fd.PIP_TCAM_CMD_ROW, .rw, true, false, false, false, false, 0, 0⟩]
  | .PIP_HASH => [⟨Fd.PIP_HASH_SEL, .rw, false, false, false, false, false, 0, 80⟩]
  | .PIP_EVC_CFG => [⟨Fd.PIP_EVC_CFG_EN, .rw, true, false, false, false, false, 0, 80⟩,
      ⟨Fd.PIP_EVC_CFG_MODE, .rw, true, false, false, false, false, 0, 80⟩,
      ⟨Fd.PIP_EVC_CFG_EVENT, .rw, true, false, false, false, false, 0, 80⟩]
  | .PIP_EVC_SAMPLE => [⟨Fd.PIP_EVC_SAMPLE_SAMPLE_N, .rw, true, false, false, false, false, 0, 80⟩]
  | .PIP_EVC_COUNT_LO => [⟨Fd.PIP_EVC_COUNT_LO_COUNT, .ro, false, false, false, false, true, 0, 80⟩]
  | .PIP_EVC_COUNT_HI => [⟨Fd.PIP_EVC_COUNT_HI_OVF, .rc, false, false, false, false, false, 0, 80⟩,
      ⟨Fd.PIP_EVC_COUNT_HI_COUNT, .ro, false, false, false, false, true, 0, 80⟩]
  | .PIP_EVC_CTRL => [⟨Fd.PIP_EVC_CTRL_CLEAR, .wo, true, false, false, false, false, 0, 80⟩,
      ⟨Fd.PIP_EVC_CTRL_FREEZE, .rw, true, false, false, false, false, 0, 80⟩]
  | .PIP_SLOT_LO => [⟨Fd.PIP_SLOT_LO_COUNT, .ro, false, false, false, false, true, 0, 80⟩]
  | .PIP_SLOT_HI => [⟨Fd.PIP_SLOT_HI_OVF, .rc, false, false, false, false, false, 0, 80⟩,
      ⟨Fd.PIP_SLOT_HI_COUNT, .ro, false, false, false, false, true, 0, 80⟩]
  | .PIP_EREC_STATUS => [⟨Fd.PIP_EREC_STATUS_LOST, .rc, false, false, false, false, false, 0, 80⟩,
      ⟨Fd.PIP_EREC_STATUS_LOST_CNT, .rc, false, false, false, false, false, 0, 80⟩,
      ⟨Fd.PIP_EREC_STATUS_LEVEL, .ro, false, false, false, false, true, 0, 80⟩]
  | .PIP_EREC_W => [⟨Fd.PIP_EREC_W_WORD, .ro, false, false, false, false, true, 0, 80⟩]
  | .TBL_FDB_CTRL => [⟨Fd.TBL_FDB_CTRL_LIMIT_MEMBERS, .rw, true, false, false, false, false, 4, 112⟩,
      ⟨Fd.TBL_FDB_CTRL_NOTIFY, .rw, true, false, false, false, false, 0, 112⟩,
      ⟨Fd.TBL_FDB_CTRL_SVL, .rw, false, false, false, false, false, 0, 112⟩,
      ⟨Fd.TBL_FDB_CTRL_LEARN_EN, .rw, true, false, false, false, false, 1, 112⟩]
  | .TBL_AGE_CTRL => [⟨Fd.TBL_AGE_CTRL_ENABLE, .rw, true, false, false, false, false, 1, 112⟩,
      ⟨Fd.TBL_AGE_CTRL_AGE_S, .rw, true, false, false, false, false, 300, 112⟩]
  | .TBL_FDB_STATUS => [⟨Fd.TBL_FDB_STATUS_PASS_ACTIVE, .ro, false, false, false, false, true, 0, 0⟩,
      ⟨Fd.TBL_FDB_STATUS_COUNT, .ro, false, false, false, false, true, 0, 0⟩]
  | .TBL_FDB_EVT => [⟨Fd.TBL_FDB_EVT_COUNT, .rc, false, false, false, false, false, 0, 112⟩]
  | .TBL_SID_PROF => [⟨Fd.TBL_SID_PROF_EN2, .rw, false, false, false, false, false, 0, 112⟩,
      ⟨Fd.TBL_SID_PROF_M2, .rw, false, false, false, false, false, 0, 112⟩,
      ⟨Fd.TBL_SID_PROF_EN1, .rw, false, false, false, false, false, 0, 112⟩,
      ⟨Fd.TBL_SID_PROF_M1, .rw, false, false, false, false, false, 0, 112⟩,
      ⟨Fd.TBL_SID_PROF_EN0, .rw, false, false, false, false, false, 0, 112⟩,
      ⟨Fd.TBL_SID_PROF_M0, .rw, false, false, false, false, false, 0, 112⟩]
  | .TBL_HASH_SEED => [⟨Fd.TBL_HASH_SEED_SEED, .rw, false, false, false, false, false, 4294967295, 112⟩]
  | .TBL_CMD => [⟨Fd.TBL_CMD_STATUS, .ro, false, false, false, false, false, 0, 0⟩,
      ⟨Fd.TBL_CMD_HALL, .ro, false, false, false, false, true, 0, 0⟩,
      ⟨Fd.TBL_CMD_TABLE, .rw, true, false, false, false, false, 0, 0⟩,
      ⟨Fd.TBL_CMD_OP, .wo, true, false, false, false, false, 0, 0⟩]
  | .TBL_CMD_IDX => [⟨Fd.TBL_CMD_IDX_INDEX, .rw, true, false, false, false, false, 0, 0⟩]
  | .TBL_CMD_ARG => [⟨Fd.TBL_CMD_ARG_BY_INDEX, .rw, true, false, false, false, false, 0, 0⟩,
      ⟨Fd.TBL_CMD_ARG_STATIC, .rw, true, false, false, false, false, 0, 0⟩,
      ⟨Fd.TBL_CMD_ARG_HALL, .rw, true, false, false, false, false, 0, 0⟩,
      ⟨Fd.TBL_CMD_ARG_PORT, .rw, true, false, false, false, false, 0, 0⟩]
  | .TBL_KEY => [⟨Fd.TBL_KEY_KEY, .rw, true, false, false, false, false, 0, 0⟩]
  | .TBL_DATA => [⟨Fd.TBL_DATA_DATA, .rw, true, false, false, false, false, 0, 0⟩]
  | .TBL_RES => [⟨Fd.TBL_RES_RES, .ro, false, false, false, false, false, 0, 0⟩]
  | .TBL_RES_INFO => [⟨Fd.TBL_RES_INFO_RESULT_VALID, .ro, false, false, false, false, false, 0, 0⟩,
      ⟨Fd.TBL_RES_INFO_REPLACED, .ro, false, false, false, false, false, 0, 0⟩,
      ⟨Fd.TBL_RES_INFO_INDEX_OR_COUNT, .ro, false, false, false, false, false, 0, 0⟩]
  | .TBL_CMD_LOG => [⟨Fd.TBL_CMD_LOG_STATUS, .ro, false, false, false, false, false, 0, 0⟩,
      ⟨Fd.TBL_CMD_LOG_HALL, .ro, false, false, false, false, false, 0, 0⟩,
      ⟨Fd.TBL_CMD_LOG_OP, .ro, false, false, false, false, false, 0, 0⟩,
      ⟨Fd.TBL_CMD_LOG_GEN, .ro, false, false, false, false, false, 0, 0⟩]
  | .TBL_STALE_CNT => [⟨Fd.TBL_STALE_CNT_COUNT, .rc, false, false, false, false, false, 0, 112⟩]
  | .TBL_LRN_REC => [⟨Fd.TBL_LRN_REC_WORD, .ro, false, false, false, false, true, 0, 0⟩]
  | .TBL_SGATE_CTRL => [⟨Fd.TBL_SGATE_CTRL_ENABLE, .rw, true, false, false, true, false, 0, 112⟩,
      ⟨Fd.TBL_SGATE_CTRL_BASE, .rw, true, false, false, true, false, 0, 112⟩,
      ⟨Fd.TBL_SGATE_CTRL_CLOSE_INV_RX, .rw, true, false, false, true, false, 0, 112⟩,
      ⟨Fd.TBL_SGATE_CTRL_CLOSE_INV_OCT, .rw, true, false, false, true, false, 0, 112⟩,
      ⟨Fd.TBL_SGATE_CTRL_LIST_BASE, .rw, true, false, false, true, false, 0, 112⟩,
      ⟨Fd.TBL_SGATE_CTRL_LIST_LEN, .rw, true, false, false, true, false, 0, 112⟩]
  | .TBL_SGATE_CYCLE => [⟨Fd.TBL_SGATE_CYCLE_CYCLE, .rw, true, false, false, true, false, 0, 112⟩]
  | .TBL_SGATE_BASE_NS => [⟨Fd.TBL_SGATE_BASE_NS_NS, .rw, true, false, false, true, false, 0, 112⟩]
  | .TBL_SGATE_BASE_SEC_LO => [⟨Fd.TBL_SGATE_BASE_SEC_LO_SEC, .rw, true, false, false, true, false, 0, 112⟩]
  | .TBL_SGATE_BASE_SEC_HI => [⟨Fd.TBL_SGATE_BASE_SEC_HI_SEC, .rw, true, false, false, true, false, 0, 112⟩]
  | .TBL_SGATE_STATUS => [⟨Fd.TBL_SGATE_STATUS_CLOSED_INV, .ro, false, false, false, true, false, 0, 112⟩,
      ⟨Fd.TBL_SGATE_STATUS_OPEN, .ro, false, false, false, true, false, 0, 112⟩,
      ⟨Fd.TBL_SGATE_STATUS_CUR_ENTRY, .ro, false, false, false, true, false, 0, 112⟩]
  | .TBL_SGATE_REOPEN => [⟨Fd.TBL_SGATE_REOPEN_REOPEN, .wo, true, false, false, true, false, 0, 112⟩]
  | .TBL_SGLIST_W0 => [⟨Fd.TBL_SGLIST_W0_OPEN, .rw, true, false, false, true, false, 0, 112⟩,
      ⟨Fd.TBL_SGLIST_W0_IPV_EN, .rw, true, false, false, true, false, 0, 112⟩,
      ⟨Fd.TBL_SGLIST_W0_IPV, .rw, true, false, false, true, false, 0, 112⟩,
      ⟨Fd.TBL_SGLIST_W0_OCTET_MAX, .rw, true, false, false, true, false, 0, 112⟩]
  | .TBL_SGLIST_W1 => [⟨Fd.TBL_SGLIST_W1_INTERVAL, .rw, true, false, false, true, false, 0, 112⟩]
  | .TBL_VLAN_W0 => [⟨Fd.TBL_VLAN_W0_VALID, .rw, true, false, false, true, false, 0, 112⟩,
      ⟨Fd.TBL_VLAN_W0_LEARN_DIS, .rw, true, false, false, true, false, 0, 112⟩,
      ⟨Fd.TBL_VLAN_W0_UUC_GRP, .rw, true, false, false, true, false, 0, 112⟩]
  | .TBL_VLAN_W1 => [⟨Fd.TBL_VLAN_W1_UMC_GRP, .rw, true, false, false, true, false, 0, 112⟩,
      ⟨Fd.TBL_VLAN_W1_BC_GRP, .rw, true, false, false, true, false, 0, 112⟩]
  | .TBL_HASHIND => [⟨Fd.TBL_HASHIND_VALID, .rw, true, false, false, false, false, 0, 112⟩,
      ⟨Fd.TBL_HASHIND_KIND, .rw, true, false, false, false, false, 0, 112⟩,
      ⟨Fd.TBL_HASHIND_TARGET, .rw, true, false, false, false, false, 0, 112⟩]
  | .ATR_ADM_CTRL => [⟨Fd.ATR_ADM_CTRL_HR_CLASSES, .rw, true, false, false, false, false, 192, 112⟩,
      ⟨Fd.ATR_ADM_CTRL_HEADROOM, .rw, true, false, false, false, false, 24576, 112⟩]
  | .ATR_STATUS => [⟨Fd.ATR_STATUS_RETIRED, .ro, false, false, false, false, true, 0, 252⟩,
      ⟨Fd.ATR_STATUS_FREE, .ro, false, false, false, false, false, 393216, 0⟩]
  | .ATR_CLASS_CFG => [⟨Fd.ATR_CLASS_CFG_ALPHA, .rw, true, false, false, false, false, 0, 112⟩,
      ⟨Fd.ATR_CLASS_CFG_YSHIFT, .rw, true, false, false, false, false, 1, 112⟩,
      ⟨Fd.ATR_CLASS_CFG_QMIN, .rw, true, false, false, false, false, 0, 112⟩]
  | .ATR_CLASS_MAX => [⟨Fd.ATR_CLASS_MAX_MAX, .rw, true, false, false, false, false, 393216, 112⟩]
  | .ATR_CLASS_USE => [⟨Fd.ATR_CLASS_USE_USE, .ro, false, false, false, false, false, 0, 0⟩]
  | .ATR_HALL_USE => [⟨Fd.ATR_HALL_USE_USE, .ro, false, false, false, false, false, 0, 0⟩]
  | .ATR_AGE_CTRL => [⟨Fd.ATR_AGE_CTRL_SWEEP_EN, .rw, true, false, false, false, false, 1, 112⟩,
      ⟨Fd.ATR_AGE_CTRL_SWEEP_US, .rw, true, false, false, false, false, 100, 112⟩,
      ⟨Fd.ATR_AGE_CTRL_TRK_SPC, .rw, true, false, false, false, false, 0, 112⟩,
      ⟨Fd.ATR_AGE_CTRL_GOOSE_BASE, .rw, true, false, false, false, false, 0, 112⟩,
      ⟨Fd.ATR_AGE_CTRL_SV_BASE, .rw, true, false, false, false, false, 0, 112⟩]
  | .ATR_AGE_SV => [⟨Fd.ATR_AGE_SV_VALUE, .rw, true, false, false, false, false, 2000000, 112⟩]
  | .ATR_AGE_GOOSE_CAP => [⟨Fd.ATR_AGE_GOOSE_CAP_VALUE, .rw, true, false, false, false, false, 2000000, 112⟩]
  | .ATR_HEALTH_CTRL => [⟨Fd.ATR_HEALTH_CTRL_LATE_NS, .rw, true, false, false, false, false, 1000000, 112⟩]
  | .ATR_AGE_CLASS => [⟨Fd.ATR_AGE_CLASS_BASE, .rw, true, false, false, false, false, 0, 112⟩,
      ⟨Fd.ATR_AGE_CLASS_VALUE, .rw, true, false, false, false, false, 0, 112⟩]
  | .ATR_AGED => [⟨Fd.ATR_AGED_COUNT, .rc, false, false, false, false, false, 0, 32⟩]
  | .ATR_CNT => [⟨Fd.ATR_CNT_COUNT, .rc, false, false, false, false, false, 0, 32⟩]
  | .ATR_BANK_MAP => [⟨Fd.ATR_BANK_MAP_MAP, .ro, false, false, true, false, false, 0, 252⟩]
  | .ATR_BANK_CMD => [⟨Fd.ATR_BANK_CMD_STATUS, .ro, false, false, false, false, false, 0, 0⟩,
      ⟨Fd.ATR_BANK_CMD_OP, .wo, true, true, false, false, false, 0, 0⟩,
      ⟨Fd.ATR_BANK_CMD_BANK, .rw, true, true, false, false, false, 0, 0⟩]
  | .ATR_RSQ_CTRL => [⟨Fd.ATR_RSQ_CTRL_WINDOW, .rw, true, false, false, false, false, 128, 112⟩,
      ⟨Fd.ATR_RSQ_CTRL_TIMEOUT_US, .rw, true, false, false, false, false, 20, 112⟩]
  | .ATR_RSQ_STATUS => [⟨Fd.ATR_RSQ_STATUS_CONTEXTS, .ro, false, false, false, false, true, 0, 0⟩,
      ⟨Fd.ATR_RSQ_STATUS_HELD, .ro, false, false, false, false, true, 0, 0⟩]
  | .ATR_MIR_CTRL => [⟨Fd.ATR_MIR_CTRL_ENABLE, .rw, true, false, false, true, false, 0, 112⟩,
      ⟨Fd.ATR_MIR_CTRL_TC, .rw, true, false, false, true, false, 0, 112⟩,
      ⟨Fd.ATR_MIR_CTRL_SRC, .rw, true, false, false, true, false, 0, 112⟩,
      ⟨Fd.ATR_MIR_CTRL_HDR, .rw, true, false, false, true, false, 0, 112⟩,
      ⟨Fd.ATR_MIR_CTRL_DEST_KIND, .rw, true, false, false, true, false, 0, 112⟩,
      ⟨Fd.ATR_MIR_CTRL_SNAP, .rw, true, false, false, true, false, 0, 112⟩,
      ⟨Fd.ATR_MIR_CTRL_HALL, .rw, true, false, false, true, false, 0, 112⟩,
      ⟨Fd.ATR_MIR_CTRL_RING, .rw, true, false, false, true, false, 0, 112⟩,
      ⟨Fd.ATR_MIR_CTRL_DEST_PORT, .rw, true, false, false, true, false, 0, 112⟩]
  | .ATR_MIR_SEL => [⟨Fd.ATR_MIR_SEL_RANDOM, .rw, true, false, false, true, false, 0, 112⟩,
      ⟨Fd.ATR_MIR_SEL_N, .rw, true, false, false, true, false, 0, 112⟩]
  | .ATR_MIR_SOURCE => [⟨Fd.ATR_MIR_SOURCE_SRC_PORT, .rw, true, false, false, true, false, 0, 112⟩,
      ⟨Fd.ATR_MIR_SOURCE_SRC_STREAM, .rw, true, false, false, true, false, 0, 112⟩]
  | .ATR_MIR_SAMPLED => [⟨Fd.ATR_MIR_SAMPLED_SAMPLED, .rc, false, false, false, true, false, 0, 112⟩]
  | .ATR_MIR_DROPS => [⟨Fd.ATR_MIR_DROPS_DROPS, .rc, false, false, false, true, false, 0, 112⟩]
  | .ATR_MIR_ENCAP => [⟨Fd.ATR_MIR_ENCAP_DATA, .rw, true, false, false, true, false, 0, 112⟩]
  | .ATR_MIR_SEED => [⟨Fd.ATR_MIR_SEED_SEED, .rw, true, false, false, true, false, 0, 112⟩]
  | .ATR_EVC_CFG => [⟨Fd.ATR_EVC_CFG_EN, .rw, true, false, false, false, false, 0, 80⟩,
      ⟨Fd.ATR_EVC_CFG_MODE, .rw, true, false, false, false, false, 0, 80⟩,
      ⟨Fd.ATR_EVC_CFG_EVENT, .rw, true, false, false, false, false, 0, 80⟩]
  | .ATR_EVC_SAMPLE => [⟨Fd.ATR_EVC_SAMPLE_SAMPLE_N, .rw, true, false, false, false, false, 0, 80⟩]
  | .ATR_EVC_COUNT_LO => [⟨Fd.ATR_EVC_COUNT_LO_COUNT, .ro, false, false, false, false, true, 0, 80⟩]
  | .ATR_EVC_COUNT_HI => [⟨Fd.ATR_EVC_COUNT_HI_OVF, .rc, false, false, false, false, false, 0, 80⟩,
      ⟨Fd.ATR_EVC_COUNT_HI_COUNT, .ro, false, false, false, false, true, 0, 80⟩]
  | .ATR_EVC_CTRL => [⟨Fd.ATR_EVC_CTRL_CLEAR, .wo, true, false, false, false, false, 0, 80⟩,
      ⟨Fd.ATR_EVC_CTRL_FREEZE, .rw, true, false, false, false, false, 0, 80⟩]
  | .SCH_Q_CFG => [⟨Fd.SCH_Q_CFG_BAY, .rw, false, false, false, false, false, 0, 96⟩,
      ⟨Fd.SCH_Q_CFG_WEIGHT, .rw, true, false, false, false, false, 0, 96⟩,
      ⟨Fd.SCH_Q_CFG_MAX_LEN, .rw, true, false, false, false, false, 2048, 96⟩]
  | .SCH_Q_DEPTH => [⟨Fd.SCH_Q_DEPTH_CELLS, .ro, false, false, false, false, true, 0, 0⟩]
  | .SCH_Q_FRAMES => [⟨Fd.SCH_Q_FRAMES_COPIES, .ro, false, false, false, false, true, 0, 0⟩]
  | .SCH_BAY_CFG => [⟨Fd.SCH_BAY_CFG_SHAPE_EN, .rw, true, false, false, false, false, 0, 96⟩,
      ⟨Fd.SCH_BAY_CFG_SVC, .rw, false, false, false, false, false, 0, 96⟩,
      ⟨Fd.SCH_BAY_CFG_WEIGHT, .rw, true, false, false, false, false, 0, 96⟩]
  | .SCH_BAY_RATE => [⟨Fd.SCH_BAY_RATE_RATE_KBPS, .rw, true, false, false, false, false, 0, 96⟩]
  | .SCH_BAY_HI => [⟨Fd.SCH_BAY_HI_HI_CREDIT, .rw, true, false, false, false, false, 16384, 96⟩]
  | .SCH_BAY_CREDIT => [⟨Fd.SCH_BAY_CREDIT_CREDIT, .ro, false, false, false, false, true, 0, 0⟩]
  | .SCH_SVC_CFG => [⟨Fd.SCH_SVC_CFG_SHAPE_EN, .rw, true, false, false, false, false, 0, 96⟩,
      ⟨Fd.SCH_SVC_CFG_WEIGHT, .rw, true, false, false, false, false, 0, 96⟩]
  | .SCH_SVC_RATE => [⟨Fd.SCH_SVC_RATE_RATE_KBPS, .rw, true, false, false, false, false, 0, 96⟩]
  | .SCH_SVC_HI => [⟨Fd.SCH_SVC_HI_HI_CREDIT, .rw, true, false, false, false, false, 16384, 96⟩]
  | .SCH_SVC_CREDIT => [⟨Fd.SCH_SVC_CREDIT_CREDIT, .ro, false, false, false, false, true, 0, 0⟩]
  | .SCH_PORT_CFG => [⟨Fd.SCH_PORT_CFG_SHAPE_EN, .rw, true, false, false, false, false, 0, 96⟩,
      ⟨Fd.SCH_PORT_CFG_DEI_MARK, .rw, true, false, false, false, false, 0, 96⟩]
  | .SCH_PORT_RATE => [⟨Fd.SCH_PORT_RATE_RATE_KBPS, .rw, true, false, false, false, false, 0, 96⟩]
  | .SCH_PORT_HI => [⟨Fd.SCH_PORT_HI_HI_CREDIT, .rw, true, false, false, false, false, 16384, 96⟩]
  | .SCH_PORT_CREDIT => [⟨Fd.SCH_PORT_CREDIT_CREDIT, .ro, false, false, false, false, true, 0, 0⟩]
  | .SCH_CLASS_MAP => [⟨Fd.SCH_CLASS_MAP_Q3, .rw, true, false, false, false, false, 0, 96⟩,
      ⟨Fd.SCH_CLASS_MAP_Q2, .rw, true, false, false, false, false, 0, 96⟩,
      ⟨Fd.SCH_CLASS_MAP_Q1, .rw, true, false, false, false, false, 0, 96⟩,
      ⟨Fd.SCH_CLASS_MAP_Q0, .rw, true, false, false, false, false, 0, 96⟩]
  | .SCH_GCL_CTRL => [⟨Fd.SCH_GCL_CTRL_ENABLE, .rw, false, false, false, false, false, 0, 96⟩,
      ⟨Fd.SCH_GCL_CTRL_BASE, .rw, false, false, false, false, false, 0, 96⟩,
      ⟨Fd.SCH_GCL_CTRL_LEN, .rw, false, false, false, false, false, 1, 96⟩,
      ⟨Fd.SCH_GCL_CTRL_START, .rw, false, false, false, false, false, 0, 96⟩]
  | .SCH_GCL_CYCLE => [⟨Fd.SCH_GCL_CYCLE_CYCLE, .rw, false, false, false, false, false, 1000000, 96⟩]
  | .SCH_GCL_BASE_NS => [⟨Fd.SCH_GCL_BASE_NS_NS, .rw, false, false, false, false, false, 0, 96⟩]
  | .SCH_GCL_BASE_SEC_LO => [⟨Fd.SCH_GCL_BASE_SEC_LO_SEC, .rw, false, false, false, false, false, 0, 96⟩]
  | .SCH_GCL_BASE_SEC_HI => [⟨Fd.SCH_GCL_BASE_SEC_HI_SEC, .rw, false, false, false, false, false, 0, 96⟩]
  | .SCH_GCL_HOLD => [⟨Fd.SCH_GCL_HOLD_HOLD_ADV_NS, .rw, true, false, false, false, false, 0, 96⟩]
  | .SCH_GCL_PEND_CTRL => [⟨Fd.SCH_GCL_PEND_CTRL_BASE, .rw, true, false, false, false, false, 0, 96⟩,
      ⟨Fd.SCH_GCL_PEND_CTRL_LEN, .rw, true, false, false, false, false, 0, 96⟩,
      ⟨Fd.SCH_GCL_PEND_CTRL_START, .rw, true, false, false, false, false, 0, 96⟩]
  | .SCH_GCL_PEND_CYCLE => [⟨Fd.SCH_GCL_PEND_CYCLE_CYCLE, .rw, true, false, false, false, false, 0, 96⟩]
  | .SCH_GCL_PEND_BASE_NS => [⟨Fd.SCH_GCL_PEND_BASE_NS_NS, .rw, true, false, false, false, false, 0, 96⟩]
  | .SCH_GCL_PEND_BASE_SEC_LO => [⟨Fd.SCH_GCL_PEND_BASE_SEC_LO_SEC, .rw, true, false, false, false, false, 0, 96⟩]
  | .SCH_GCL_PEND_BASE_SEC_HI => [⟨Fd.SCH_GCL_PEND_BASE_SEC_HI_SEC, .rw, true, false, false, false, false, 0, 96⟩]
  | .SCH_GCL_CMD => [⟨Fd.SCH_GCL_CMD_STATUS, .ro, false, false, false, false, false, 0, 0⟩,
      ⟨Fd.SCH_GCL_CMD_OP, .wo, true, false, false, false, false, 0, 0⟩]
  | .SCH_GCL_STATUS => [⟨Fd.SCH_GCL_STATUS_STATE, .ro, false, false, false, false, false, 0, 0⟩,
      ⟨Fd.SCH_GCL_STATUS_HOLD, .ro, false, false, false, false, false, 0, 0⟩,
      ⟨Fd.SCH_GCL_STATUS_CUR_ENTRY, .ro, false, false, false, false, false, 0, 0⟩,
      ⟨Fd.SCH_GCL_STATUS_CYCLES, .ro, false, false, false, false, false, 0, 0⟩]
  | .SCH_GCL_ERR => [⟨Fd.SCH_GCL_ERR_ACTIVE_WRITE, .rc, false, false, false, false, false, 0, 32⟩,
      ⟨Fd.SCH_GCL_ERR_NEVER_FITS, .rc, false, false, false, false, false, 0, 32⟩]
  | .SCH_GCL_W0 => [⟨Fd.SCH_GCL_W0_OP, .rw, true, false, false, false, false, 0, 96⟩,
      ⟨Fd.SCH_GCL_W0_GATES, .rw, true, false, false, false, false, 0, 96⟩]
  | .SCH_GCL_W1 => [⟨Fd.SCH_GCL_W1_INTERVAL, .rw, true, false, false, false, false, 0, 96⟩]
  | .SCH_FLUSH_CMD => [⟨Fd.SCH_FLUSH_CMD_STATUS, .ro, false, false, false, false, false, 0, 0⟩,
      ⟨Fd.SCH_FLUSH_CMD_OP, .wo, true, false, false, false, false, 0, 0⟩,
      ⟨Fd.SCH_FLUSH_CMD_PORT, .rw, true, false, false, false, false, 0, 0⟩,
      ⟨Fd.SCH_FLUSH_CMD_INDEX, .rw, true, false, false, false, false, 0, 0⟩]
  | .SCH_FLUSH_RES => [⟨Fd.SCH_FLUSH_RES_COPIES, .ro, false, false, false, false, false, 0, 96⟩]
  | .RED_DUP_CTRL => [⟨Fd.RED_DUP_CTRL_SWEEP_EN, .rw, true, false, false, false, false, 1, 112⟩,
      ⟨Fd.RED_DUP_CTRL_SRC_LOG2, .rw, false, false, false, false, false, 16, 112⟩,
      ⟨Fd.RED_DUP_CTRL_GEN_AGE_S, .rw, true, false, false, false, false, 60, 112⟩,
      ⟨Fd.RED_DUP_CTRL_FORGET_MS, .rw, true, false, false, false, false, 400, 112⟩]
  | .RED_ROLE_CMD => [⟨Fd.RED_ROLE_CMD_STATUS, .ro, false, false, false, false, false, 0, 0⟩,
      ⟨Fd.RED_ROLE_CMD_OP, .wo, true, false, false, false, false, 0, 0⟩,
      ⟨Fd.RED_ROLE_CMD_PAIR, .rw, true, false, false, false, false, 0, 0⟩]
  | .RED_CB_CTRL => [⟨Fd.RED_CB_CTRL_RTAG_HDR_ID, .rw, false, false, false, false, false, 0, 112⟩,
      ⟨Fd.RED_CB_CTRL_RTAG_PV, .rw, false, false, false, false, false, 0, 112⟩]
  | .RED_PAIR_CFG => [⟨Fd.RED_PAIR_CFG_ACTIVE, .ro, false, false, false, false, false, 0, 112⟩,
      ⟨Fd.RED_PAIR_CFG_PORT_B, .rw, false, false, false, false, false, 0, 112⟩,
      ⟨Fd.RED_PAIR_CFG_PORT_A, .rw, false, false, false, false, false, 0, 112⟩,
      ⟨Fd.RED_PAIR_CFG_NET_ID, .rw, false, false, false, false, false, 0, 112⟩,
      ⟨Fd.RED_PAIR_CFG_PASS_SEQ, .rw, false, false, false, false, false, 0, 112⟩,
      ⟨Fd.RED_PAIR_CFG_HSR_MODE, .rw, false, false, false, false, false, 0, 112⟩,
      ⟨Fd.RED_PAIR_CFG_SUP_TRAP, .rw, false, false, false, false, false, 1, 112⟩,
      ⟨Fd.RED_PAIR_CFG_PROXY_SUP, .rw, false, false, false, false, false, 0, 112⟩,
      ⟨Fd.RED_PAIR_CFG_QUAD_EN, .rw, false, false, false, false, false, 0, 112⟩,
      ⟨Fd.RED_PAIR_CFG_QUAD_PEER, .rw, false, false, false, false, false, 0, 112⟩,
      ⟨Fd.RED_PAIR_CFG_ROLE, .rw, false, false, false, false, false, 0, 112⟩]
  | .RED_PAIR_MAC_HI => [⟨Fd.RED_PAIR_MAC_HI_MAC, .rw, false, false, false, false, false, 0, 112⟩]
  | .RED_PAIR_MAC_LO => [⟨Fd.RED_PAIR_MAC_LO_MAC, .rw, false, false, false, false, false, 0, 112⟩]
  | .RED_PAIR_SUP => [⟨Fd.RED_PAIR_SUP_SUP_EN, .rw, false, false, false, false, false, 1, 112⟩,
      ⟨Fd.RED_PAIR_SUP_TC, .rw, false, false, false, false, false, 4, 112⟩,
      ⟨Fd.RED_PAIR_SUP_DA_LSB, .rw, false, false, false, false, false, 0, 112⟩,
      ⟨Fd.RED_PAIR_SUP_LIFE_MS, .rw, false, false, false, false, false, 2000, 112⟩]
  | .RED_PAIR_FALLBACK => [⟨Fd.RED_PAIR_FALLBACK_SEQ, .ro, false, false, false, false, false, 0, 112⟩]
  | .RED_PAIR_CNT => [⟨Fd.RED_PAIR_CNT_COUNT, .rc, false, false, false, false, false, 0, 32⟩]
  | .GAL_CTRL => [⟨Fd.GAL_CTRL_ENABLE, .rw, false, false, false, false, false, 0, 112⟩,
      ⟨Fd.GAL_CTRL_AUTO_REELECT, .rw, true, false, false, false, false, 0, 112⟩,
      ⟨Fd.GAL_CTRL_MAX_HOPS, .rw, true, false, false, false, false, 15, 112⟩,
      ⟨Fd.GAL_CTRL_PRIORITY, .rw, false, false, false, false, false, 128, 112⟩,
      ⟨Fd.GAL_CTRL_CTRL_TC, .rw, true, false, false, false, false, 5, 112⟩,
      ⟨Fd.GAL_CTRL_DEPTH, .rw, false, false, false, false, false, 1, 112⟩]
  | .GAL_ETYPE => [⟨Fd.GAL_ETYPE_ETHERTYPE, .rw, false, false, false, false, false, 34997, 112⟩]
  | .GAL_ADDR_REQ => [⟨Fd.GAL_ADDR_REQ_L1_AUTO, .rw, false, false, false, false, false, 0, 112⟩,
      ⟨Fd.GAL_ADDR_REQ_ADDR, .rw, false, false, false, false, false, 0, 112⟩]
  | .GAL_STATUS => [⟨Fd.GAL_STATUS_STATE, .ro, false, false, false, false, false, 0, 0⟩,
      ⟨Fd.GAL_STATUS_ROLE, .ro, false, false, false, false, false, 0, 0⟩,
      ⟨Fd.GAL_STATUS_MEMBERS, .ro, false, false, false, false, false, 1, 0⟩,
      ⟨Fd.GAL_STATUS_ADDR, .ro, false, false, false, false, false, 0, 0⟩]
  | .GAL_EPOCH => [⟨Fd.GAL_EPOCH_NUMBER, .ro, false, false, false, false, false, 0, 0⟩]
  | .GAL_TIMERS => [⟨Fd.GAL_TIMERS_HELLO_LOSS, .rw, true, false, false, false, false, 3, 112⟩,
      ⟨Fd.GAL_TIMERS_SETTLE_MS, .rw, true, false, false, false, false, 20, 112⟩,
      ⟨Fd.GAL_TIMERS_ACK_MS, .rw, true, false, false, false, false, 20, 112⟩,
      ⟨Fd.GAL_TIMERS_APPLY_MS, .rw, true, false, false, false, false, 1, 112⟩]
  | .GAL_SPRAY_CTRL => [⟨Fd.GAL_SPRAY_CTRL_ENABLE, .rw, true, false, false, false, false, 0, 112⟩,
      ⟨Fd.GAL_SPRAY_CTRL_WARM_US, .rw, true, false, false, false, false, 20, 112⟩,
      ⟨Fd.GAL_SPRAY_CTRL_CLASS_MASK, .rw, true, false, false, false, false, 14, 112⟩]
  | .GAL_CMD => [⟨Fd.GAL_CMD_STATUS, .ro, false, false, false, false, false, 0, 0⟩,
      ⟨Fd.GAL_CMD_OP, .wo, true, false, false, false, false, 0, 0⟩]
  | .GAL_KEEPER_ID => [⟨Fd.GAL_KEEPER_ID_ID, .ro, false, false, false, false, true, 0, 0⟩]
  | .GAL_STANDBY_ID => [⟨Fd.GAL_STANDBY_ID_ID, .ro, false, false, false, false, true, 0, 0⟩]
  | .GAL_LINK_CFG => [⟨Fd.GAL_LINK_CFG_VALID, .rw, true, false, false, false, false, 0, 112⟩,
      ⟨Fd.GAL_LINK_CFG_ADMIT_MODE, .rw, true, false, false, false, false, 0, 112⟩,
      ⟨Fd.GAL_LINK_CFG_ADMIT, .wo, true, false, false, false, false, 0, 0⟩,
      ⟨Fd.GAL_LINK_CFG_PORT, .rw, true, false, false, false, false, 0, 112⟩]
  | .GAL_LINK_STATUS => [⟨Fd.GAL_LINK_STATUS_STATE, .ro, false, false, false, false, false, 0, 0⟩,
      ⟨Fd.GAL_LINK_STATUS_NBR_PORT, .ro, false, false, false, false, false, 0, 0⟩]
  | .GAL_LINK_NBR_ID => [⟨Fd.GAL_LINK_NBR_ID_ID, .ro, false, false, false, false, true, 0, 0⟩]
  | .GAL_LINK_LOST_CNT => [⟨Fd.GAL_LINK_LOST_CNT_COUNT, .rc, false, false, false, false, false, 0, 32⟩]
  | .GAL_CNT => [⟨Fd.GAL_CNT_COUNT, .rc, false, false, false, false, false, 0, 32⟩]
  | .SEC_LC_CMD => [⟨Fd.SEC_LC_CMD_STATUS, .ro, false, false, false, true, false, 0, 0⟩,
      ⟨Fd.SEC_LC_CMD_OP, .wo, true, true, false, true, false, 0, 0⟩]
  | .SEC_FUSE_CMD => [⟨Fd.SEC_FUSE_CMD_STATUS, .ro, false, false, false, true, false, 0, 0⟩,
      ⟨Fd.SEC_FUSE_CMD_ROW, .rw, true, true, false, true, false, 0, 0⟩,
      ⟨Fd.SEC_FUSE_CMD_OP, .wo, true, true, false, true, false, 0, 0⟩]
  | .SEC_FUSE_DATA => [⟨Fd.SEC_FUSE_DATA_DATA, .rw, true, false, false, true, false, 0, 0⟩]
  | .SEC_FUSE_ROW => [⟨Fd.SEC_FUSE_ROW_ROW, .ro, false, false, false, true, true, 0, 255⟩]
  | .SEC_CAL_ROW => [⟨Fd.SEC_CAL_ROW_ROW, .ro, false, false, false, true, true, 0, 255⟩]
  | .SEC_CE_CMD => [⟨Fd.SEC_CE_CMD_STATUS, .ro, false, false, false, true, false, 0, 0⟩,
      ⟨Fd.SEC_CE_CMD_TRNG_WAIT, .ro, false, false, false, true, false, 0, 0⟩,
      ⟨Fd.SEC_CE_CMD_KEY_SEL, .rw, true, false, false, true, false, 0, 0⟩,
      ⟨Fd.SEC_CE_CMD_CURVE, .rw, true, false, false, true, false, 0, 0⟩,
      ⟨Fd.SEC_CE_CMD_OP, .wo, true, false, false, true, false, 0, 0⟩]
  | .SEC_CE_OP => [⟨Fd.SEC_CE_OP_OPW, .rw, true, false, false, true, false, 0, 0⟩]
  | .SEC_CE_RES => [⟨Fd.SEC_CE_RES_RES, .ro, false, false, false, true, false, 0, 0⟩]
  | .SEC_CE_RES_INFO => [⟨Fd.SEC_CE_RES_INFO_RESULT_VALID, .ro, false, false, false, true, false, 0, 0⟩,
      ⟨Fd.SEC_CE_RES_INFO_LEN, .ro, false, false, false, true, false, 0, 0⟩]
  | .SEC_KE_CMD => [⟨Fd.SEC_KE_CMD_STATUS, .ro, false, false, false, true, false, 0, 0⟩,
      ⟨Fd.SEC_KE_CMD_TRNG_WAIT, .ro, false, false, false, true, false, 0, 0⟩,
      ⟨Fd.SEC_KE_CMD_OP, .wo, true, false, false, true, false, 0, 0⟩]
  | .SEC_KE_TARGET => [⟨Fd.SEC_KE_TARGET_KLEN, .rw, true, false, false, true, false, 0, 0⟩,
      ⟨Fd.SEC_KE_TARGET_DIR, .rw, true, false, false, true, false, 0, 0⟩,
      ⟨Fd.SEC_KE_TARGET_PORT, .rw, true, false, false, true, false, 0, 0⟩,
      ⟨Fd.SEC_KE_TARGET_SC, .rw, true, false, false, true, false, 0, 0⟩,
      ⟨Fd.SEC_KE_TARGET_SA, .rw, true, false, false, true, false, 0, 0⟩]
  | .SEC_KE_KEY => [⟨Fd.SEC_KE_KEY_KEY, .wo, true, false, false, true, false, 0, 0⟩]
  | .SEC_KE_BLOB => [⟨Fd.SEC_KE_BLOB_BLOB, .rw, true, false, false, true, false, 0, 0⟩]
  | .SEC_KE_OUT => [⟨Fd.SEC_KE_OUT_OUT, .ro, false, false, false, true, false, 0, 0⟩]
  | .SEC_KE_RES_INFO => [⟨Fd.SEC_KE_RES_INFO_RESULT_VALID, .ro, false, false, false, true, false, 0, 0⟩]
  | .SEC_RNG_STATUS => [⟨Fd.SEC_RNG_STATUS_FAIL_CNT, .rc, false, false, false, true, false, 0, 112⟩,
      ⟨Fd.SEC_RNG_STATUS_FAIL_RUN, .ro, false, false, false, true, false, 0, 112⟩,
      ⟨Fd.SEC_RNG_STATUS_STATE, .ro, false, false, false, true, false, 1, 112⟩]
  | .SEC_RNG_CMD => [⟨Fd.SEC_RNG_CMD_STATUS, .ro, false, false, false, true, false, 0, 0⟩,
      ⟨Fd.SEC_RNG_CMD_OP, .wo, true, false, false, true, false, 0, 0⟩]
  | .SEC_RNG_CTRL => [⟨Fd.SEC_RNG_CTRL_RESEED_MS, .rw, true, false, false, true, false, 100, 112⟩]
  | .SEC_RNG_OUT => [⟨Fd.SEC_RNG_OUT_OUT, .ro, false, false, false, true, false, 0, 0⟩]
  | .SEC_RNG_INFO => [⟨Fd.SEC_RNG_INFO_RESULT_VALID, .ro, false, false, false, true, false, 0, 0⟩]
  | .SEC_TRUST => [⟨Fd.SEC_TRUST_WORD, .rw, true, false, false, true, false, 0, 112⟩]
  | .SEC_FI_GATE => [⟨Fd.SEC_FI_GATE_OPEN, .ro, false, false, false, true, true, 0, 0⟩]
  | .CNT_OVF_STATUS => [⟨Fd.CNT_OVF_STATUS_POOLS, .rc, false, false, false, false, false, 0, 0⟩]
  | .CNT_SNAP_CMD => [⟨Fd.CNT_SNAP_CMD_STATUS, .ro, false, false, false, false, false, 0, 0⟩,
      ⟨Fd.CNT_SNAP_CMD_GEN, .ro, false, false, false, false, false, 0, 0⟩,
      ⟨Fd.CNT_SNAP_CMD_POOL, .rw, true, false, false, false, false, 0, 0⟩,
      ⟨Fd.CNT_SNAP_CMD_CLEAR, .rw, true, false, false, false, false, 0, 0⟩,
      ⟨Fd.CNT_SNAP_CMD_OP, .wo, true, false, false, false, false, 0, 0⟩]
  | .CNT_SNAP_ADDR_LO => [⟨Fd.CNT_SNAP_ADDR_LO_ADDR, .rw, true, false, false, false, false, 0, 0⟩]
  | .CNT_SNAP_ADDR_HI => [⟨Fd.CNT_SNAP_ADDR_HI_ADDR, .rw, true, false, false, false, false, 0, 0⟩]
  | .CNT_SNAP_LEN => [⟨Fd.CNT_SNAP_LEN_LEN, .rw, true, false, false, false, false, 0, 0⟩]
  | .CNT_SNAP_RES => [⟨Fd.CNT_SNAP_RES_BYTES, .ro, false, false, false, false, false, 0, 0⟩]
  | .CNT_SNAP_LOG => [⟨Fd.CNT_SNAP_LOG_STATUS, .ro, false, false, false, false, false, 0, 0⟩,
      ⟨Fd.CNT_SNAP_LOG_HALL, .ro, false, false, false, false, false, 0, 0⟩,
      ⟨Fd.CNT_SNAP_LOG_GEN, .ro, false, false, false, false, false, 0, 0⟩]
  | .CNT_STALE_CNT => [⟨Fd.CNT_STALE_CNT_COUNT, .rc, false, false, false, false, false, 0, 112⟩]
  | .CNT_WIN_SEL => [⟨Fd.CNT_WIN_SEL_POOL, .rw, true, false, false, false, false, 0, 112⟩,
      ⟨Fd.CNT_WIN_SEL_BASE, .rw, true, false, false, false, false, 0, 112⟩]
  | .CNT_DEV => [⟨Fd.CNT_DEV_COUNT, .rc, false, false, false, false, true, 0, 0⟩]
  | .CNT_WIN => [⟨Fd.CNT_WIN_COUNT, .ro, false, false, false, false, true, 0, 0⟩]
  | .HAL_ID => [⟨Fd.HAL_ID_STATE, .ro, false, false, false, false, false, 0, 112⟩,
      ⟨Fd.HAL_ID_CLASS, .ro, false, false, false, false, true, 0, 112⟩,
      ⟨Fd.HAL_ID_HALL, .ro, false, false, false, false, true, 0, 255⟩]
  | .HAL_GEN => [⟨Fd.HAL_GEN_CURRENT, .ro, false, false, false, false, true, 1, 0⟩,
      ⟨Fd.HAL_GEN_ACK, .rw, true, false, false, false, false, 0, 112⟩,
      ⟨Fd.HAL_GEN_GEN, .ro, false, false, false, false, false, 0, 112⟩]
  | .HAL_APERTURE_SEL => [⟨Fd.HAL_APERTURE_SEL_SEL, .rw, true, false, false, false, false, 0, 112⟩]
  | .HAL_QUOTA => [⟨Fd.HAL_QUOTA_WORD, .ro, false, false, false, false, true, 0, 112⟩]
  | .HAL_USE => [⟨Fd.HAL_USE_WORD, .ro, false, false, false, false, true, 0, 0⟩]
  | .HAL_MBX_OUT => [⟨Fd.HAL_MBX_OUT_DATA, .rw, true, false, false, false, false, 0, 96⟩]
  | .HAL_MBX_IN => [⟨Fd.HAL_MBX_IN_DATA, .rw, true, false, false, true, false, 0, 96⟩]
  | .HAL_MBX_CTRL => [⟨Fd.HAL_MBX_CTRL_STATUS, .ro, false, false, false, false, false, 0, 0⟩,
      ⟨Fd.HAL_MBX_CTRL_OUT_LEN, .rw, true, false, false, false, false, 1, 96⟩,
      ⟨Fd.HAL_MBX_CTRL_IN_LEN, .ro, false, false, false, false, false, 0, 0⟩,
      ⟨Fd.HAL_MBX_CTRL_IN_FULL, .ro, false, false, false, false, false, 0, 0⟩,
      ⟨Fd.HAL_MBX_CTRL_OUT_FULL, .ro, false, false, false, false, false, 0, 0⟩,
      ⟨Fd.HAL_MBX_CTRL_IN_ACK, .wo, true, false, false, false, false, 0, 0⟩,
      ⟨Fd.HAL_MBX_CTRL_SEND, .wo, true, false, false, false, false, 0, 0⟩]
  | .HAL_MBX_MGR => [⟨Fd.HAL_MBX_MGR_GEN, .ro, false, false, false, false, false, 0, 0⟩,
      ⟨Fd.HAL_MBX_MGR_IN_LEN, .rw, true, false, false, true, false, 0, 0⟩,
      ⟨Fd.HAL_MBX_MGR_REPLY, .wo, true, false, false, true, false, 0, 0⟩,
      ⟨Fd.HAL_MBX_MGR_OUT_ACK, .wo, true, false, false, true, false, 0, 0⟩]
  | .HAL_RING_BASE => [⟨Fd.HAL_RING_BASE_ADDR, .rw, false, false, false, false, false, 0, 96⟩]
  | .HAL_RING_CPL => [⟨Fd.HAL_RING_CPL_ADDR, .rw, false, false, false, false, false, 0, 96⟩]
  | .HAL_RING_CTRL => [⟨Fd.HAL_RING_CTRL_EN, .rw, true, false, false, false, false, 0, 96⟩,
      ⟨Fd.HAL_RING_CTRL_IRQ_EN, .rw, true, false, false, false, false, 0, 96⟩,
      ⟨Fd.HAL_RING_CTRL_ENGINE, .ro, false, false, false, false, true, 0, 0⟩,
      ⟨Fd.HAL_RING_CTRL_SIZE_LOG2, .rw, false, false, false, false, false, 6, 96⟩]
  | .HAL_RING_TAIL => [⟨Fd.HAL_RING_TAIL_TAIL, .rw, true, false, false, false, false, 0, 0⟩]
  | .HAL_RING_HEAD => [⟨Fd.HAL_RING_HEAD_HEAD, .ro, false, false, false, false, false, 0, 0⟩]
  | .HAL_RING_CPLT => [⟨Fd.HAL_RING_CPLT_PHASE, .ro, false, false, false, false, false, 1, 0⟩,
      ⟨Fd.HAL_RING_CPLT_CPL_TAIL, .ro, false, false, false, false, false, 0, 0⟩]
  | .HAL_RING_ERR => [⟨Fd.HAL_RING_ERR_ERR, .ro, false, false, false, false, false, 0, 0⟩,
      ⟨Fd.HAL_RING_ERR_HALTED, .ro, false, false, false, false, false, 0, 0⟩]
  | .HAL_RING_IRQ => [⟨Fd.HAL_RING_IRQ_FRAMES, .rw, true, false, false, false, false, 1, 96⟩,
      ⟨Fd.HAL_RING_IRQ_USEC, .rw, true, false, false, false, false, 0, 96⟩]
  | .HAL_RING_TOO_BIG => [⟨Fd.HAL_RING_TOO_BIG_COUNT, .rc, false, false, false, false, false, 0, 96⟩]
  | .HAL_RX_MAP => [⟨Fd.HAL_RX_MAP_MAP, .rw, true, false, false, false, false, 0, 96⟩]
  | .HAL_RX_CFG => [⟨Fd.HAL_RX_CFG_EXC_RING, .rw, true, false, false, false, false, 0, 96⟩]
  | .HAL_DMA_STATUS => [⟨Fd.HAL_DMA_STATUS_STATUS, .ro, false, false, false, false, true, 0, 0⟩]
  | .HAL_DMA_LOG => [⟨Fd.HAL_DMA_LOG_STATUS, .ro, false, false, false, false, false, 0, 0⟩,
      ⟨Fd.HAL_DMA_LOG_HALL, .ro, false, false, false, false, false, 0, 0⟩,
      ⟨Fd.HAL_DMA_LOG_GEN, .ro, false, false, false, false, false, 0, 0⟩]
  | .HAL_DMA_STALE_CNT => [⟨Fd.HAL_DMA_STALE_CNT_COUNT, .rc, false, false, false, false, false, 0, 112⟩]

/-- The address layout of each register. -/
def R.layout (r : R) : Layout :=
  match r with
  | .GLB_ID => ⟨0, 0, 1, 0, 1, 0, 1⟩
  | .GLB_CAP => ⟨4, 0, 1, 0, 1, 0, 1⟩
  | .GLB_UID => ⟨16, 4, 4, 0, 1, 0, 1⟩
  | .GLB_UNLOCK => ⟨32, 0, 1, 0, 1, 0, 1⟩
  | .GLB_ACCESS_ERR => ⟨48, 0, 1, 0, 1, 0, 1⟩
  | .GLB_ACCESS_ERR_ADDR => ⟨52, 0, 1, 0, 1, 0, 1⟩
  | .GLB_ACCESS_ERR_CNT => ⟨56, 0, 1, 0, 1, 0, 1⟩
  | .GLB_DKC_CTRL => ⟨80, 0, 1, 0, 1, 0, 1⟩
  | .GLB_PRIV_MAP => ⟨96, 0, 1, 0, 1, 0, 1⟩
  | .GLB_TV_STATUS => ⟨112, 0, 1, 0, 1, 0, 1⟩
  | .GLB_TV_ADDR => ⟨116, 0, 1, 0, 1, 0, 1⟩
  | .GLB_SB_CTRL => ⟨128, 0, 1, 0, 1, 0, 1⟩
  | .GLB_SB_STATUS => ⟨132, 0, 1, 0, 1, 0, 1⟩
  | .GLB_IMG_CTRL => ⟨512, 0, 1, 0, 1, 0, 1⟩
  | .GLB_IMG_ADDR_LO => ⟨516, 0, 1, 0, 1, 0, 1⟩
  | .GLB_IMG_ADDR_HI => ⟨520, 0, 1, 0, 1, 0, 1⟩
  | .GLB_IMG_LEN => ⟨524, 0, 1, 0, 1, 0, 1⟩
  | .GLB_IMG_ID => ⟨532, 0, 1, 0, 1, 0, 1⟩
  | .GLB_IMG_REV => ⟨536, 0, 1, 0, 1, 0, 1⟩
  | .GLB_QSC_CMD => ⟨768, 0, 1, 0, 1, 0, 1⟩
  | .GLB_QSC_TIMEOUT => ⟨776, 0, 1, 0, 1, 0, 1⟩
  | .GLB_QSC_PORT => ⟨784, 4, 3, 0, 1, 0, 1⟩
  | .GLB_QSC_GATE => ⟨800, 4, 3, 0, 1, 0, 1⟩
  | .GLB_QSC_HALL => ⟨816, 0, 1, 0, 1, 0, 1⟩
  | .GLB_QSC_MISC => ⟨820, 0, 1, 0, 1, 0, 1⟩
  | .GLB_RESET => ⟨1024, 0, 1, 0, 1, 0, 1⟩
  | .GLB_PWR_CTRL => ⟨1280, 0, 1, 0, 1, 0, 1⟩
  | .GLB_STATE_ERR_CNT => ⟨1536, 0, 1, 0, 1, 0, 1⟩
  | .GLB_HALL_CMD => ⟨1792, 0, 1, 0, 1, 0, 1⟩
  | .GLB_HALL_ADDR_LO => ⟨1796, 0, 1, 0, 1, 0, 1⟩
  | .GLB_HALL_ADDR_HI => ⟨1800, 0, 1, 0, 1, 0, 1⟩
  | .GLB_HALL_LEN => ⟨1804, 0, 1, 0, 1, 0, 1⟩
  | .GLB_HALL_RES => ⟨1808, 0, 1, 0, 1, 0, 1⟩
  | .GLB_HALL_DETAIL => ⟨1812, 0, 1, 0, 1, 0, 1⟩
  | .GLB_HALL_REMAP => ⟨2048, 4, 96, 0, 1, 0, 1⟩
  | .GLB_PORT_PIPE => ⟨4096, 4, 96, 0, 1, 0, 1⟩
  | .GLB_PORT_OWN => ⟨4608, 4, 96, 0, 1, 0, 1⟩
  | .GLB_PORT_QOWN => ⟨5120, 8, 96, 4, 2, 0, 1⟩
  | .GLB_QUOTA_W0 => ⟨12288, 64, 32, 0, 1, 0, 1⟩
  | .GLB_QUOTA_W1 => ⟨12292, 64, 32, 0, 1, 0, 1⟩
  | .GLB_QUOTA_W2 => ⟨12296, 64, 32, 0, 1, 0, 1⟩
  | .GLB_QUOTA_W3 => ⟨12300, 64, 32, 0, 1, 0, 1⟩
  | .GLB_QUOTA_W4 => ⟨12304, 64, 32, 0, 1, 0, 1⟩
  | .GLB_QUOTA_W5 => ⟨12308, 64, 32, 0, 1, 0, 1⟩
  | .GLB_QUOTA_W6 => ⟨12312, 64, 32, 0, 1, 0, 1⟩
  | .GLB_QUOTA_W7 => ⟨12316, 64, 32, 0, 1, 0, 1⟩
  | .GLB_QUOTA_W8 => ⟨12320, 64, 32, 0, 1, 0, 1⟩
  | .GLB_QUOTA_W9 => ⟨12324, 64, 32, 0, 1, 0, 1⟩
  | .GLB_QUOTA_W10 => ⟨12328, 64, 32, 0, 1, 0, 1⟩
  | .GLB_VSLICE => ⟨32768, 4, 4096, 0, 1, 0, 1⟩
  | .GLB_HPORT => ⟨65536, 512, 32, 4, 128, 0, 1⟩
  | .FLT_STATUS => ⟨1048576, 0, 1, 0, 1, 0, 1⟩
  | .FLT_COND => ⟨1048580, 0, 1, 0, 1, 0, 1⟩
  | .FLT_CLEAR => ⟨1048584, 0, 1, 0, 1, 0, 1⟩
  | .FLT_MASK => ⟨1048592, 0, 1, 0, 1, 0, 1⟩
  | .FLT_PIN_EN => ⟨1048596, 0, 1, 0, 1, 0, 1⟩
  | .FLT_ALERT_EN => ⟨1048600, 0, 1, 0, 1, 0, 1⟩
  | .FLT_REACT => ⟨1048608, 0, 1, 0, 1, 0, 1⟩
  | .FLT_BANK_POLICY => ⟨1048612, 0, 1, 0, 1, 0, 1⟩
  | .FLT_VOTE_STATUS => ⟨1048624, 0, 1, 0, 1, 0, 1⟩
  | .FLT_FENCE_CMD => ⟨1048640, 0, 1, 0, 1, 0, 1⟩
  | .FLT_FENCED_PORT => ⟨1048656, 4, 3, 0, 1, 0, 1⟩
  | .FLT_FENCED_UNIT => ⟨1048668, 0, 1, 0, 1, 0, 1⟩
  | .FLT_FENCED_STAIR => ⟨1048672, 0, 1, 0, 1, 0, 1⟩
  | .FLT_EVT_CNT => ⟨1048704, 4, 32, 0, 1, 0, 1⟩
  | .FLT_HIST_STATUS => ⟨1048832, 0, 1, 0, 1, 0, 1⟩
  | .FLT_HIST_CLEAR => ⟨1048836, 0, 1, 0, 1, 0, 1⟩
  | .FLT_HIST => ⟨1048848, 16, 16, 4, 4, 0, 1⟩
  | .FLT_TEMP => ⟨1049344, 4, 16, 0, 1, 0, 1⟩
  | .FLT_THERM_CTRL => ⟨1049408, 0, 1, 0, 1, 0, 1⟩
  | .FLT_VMON => ⟨1049440, 4, 6, 0, 1, 0, 1⟩
  | .FLT_FI_CMD => ⟨1050624, 0, 1, 0, 1, 0, 1⟩
  | .TIM_CTRL => ⟨2097152, 0, 1, 0, 1, 0, 1⟩
  | .TIM_STATUS => ⟨2097156, 0, 1, 0, 1, 0, 1⟩
  | .TIM_TIME_NS => ⟨2097168, 0, 1, 0, 1, 0, 1⟩
  | .TIM_TIME_SEC_LO => ⟨2097172, 0, 1, 0, 1, 0, 1⟩
  | .TIM_TIME_SEC_HI => ⟨2097176, 0, 1, 0, 1, 0, 1⟩
  | .TIM_RATE_LO => ⟨2097184, 0, 1, 0, 1, 0, 1⟩
  | .TIM_RATE_HI => ⟨2097188, 0, 1, 0, 1, 0, 1⟩
  | .TIM_SLEW => ⟨2097192, 0, 1, 0, 1, 0, 1⟩
  | .TIM_CMD => ⟨2097200, 0, 1, 0, 1, 0, 1⟩
  | .TIM_STEP_SEC_LO => ⟨2097204, 0, 1, 0, 1, 0, 1⟩
  | .TIM_STEP_SEC_HI => ⟨2097208, 0, 1, 0, 1, 0, 1⟩
  | .TIM_STEP_NS => ⟨2097212, 0, 1, 0, 1, 0, 1⟩
  | .TIM_OFFSET => ⟨2097216, 0, 1, 0, 1, 0, 1⟩
  | .TIM_JUMP_THRESH => ⟨2097224, 0, 1, 0, 1, 0, 1⟩
  | .TIM_JUMP_CTRL => ⟨2097228, 0, 1, 0, 1, 0, 1⟩
  | .TIM_RESTEP_CNT => ⟨2097232, 0, 1, 0, 1, 0, 1⟩
  | .TIM_TC_DOM => ⟨2097248, 4, 8, 0, 1, 0, 1⟩
  | .TIM_CYC_CTRL => ⟨2097408, 0, 1, 0, 1, 0, 1⟩
  | .TIM_CYC_STATUS => ⟨2097412, 0, 1, 0, 1, 0, 1⟩
  | .TIM_CYC_ANGLE => ⟨2097416, 0, 1, 0, 1, 0, 1⟩
  | .TIM_CYC_COUNT => ⟨2097420, 0, 1, 0, 1, 0, 1⟩
  | .TIM_CYC_FREQ => ⟨2097424, 0, 1, 0, 1, 0, 1⟩
  | .TIM_CYC_NOM_FREQ => ⟨2097428, 0, 1, 0, 1, 0, 1⟩
  | .TIM_CYC_MEAS_FREQ => ⟨2097432, 0, 1, 0, 1, 0, 1⟩
  | .TIM_CYC_LT_NS => ⟨2097436, 0, 1, 0, 1, 0, 1⟩
  | .TIM_CYC_REF_PHASE => ⟨2097440, 0, 1, 0, 1, 0, 1⟩
  | .TIM_CYC_SV_STREAM => ⟨2097444, 0, 1, 0, 1, 0, 1⟩
  | .TIM_CYC_SV_DELAY => ⟨2097448, 0, 1, 0, 1, 0, 1⟩
  | .TIM_PPS_CTRL => ⟨2097664, 0, 1, 0, 1, 0, 1⟩
  | .TIM_CAP_CTRL => ⟨2097920, 32, 4, 0, 1, 0, 1⟩
  | .TIM_CAP_STATUS => ⟨2097924, 32, 4, 0, 1, 0, 1⟩
  | .TIM_CAP_W => ⟨2097928, 32, 4, 4, 6, 0, 1⟩
  | .TIM_PORT_CTRL => ⟨2101248, 16, 96, 0, 1, 0, 1⟩
  | .TIM_PORT_LAT => ⟨2101252, 16, 96, 0, 1, 0, 1⟩
  | .TIM_PORT_LINK_DELAY => ⟨2101256, 16, 96, 0, 1, 0, 1⟩
  | .TIM_TSQ_STATUS => ⟨2113536, 32, 96, 0, 1, 0, 1⟩
  | .TIM_TSQ_W => ⟨2113540, 32, 96, 4, 4, 0, 1⟩
  | .TIM_EVT_CTRL => ⟨2129920, 32, 256, 0, 1, 0, 1⟩
  | .TIM_EVT_T_LO => ⟨2129924, 32, 256, 0, 1, 0, 1⟩
  | .TIM_EVT_T_MID => ⟨2129928, 32, 256, 0, 1, 0, 1⟩
  | .TIM_EVT_T_HI => ⟨2129932, 32, 256, 0, 1, 0, 1⟩
  | .TIM_EVT_PERIOD => ⟨2129936, 32, 256, 0, 1, 0, 1⟩
  | .TIM_EVT_WIDTH => ⟨2129940, 32, 256, 0, 1, 0, 1⟩
  | .TIM_EVT_STATUS => ⟨2129944, 32, 256, 0, 1, 0, 1⟩
  | .PRT_LINK_CFG => ⟨4194304, 16384, 96, 0, 1, 0, 1⟩
  | .PRT_LINK_CMD => ⟨4194308, 16384, 96, 0, 1, 0, 1⟩
  | .PRT_LINK_STATUS => ⟨4194312, 16384, 96, 0, 1, 0, 1⟩
  | .PRT_MAC_CTRL => ⟨4194320, 16384, 96, 0, 1, 0, 1⟩
  | .PRT_HASH => ⟨4194336, 16384, 96, 4, 8, 0, 1⟩
  | .PRT_VEST_STATUS => ⟨4194368, 16384, 96, 0, 1, 0, 1⟩
  | .PRT_VEST_DROP => ⟨4194372, 16384, 96, 0, 1, 0, 1⟩
  | .PRT_PMAC_CTRL => ⟨4194384, 16384, 96, 0, 1, 0, 1⟩
  | .PRT_PMAC_STATUS => ⟨4194388, 16384, 96, 0, 1, 0, 1⟩
  | .PRT_ERR_BUDGET => ⟨4194400, 16384, 96, 0, 1, 0, 1⟩
  | .PRT_ERR_REACT => ⟨4194404, 16384, 96, 0, 1, 0, 1⟩
  | .PRT_PARSE_CTRL => ⟨4194416, 16384, 96, 0, 1, 0, 1⟩
  | .PRT_PCP_MAP => ⟨4194420, 16384, 96, 0, 1, 0, 1⟩
  | .PRT_LEARN_CTRL => ⟨4194424, 16384, 96, 0, 1, 0, 1⟩
  | .PRT_LEARN_STATUS => ⟨4194428, 16384, 96, 0, 1, 0, 1⟩
  | .PRT_RX_CNT => ⟨4194560, 16384, 96, 4, 12, 0, 1⟩
  | .PRT_DISC => ⟨4194688, 16384, 96, 4, 8, 0, 1⟩
  | .PRT_MACSEC_CTRL => ⟨4198400, 16384, 96, 0, 1, 0, 1⟩
  | .PRT_MACSEC_REPLAY_WINDOW => ⟨4198404, 16384, 96, 0, 1, 0, 1⟩
  | .PRT_MACSEC_TX_PN_THRESH => ⟨4198408, 16384, 96, 4, 2, 0, 1⟩
  | .PRT_MACSEC_TX_SCI => ⟨4198416, 16384, 96, 4, 2, 0, 1⟩
  | .PRT_MACSEC_TX_SA_SEL => ⟨4198424, 16384, 96, 0, 1, 0, 1⟩
  | .PRT_MACSEC_TX_SA_CTRL => ⟨4198432, 16384, 96, 32, 2, 0, 1⟩
  | .PRT_MACSEC_TX_SA_NEXT_PN => ⟨4198436, 16384, 96, 32, 2, 4, 2⟩
  | .PRT_MACSEC_TX_SA_SSCI => ⟨4198444, 16384, 96, 32, 2, 0, 1⟩
  | .PRT_MACSEC_TX_SA_SALT => ⟨4198448, 16384, 96, 32, 2, 4, 3⟩
  | .PRT_MACSEC_RX_SC_CTRL => ⟨4198656, 16384, 96, 256, 4, 0, 1⟩
  | .PRT_MACSEC_RX_SC_SCI => ⟨4198660, 16384, 96, 256, 4, 4, 2⟩
  | .PRT_MACSEC_RX_SA_CTRL => ⟨4198720, 16384, 96, 256, 4, 64, 2⟩
  | .PRT_MACSEC_RX_SA_NEXT_PN_LO => ⟨4198724, 16384, 96, 256, 4, 64, 2⟩
  | .PRT_MACSEC_RX_SA_NEXT_PN_HI => ⟨4198728, 16384, 96, 256, 4, 64, 2⟩
  | .PRT_MACSEC_RX_SA_LOWEST_PN_LO => ⟨4198732, 16384, 96, 256, 4, 64, 2⟩
  | .PRT_MACSEC_RX_SA_LOWEST_PN_HI => ⟨4198736, 16384, 96, 256, 4, 64, 2⟩
  | .PRT_MACSEC_RX_SA_SSCI => ⟨4198740, 16384, 96, 256, 4, 64, 2⟩
  | .PRT_MACSEC_RX_SA_SALT0 => ⟨4198744, 16384, 96, 256, 4, 64, 2⟩
  | .PRT_MACSEC_RX_SA_SALT1 => ⟨4198748, 16384, 96, 256, 4, 64, 2⟩
  | .PRT_MACSEC_RX_SA_SALT2 => ⟨4198752, 16384, 96, 256, 4, 64, 2⟩
  | .OPT_SRC_STATUS => ⟨6291456, 65536, 8, 16, 6, 0, 1⟩
  | .OPT_SPARE_MAP => ⟨6291712, 65536, 8, 0, 1, 0, 1⟩
  | .OPT_SPARE_CTRL => ⟨6291716, 65536, 8, 0, 1, 0, 1⟩
  | .OPT_SPARE_CMD => ⟨6291720, 65536, 8, 0, 1, 0, 1⟩
  | .OPT_LANE_STATUS => ⟨6295552, 65536, 8, 64, 12, 0, 1⟩
  | .OPT_INTLK => ⟨6815744, 0, 1, 0, 1, 0, 1⟩
  | .PIP_PARSE_CFG => ⟨8388608, 1048576, 4, 0, 1, 0, 1⟩
  | .PIP_LOST_ON_FENCE => ⟨8388624, 1048576, 4, 0, 1, 0, 1⟩
  | .PIP_PARSE_EXC => ⟨8388640, 1048576, 4, 4, 8, 0, 1⟩
  | .PIP_TCAM_STAGE => ⟨8388864, 1048576, 4, 4, 48, 0, 1⟩
  | .PIP_TCAM_CMD => ⟨8389120, 1048576, 4, 0, 1, 0, 1⟩
  | .PIP_HASH => ⟨8389376, 1048576, 4, 32, 16, 4, 5⟩
  | .PIP_EVC_CFG => ⟨8390656, 1048576, 4, 16, 8, 0, 1⟩
  | .PIP_EVC_SAMPLE => ⟨8390660, 1048576, 4, 16, 8, 0, 1⟩
  | .PIP_EVC_COUNT_LO => ⟨8390664, 1048576, 4, 16, 8, 0, 1⟩
  | .PIP_EVC_COUNT_HI => ⟨8390668, 1048576, 4, 16, 8, 0, 1⟩
  | .PIP_EVC_CTRL => ⟨8390784, 1048576, 4, 0, 1, 0, 1⟩
  | .PIP_SLOT_LO => ⟨8390912, 1048576, 4, 8, 5, 0, 1⟩
  | .PIP_SLOT_HI => ⟨8390916, 1048576, 4, 8, 5, 0, 1⟩
  | .PIP_EREC_STATUS => ⟨8391168, 1048576, 4, 0, 1, 0, 1⟩
  | .PIP_EREC_W => ⟨8391172, 1048576, 4, 4, 5, 0, 1⟩
  | .TBL_FDB_CTRL => ⟨12582912, 0, 1, 0, 1, 0, 1⟩
  | .TBL_AGE_CTRL => ⟨12582916, 0, 1, 0, 1, 0, 1⟩
  | .TBL_FDB_STATUS => ⟨12582920, 0, 1, 0, 1, 0, 1⟩
  | .TBL_FDB_EVT => ⟨12582944, 4, 13, 0, 1, 0, 1⟩
  | .TBL_SID_PROF => ⟨12583168, 4, 16, 0, 1, 0, 1⟩
  | .TBL_HASH_SEED => ⟨12583424, 0, 1, 0, 1, 0, 1⟩
  | .TBL_CMD => ⟨12583936, 0, 1, 0, 1, 0, 1⟩
  | .TBL_CMD_IDX => ⟨12583940, 0, 1, 0, 1, 0, 1⟩
  | .TBL_CMD_ARG => ⟨12583944, 0, 1, 0, 1, 0, 1⟩
  | .TBL_KEY => ⟨12584000, 0, 1, 4, 16, 0, 1⟩
  | .TBL_DATA => ⟨12584064, 0, 1, 4, 16, 0, 1⟩
  | .TBL_RES => ⟨12584192, 0, 1, 4, 16, 0, 1⟩
  | .TBL_RES_INFO => ⟨12584256, 0, 1, 0, 1, 0, 1⟩
  | .TBL_CMD_LOG => ⟨12584260, 0, 1, 0, 1, 0, 1⟩
  | .TBL_STALE_CNT => ⟨12584264, 0, 1, 0, 1, 0, 1⟩
  | .TBL_LRN_REC => ⟨12584448, 0, 1, 4, 4, 0, 1⟩
  | .TBL_SGATE_CTRL => ⟨12648448, 32, 256, 0, 1, 0, 1⟩
  | .TBL_SGATE_CYCLE => ⟨12648452, 32, 256, 0, 1, 0, 1⟩
  | .TBL_SGATE_BASE_NS => ⟨12648456, 32, 256, 0, 1, 0, 1⟩
  | .TBL_SGATE_BASE_SEC_LO => ⟨12648460, 32, 256, 0, 1, 0, 1⟩
  | .TBL_SGATE_BASE_SEC_HI => ⟨12648464, 32, 256, 0, 1, 0, 1⟩
  | .TBL_SGATE_STATUS => ⟨12648468, 32, 256, 0, 1, 0, 1⟩
  | .TBL_SGATE_REOPEN => ⟨12648472, 32, 256, 0, 1, 0, 1⟩
  | .TBL_SGLIST_W0 => ⟨12713984, 8, 4096, 0, 1, 0, 1⟩
  | .TBL_SGLIST_W1 => ⟨12713988, 8, 4096, 0, 1, 0, 1⟩
  | .TBL_VLAN_W0 => ⟨12845056, 8, 4096, 0, 1, 0, 1⟩
  | .TBL_VLAN_W1 => ⟨12845060, 8, 4096, 0, 1, 0, 1⟩
  | .TBL_HASHIND => ⟨13107200, 65536, 4, 4, 16384, 0, 1⟩
  | .ATR_ADM_CTRL => ⟨16777216, 0, 1, 0, 1, 0, 1⟩
  | .ATR_STATUS => ⟨16777220, 0, 1, 0, 1, 0, 1⟩
  | .ATR_CLASS_CFG => ⟨16777232, 4, 8, 0, 1, 0, 1⟩
  | .ATR_CLASS_MAX => ⟨16777264, 4, 8, 0, 1, 0, 1⟩
  | .ATR_CLASS_USE => ⟨16777296, 4, 8, 0, 1, 0, 1⟩
  | .ATR_HALL_USE => ⟨16777344, 4, 32, 0, 1, 0, 1⟩
  | .ATR_AGE_CTRL => ⟨16777472, 0, 1, 0, 1, 0, 1⟩
  | .ATR_AGE_SV => ⟨16777476, 0, 1, 0, 1, 0, 1⟩
  | .ATR_AGE_GOOSE_CAP => ⟨16777480, 0, 1, 0, 1, 0, 1⟩
  | .ATR_HEALTH_CTRL => ⟨16777484, 0, 1, 0, 1, 0, 1⟩
  | .ATR_AGE_CLASS => ⟨16777488, 4, 8, 0, 1, 0, 1⟩
  | .ATR_AGED => ⟨16777536, 4, 8, 0, 1, 0, 1⟩
  | .ATR_CNT => ⟨16777728, 4, 19, 0, 1, 0, 1⟩
  | .ATR_BANK_MAP => ⟨16777984, 4, 2, 0, 1, 0, 1⟩
  | .ATR_BANK_CMD => ⟨16777992, 0, 1, 0, 1, 0, 1⟩
  | .ATR_RSQ_CTRL => ⟨16778240, 0, 1, 0, 1, 0, 1⟩
  | .ATR_RSQ_STATUS => ⟨16778244, 0, 1, 0, 1, 0, 1⟩
  | .ATR_MIR_CTRL => ⟨16781344, 32, 15, 0, 1, 0, 1⟩
  | .ATR_MIR_SEL => ⟨16781348, 32, 15, 0, 1, 0, 1⟩
  | .ATR_MIR_SOURCE => ⟨16781352, 32, 15, 0, 1, 0, 1⟩
  | .ATR_MIR_SAMPLED => ⟨16781356, 32, 15, 0, 1, 0, 1⟩
  | .ATR_MIR_DROPS => ⟨16781360, 32, 15, 0, 1, 0, 1⟩
  | .ATR_MIR_ENCAP => ⟨16781824, 4, 4, 0, 1, 0, 1⟩
  | .ATR_MIR_SEED => ⟨16781840, 0, 1, 0, 1, 0, 1⟩
  | .ATR_EVC_CFG => ⟨16785408, 16, 8, 0, 1, 0, 1⟩
  | .ATR_EVC_SAMPLE => ⟨16785412, 16, 8, 0, 1, 0, 1⟩
  | .ATR_EVC_COUNT_LO => ⟨16785416, 16, 8, 0, 1, 0, 1⟩
  | .ATR_EVC_COUNT_HI => ⟨16785420, 16, 8, 0, 1, 0, 1⟩
  | .ATR_EVC_CTRL => ⟨16785536, 0, 1, 0, 1, 0, 1⟩
  | .SCH_Q_CFG => ⟨20971520, 16384, 96, 16, 256, 0, 1⟩
  | .SCH_Q_DEPTH => ⟨20971524, 16384, 96, 16, 256, 0, 1⟩
  | .SCH_Q_FRAMES => ⟨20971528, 16384, 96, 16, 256, 0, 1⟩
  | .SCH_BAY_CFG => ⟨20975616, 16384, 96, 32, 64, 0, 1⟩
  | .SCH_BAY_RATE => ⟨20975620, 16384, 96, 32, 64, 0, 1⟩
  | .SCH_BAY_HI => ⟨20975624, 16384, 96, 32, 64, 0, 1⟩
  | .SCH_BAY_CREDIT => ⟨20975632, 16384, 96, 32, 64, 4, 2⟩
  | .SCH_SVC_CFG => ⟨20977664, 16384, 96, 32, 8, 0, 1⟩
  | .SCH_SVC_RATE => ⟨20977668, 16384, 96, 32, 8, 0, 1⟩
  | .SCH_SVC_HI => ⟨20977672, 16384, 96, 32, 8, 0, 1⟩
  | .SCH_SVC_CREDIT => ⟨20977680, 16384, 96, 32, 8, 4, 2⟩
  | .SCH_PORT_CFG => ⟨20977920, 16384, 96, 0, 1, 0, 1⟩
  | .SCH_PORT_RATE => ⟨20977924, 16384, 96, 0, 1, 0, 1⟩
  | .SCH_PORT_HI => ⟨20977928, 16384, 96, 0, 1, 0, 1⟩
  | .SCH_PORT_CREDIT => ⟨20977936, 16384, 96, 4, 2, 0, 1⟩
  | .SCH_CLASS_MAP => ⟨20978048, 16384, 96, 8, 32, 4, 2⟩
  | .SCH_GCL_CTRL => ⟨20978304, 16384, 96, 0, 1, 0, 1⟩
  | .SCH_GCL_CYCLE => ⟨20978308, 16384, 96, 0, 1, 0, 1⟩
  | .SCH_GCL_BASE_NS => ⟨20978312, 16384, 96, 0, 1, 0, 1⟩
  | .SCH_GCL_BASE_SEC_LO => ⟨20978316, 16384, 96, 0, 1, 0, 1⟩
  | .SCH_GCL_BASE_SEC_HI => ⟨20978320, 16384, 96, 0, 1, 0, 1⟩
  | .SCH_GCL_HOLD => ⟨20978324, 16384, 96, 0, 1, 0, 1⟩
  | .SCH_GCL_PEND_CTRL => ⟨20978336, 16384, 96, 0, 1, 0, 1⟩
  | .SCH_GCL_PEND_CYCLE => ⟨20978340, 16384, 96, 0, 1, 0, 1⟩
  | .SCH_GCL_PEND_BASE_NS => ⟨20978344, 16384, 96, 0, 1, 0, 1⟩
  | .SCH_GCL_PEND_BASE_SEC_LO => ⟨20978348, 16384, 96, 0, 1, 0, 1⟩
  | .SCH_GCL_PEND_BASE_SEC_HI => ⟨20978352, 16384, 96, 0, 1, 0, 1⟩
  | .SCH_GCL_CMD => ⟨20978356, 16384, 96, 0, 1, 0, 1⟩
  | .SCH_GCL_STATUS => ⟨20978360, 16384, 96, 0, 1, 0, 1⟩
  | .SCH_GCL_ERR => ⟨20978364, 16384, 96, 0, 1, 0, 1⟩
  | .SCH_GCL_W0 => ⟨20979712, 16384, 96, 8, 256, 0, 1⟩
  | .SCH_GCL_W1 => ⟨20979716, 16384, 96, 8, 256, 0, 1⟩
  | .SCH_FLUSH_CMD => ⟨22544384, 0, 1, 0, 1, 0, 1⟩
  | .SCH_FLUSH_RES => ⟨22544388, 0, 1, 0, 1, 0, 1⟩
  | .RED_DUP_CTRL => ⟨23068672, 0, 1, 0, 1, 0, 1⟩
  | .RED_ROLE_CMD => ⟨23068688, 0, 1, 0, 1, 0, 1⟩
  | .RED_CB_CTRL => ⟨23068704, 0, 1, 0, 1, 0, 1⟩
  | .RED_PAIR_CFG => ⟨23068928, 32, 48, 0, 1, 0, 1⟩
  | .RED_PAIR_MAC_HI => ⟨23068932, 32, 48, 0, 1, 0, 1⟩
  | .RED_PAIR_MAC_LO => ⟨23068936, 32, 48, 0, 1, 0, 1⟩
  | .RED_PAIR_SUP => ⟨23068940, 32, 48, 0, 1, 0, 1⟩
  | .RED_PAIR_FALLBACK => ⟨23068944, 32, 48, 0, 1, 0, 1⟩
  | .RED_PAIR_CNT => ⟨23072768, 64, 48, 4, 16, 0, 1⟩
  | .GAL_CTRL => ⟨25165824, 0, 1, 0, 1, 0, 1⟩
  | .GAL_ETYPE => ⟨25165828, 0, 1, 0, 1, 0, 1⟩
  | .GAL_ADDR_REQ => ⟨25165832, 0, 1, 0, 1, 0, 1⟩
  | .GAL_STATUS => ⟨25165836, 0, 1, 0, 1, 0, 1⟩
  | .GAL_EPOCH => ⟨25165840, 0, 1, 0, 1, 0, 1⟩
  | .GAL_TIMERS => ⟨25165844, 0, 1, 0, 1, 0, 1⟩
  | .GAL_SPRAY_CTRL => ⟨25165848, 0, 1, 0, 1, 0, 1⟩
  | .GAL_CMD => ⟨25165856, 0, 1, 0, 1, 0, 1⟩
  | .GAL_KEEPER_ID => ⟨25165872, 4, 4, 0, 1, 0, 1⟩
  | .GAL_STANDBY_ID => ⟨25165888, 4, 4, 0, 1, 0, 1⟩
  | .GAL_LINK_CFG => ⟨25166080, 32, 32, 0, 1, 0, 1⟩
  | .GAL_LINK_STATUS => ⟨25166084, 32, 32, 0, 1, 0, 1⟩
  | .GAL_LINK_NBR_ID => ⟨25166088, 32, 32, 4, 4, 0, 1⟩
  | .GAL_LINK_LOST_CNT => ⟨25166104, 32, 32, 0, 1, 0, 1⟩
  | .GAL_CNT => ⟨25167872, 4, 14, 0, 1, 0, 1⟩
  | .SEC_LC_CMD => ⟨29360128, 0, 1, 0, 1, 0, 1⟩
  | .SEC_FUSE_CMD => ⟨29360144, 0, 1, 0, 1, 0, 1⟩
  | .SEC_FUSE_DATA => ⟨29360148, 0, 1, 0, 1, 0, 1⟩
  | .SEC_FUSE_ROW => ⟨29360384, 4, 128, 0, 1, 0, 1⟩
  | .SEC_CAL_ROW => ⟨29360896, 4, 64, 0, 1, 0, 1⟩
  | .SEC_CE_CMD => ⟨29364224, 0, 1, 0, 1, 0, 1⟩
  | .SEC_CE_OP => ⟨29364480, 4, 64, 0, 1, 0, 1⟩
  | .SEC_CE_RES => ⟨29364736, 4, 24, 0, 1, 0, 1⟩
  | .SEC_CE_RES_INFO => ⟨29364864, 0, 1, 0, 1, 0, 1⟩
  | .SEC_KE_CMD => ⟨29368320, 0, 1, 0, 1, 0, 1⟩
  | .SEC_KE_TARGET => ⟨29368324, 0, 1, 0, 1, 0, 1⟩
  | .SEC_KE_KEY => ⟨29368384, 4, 8, 0, 1, 0, 1⟩
  | .SEC_KE_BLOB => ⟨29368448, 4, 16, 0, 1, 0, 1⟩
  | .SEC_KE_OUT => ⟨29368576, 4, 16, 0, 1, 0, 1⟩
  | .SEC_KE_RES_INFO => ⟨29368640, 0, 1, 0, 1, 0, 1⟩
  | .SEC_RNG_STATUS => ⟨29372416, 0, 1, 0, 1, 0, 1⟩
  | .SEC_RNG_CMD => ⟨29372420, 0, 1, 0, 1, 0, 1⟩
  | .SEC_RNG_CTRL => ⟨29372424, 0, 1, 0, 1, 0, 1⟩
  | .SEC_RNG_OUT => ⟨29372432, 4, 8, 0, 1, 0, 1⟩
  | .SEC_RNG_INFO => ⟨29372464, 0, 1, 0, 1, 0, 1⟩
  | .SEC_TRUST => ⟨29376512, 128, 64, 4, 17, 0, 1⟩
  | .SEC_FI_GATE => ⟨29392896, 0, 1, 0, 1, 0, 1⟩
  | .CNT_OVF_STATUS => ⟨31457288, 0, 1, 0, 1, 0, 1⟩
  | .CNT_SNAP_CMD => ⟨31457296, 0, 1, 0, 1, 0, 1⟩
  | .CNT_SNAP_ADDR_LO => ⟨31457300, 0, 1, 0, 1, 0, 1⟩
  | .CNT_SNAP_ADDR_HI => ⟨31457304, 0, 1, 0, 1, 0, 1⟩
  | .CNT_SNAP_LEN => ⟨31457308, 0, 1, 0, 1, 0, 1⟩
  | .CNT_SNAP_RES => ⟨31457312, 0, 1, 0, 1, 0, 1⟩
  | .CNT_SNAP_LOG => ⟨31457320, 0, 1, 0, 1, 0, 1⟩
  | .CNT_STALE_CNT => ⟨31457324, 0, 1, 0, 1, 0, 1⟩
  | .CNT_WIN_SEL => ⟨31457344, 0, 1, 0, 1, 0, 1⟩
  | .CNT_DEV => ⟨31457536, 8, 5, 4, 2, 0, 1⟩
  | .CNT_WIN => ⟨31522816, 0, 1, 8, 8192, 4, 2⟩
  | .HAL_ID => ⟨33554432, 1048576, 32, 0, 1, 0, 1⟩
  | .HAL_GEN => ⟨33554436, 1048576, 32, 0, 1, 0, 1⟩
  | .HAL_APERTURE_SEL => ⟨33554448, 1048576, 32, 0, 1, 0, 1⟩
  | .HAL_QUOTA => ⟨33554688, 1048576, 32, 4, 11, 0, 1⟩
  | .HAL_USE => ⟨33554752, 1048576, 32, 4, 11, 0, 1⟩
  | .HAL_MBX_OUT => ⟨33558528, 1048576, 32, 4, 64, 0, 1⟩
  | .HAL_MBX_IN => ⟨33558784, 1048576, 32, 4, 64, 0, 1⟩
  | .HAL_MBX_CTRL => ⟨33559040, 1048576, 32, 0, 1, 0, 1⟩
  | .HAL_MBX_MGR => ⟨33559044, 1048576, 32, 0, 1, 0, 1⟩
  | .HAL_RING_BASE => ⟨33619968, 1048576, 32, 64, 32, 4, 2⟩
  | .HAL_RING_CPL => ⟨33619976, 1048576, 32, 64, 32, 4, 2⟩
  | .HAL_RING_CTRL => ⟨33619984, 1048576, 32, 64, 32, 0, 1⟩
  | .HAL_RING_TAIL => ⟨33619988, 1048576, 32, 64, 32, 0, 1⟩
  | .HAL_RING_HEAD => ⟨33619992, 1048576, 32, 64, 32, 0, 1⟩
  | .HAL_RING_CPLT => ⟨33619996, 1048576, 32, 64, 32, 0, 1⟩
  | .HAL_RING_ERR => ⟨33620000, 1048576, 32, 64, 32, 0, 1⟩
  | .HAL_RING_IRQ => ⟨33620004, 1048576, 32, 64, 32, 0, 1⟩
  | .HAL_RING_TOO_BIG => ⟨33620008, 1048576, 32, 64, 32, 0, 1⟩
  | .HAL_RX_MAP => ⟨33622016, 1048576, 32, 0, 1, 0, 1⟩
  | .HAL_RX_CFG => ⟨33622020, 1048576, 32, 0, 1, 0, 1⟩
  | .HAL_DMA_STATUS => ⟨33615872, 32, 4, 0, 1, 0, 1⟩
  | .HAL_DMA_LOG => ⟨33615876, 32, 4, 0, 1, 0, 1⟩
  | .HAL_DMA_STALE_CNT => ⟨33615880, 32, 4, 0, 1, 0, 1⟩

/-- How many instances the first index has: the array's count, or 32 for the registers that each hall has a slot of. -/
def R.count (r : R) : Nat :=
  match r with
  | .TBL_CMD => 32
  | .TBL_CMD_IDX => 32
  | .TBL_CMD_ARG => 32
  | .TBL_KEY => 32
  | .TBL_DATA => 32
  | .TBL_RES => 32
  | .TBL_RES_INFO => 32
  | .TBL_CMD_LOG => 32
  | .TBL_STALE_CNT => 32
  | .TBL_LRN_REC => 32
  | .SCH_FLUSH_CMD => 32
  | .SCH_FLUSH_RES => 32
  | .CNT_SNAP_CMD => 32
  | .CNT_SNAP_ADDR_LO => 32
  | .CNT_SNAP_ADDR_HI => 32
  | .CNT_SNAP_LEN => 32
  | .CNT_SNAP_RES => 32
  | .CNT_SNAP_LOG => 32
  | .CNT_STALE_CNT => 32
  | .CNT_WIN_SEL => 32
  | .CNT_WIN => 32
  | r => r.layout.n1

/-- The quiesce domain of each register (R63). -/
def R.dom (r : R) : DomOf :=
  match r with
  | .TIM_CTRL => .time
  | .TIM_STATUS => .time
  | .TIM_TIME_NS => .time
  | .TIM_TIME_SEC_LO => .time
  | .TIM_TIME_SEC_HI => .time
  | .TIM_RATE_LO => .time
  | .TIM_RATE_HI => .time
  | .TIM_SLEW => .time
  | .TIM_CMD => .time
  | .TIM_STEP_SEC_LO => .time
  | .TIM_STEP_SEC_HI => .time
  | .TIM_STEP_NS => .time
  | .TIM_OFFSET => .time
  | .TIM_JUMP_THRESH => .time
  | .TIM_JUMP_CTRL => .time
  | .TIM_RESTEP_CNT => .time
  | .TIM_TC_DOM => .time
  | .TIM_CYC_CTRL => .time
  | .TIM_CYC_STATUS => .time
  | .TIM_CYC_ANGLE => .time
  | .TIM_CYC_COUNT => .time
  | .TIM_CYC_FREQ => .time
  | .TIM_CYC_NOM_FREQ => .time
  | .TIM_CYC_MEAS_FREQ => .time
  | .TIM_CYC_LT_NS => .time
  | .TIM_CYC_REF_PHASE => .time
  | .TIM_CYC_SV_STREAM => .time
  | .TIM_CYC_SV_DELAY => .time
  | .TIM_PPS_CTRL => .time
  | .TIM_CAP_CTRL => .time
  | .TIM_CAP_STATUS => .time
  | .TIM_CAP_W => .time
  | .TIM_PORT_CTRL => .time
  | .TIM_PORT_LAT => .time
  | .TIM_PORT_LINK_DELAY => .time
  | .TIM_TSQ_STATUS => .time
  | .TIM_TSQ_W => .time
  | .TIM_EVT_CTRL => .time
  | .TIM_EVT_T_LO => .time
  | .TIM_EVT_T_MID => .time
  | .TIM_EVT_T_HI => .time
  | .TIM_EVT_PERIOD => .time
  | .TIM_EVT_WIDTH => .time
  | .TIM_EVT_STATUS => .time
  | .PRT_LINK_CFG => .port
  | .PRT_LINK_CMD => .port
  | .PRT_LINK_STATUS => .port
  | .PRT_MAC_CTRL => .port
  | .PRT_HASH => .port
  | .PRT_VEST_STATUS => .port
  | .PRT_VEST_DROP => .port
  | .PRT_PMAC_CTRL => .port
  | .PRT_PMAC_STATUS => .port
  | .PRT_ERR_BUDGET => .port
  | .PRT_ERR_REACT => .port
  | .PRT_PARSE_CTRL => .port
  | .PRT_PCP_MAP => .port
  | .PRT_LEARN_CTRL => .port
  | .PRT_LEARN_STATUS => .port
  | .PRT_RX_CNT => .port
  | .PRT_DISC => .port
  | .PRT_MACSEC_CTRL => .port
  | .PRT_MACSEC_REPLAY_WINDOW => .port
  | .PRT_MACSEC_TX_PN_THRESH => .port
  | .PRT_MACSEC_TX_SCI => .port
  | .PRT_MACSEC_TX_SA_SEL => .port
  | .PRT_MACSEC_TX_SA_CTRL => .port
  | .PRT_MACSEC_TX_SA_NEXT_PN => .port
  | .PRT_MACSEC_TX_SA_SSCI => .port
  | .PRT_MACSEC_TX_SA_SALT => .port
  | .PRT_MACSEC_RX_SC_CTRL => .port
  | .PRT_MACSEC_RX_SC_SCI => .port
  | .PRT_MACSEC_RX_SA_CTRL => .port
  | .PRT_MACSEC_RX_SA_NEXT_PN_LO => .port
  | .PRT_MACSEC_RX_SA_NEXT_PN_HI => .port
  | .PRT_MACSEC_RX_SA_LOWEST_PN_LO => .port
  | .PRT_MACSEC_RX_SA_LOWEST_PN_HI => .port
  | .PRT_MACSEC_RX_SA_SSCI => .port
  | .PRT_MACSEC_RX_SA_SALT0 => .port
  | .PRT_MACSEC_RX_SA_SALT1 => .port
  | .PRT_MACSEC_RX_SA_SALT2 => .port
  | .OPT_LANE_STATUS => .lane
  | .PIP_PARSE_CFG => .pipe
  | .PIP_LOST_ON_FENCE => .pipe
  | .PIP_PARSE_EXC => .pipe
  | .PIP_TCAM_STAGE => .pipe
  | .PIP_TCAM_CMD => .pipe
  | .PIP_HASH => .pipe
  | .PIP_EVC_CFG => .pipe
  | .PIP_EVC_SAMPLE => .pipe
  | .PIP_EVC_COUNT_LO => .pipe
  | .PIP_EVC_COUNT_HI => .pipe
  | .PIP_EVC_CTRL => .pipe
  | .PIP_SLOT_LO => .pipe
  | .PIP_SLOT_HI => .pipe
  | .PIP_EREC_STATUS => .pipe
  | .PIP_EREC_W => .pipe
  | .SCH_Q_CFG => .port
  | .SCH_Q_DEPTH => .port
  | .SCH_Q_FRAMES => .port
  | .SCH_BAY_CFG => .port
  | .SCH_BAY_RATE => .port
  | .SCH_BAY_HI => .port
  | .SCH_BAY_CREDIT => .port
  | .SCH_SVC_CFG => .port
  | .SCH_SVC_RATE => .port
  | .SCH_SVC_HI => .port
  | .SCH_SVC_CREDIT => .port
  | .SCH_PORT_CFG => .port
  | .SCH_PORT_RATE => .port
  | .SCH_PORT_HI => .port
  | .SCH_PORT_CREDIT => .port
  | .SCH_CLASS_MAP => .port
  | .SCH_GCL_CTRL => .gate
  | .SCH_GCL_CYCLE => .gate
  | .SCH_GCL_BASE_NS => .gate
  | .SCH_GCL_BASE_SEC_LO => .gate
  | .SCH_GCL_BASE_SEC_HI => .gate
  | .SCH_GCL_HOLD => .gate
  | .SCH_GCL_PEND_CTRL => .gate
  | .SCH_GCL_PEND_CYCLE => .gate
  | .SCH_GCL_PEND_BASE_NS => .gate
  | .SCH_GCL_PEND_BASE_SEC_LO => .gate
  | .SCH_GCL_PEND_BASE_SEC_HI => .gate
  | .SCH_GCL_CMD => .gate
  | .SCH_GCL_STATUS => .gate
  | .SCH_GCL_ERR => .gate
  | .SCH_GCL_W0 => .port
  | .SCH_GCL_W1 => .port
  | .RED_PAIR_CFG => .pair
  | .RED_PAIR_MAC_HI => .pair
  | .RED_PAIR_MAC_LO => .pair
  | .RED_PAIR_SUP => .pair
  | .RED_PAIR_FALLBACK => .pair
  | .RED_PAIR_CNT => .pair
  | .GAL_CTRL => .gallery
  | .GAL_ETYPE => .gallery
  | .GAL_ADDR_REQ => .gallery
  | .GAL_STATUS => .gallery
  | .GAL_EPOCH => .gallery
  | .GAL_TIMERS => .gallery
  | .GAL_SPRAY_CTRL => .gallery
  | .GAL_CMD => .gallery
  | .GAL_KEEPER_ID => .gallery
  | .GAL_STANDBY_ID => .gallery
  | .GAL_LINK_CFG => .gallery
  | .GAL_LINK_STATUS => .gallery
  | .GAL_LINK_NBR_ID => .gallery
  | .GAL_LINK_LOST_CNT => .gallery
  | .GAL_CNT => .gallery
  | .HAL_ID => .hall
  | .HAL_GEN => .hall
  | .HAL_APERTURE_SEL => .hall
  | .HAL_QUOTA => .hall
  | .HAL_USE => .hall
  | .HAL_MBX_OUT => .hall
  | .HAL_MBX_IN => .hall
  | .HAL_MBX_CTRL => .hall
  | .HAL_MBX_MGR => .hall
  | .HAL_RING_BASE => .hall
  | .HAL_RING_CPL => .hall
  | .HAL_RING_CTRL => .hall
  | .HAL_RING_TAIL => .hall
  | .HAL_RING_HEAD => .hall
  | .HAL_RING_CPLT => .hall
  | .HAL_RING_ERR => .hall
  | .HAL_RING_IRQ => .hall
  | .HAL_RING_TOO_BIG => .hall
  | .HAL_RX_MAP => .hall
  | .HAL_RX_CFG => .hall
  | _ => .device

/-- Every register, in address-map order. -/
def R.all0 : List R := [.GLB_ID, .GLB_CAP, .GLB_UID, .GLB_UNLOCK, .GLB_ACCESS_ERR, .GLB_ACCESS_ERR_ADDR, .GLB_ACCESS_ERR_CNT, .GLB_DKC_CTRL, .GLB_PRIV_MAP, .GLB_TV_STATUS, .GLB_TV_ADDR, .GLB_SB_CTRL, .GLB_SB_STATUS, .GLB_IMG_CTRL, .GLB_IMG_ADDR_LO, .GLB_IMG_ADDR_HI, .GLB_IMG_LEN, .GLB_IMG_ID, .GLB_IMG_REV, .GLB_QSC_CMD, .GLB_QSC_TIMEOUT, .GLB_QSC_PORT, .GLB_QSC_GATE, .GLB_QSC_HALL, .GLB_QSC_MISC, .GLB_RESET, .GLB_PWR_CTRL, .GLB_STATE_ERR_CNT, .GLB_HALL_CMD, .GLB_HALL_ADDR_LO, .GLB_HALL_ADDR_HI, .GLB_HALL_LEN, .GLB_HALL_RES, .GLB_HALL_DETAIL, .GLB_HALL_REMAP, .GLB_PORT_PIPE, .GLB_PORT_OWN, .GLB_PORT_QOWN, .GLB_QUOTA_W0, .GLB_QUOTA_W1]
def R.all1 : List R := [.GLB_QUOTA_W2, .GLB_QUOTA_W3, .GLB_QUOTA_W4, .GLB_QUOTA_W5, .GLB_QUOTA_W6, .GLB_QUOTA_W7, .GLB_QUOTA_W8, .GLB_QUOTA_W9, .GLB_QUOTA_W10, .GLB_VSLICE, .GLB_HPORT, .FLT_STATUS, .FLT_COND, .FLT_CLEAR, .FLT_MASK, .FLT_PIN_EN, .FLT_ALERT_EN, .FLT_REACT, .FLT_BANK_POLICY, .FLT_VOTE_STATUS, .FLT_FENCE_CMD, .FLT_FENCED_PORT, .FLT_FENCED_UNIT, .FLT_FENCED_STAIR, .FLT_EVT_CNT, .FLT_HIST_STATUS, .FLT_HIST_CLEAR, .FLT_HIST, .FLT_TEMP, .FLT_THERM_CTRL, .FLT_VMON, .FLT_FI_CMD, .TIM_CTRL, .TIM_STATUS, .TIM_TIME_NS, .TIM_TIME_SEC_LO, .TIM_TIME_SEC_HI, .TIM_RATE_LO, .TIM_RATE_HI, .TIM_SLEW]
def R.all2 : List R := [.TIM_CMD, .TIM_STEP_SEC_LO, .TIM_STEP_SEC_HI, .TIM_STEP_NS, .TIM_OFFSET, .TIM_JUMP_THRESH, .TIM_JUMP_CTRL, .TIM_RESTEP_CNT, .TIM_TC_DOM, .TIM_CYC_CTRL, .TIM_CYC_STATUS, .TIM_CYC_ANGLE, .TIM_CYC_COUNT, .TIM_CYC_FREQ, .TIM_CYC_NOM_FREQ, .TIM_CYC_MEAS_FREQ, .TIM_CYC_LT_NS, .TIM_CYC_REF_PHASE, .TIM_CYC_SV_STREAM, .TIM_CYC_SV_DELAY, .TIM_PPS_CTRL, .TIM_CAP_CTRL, .TIM_CAP_STATUS, .TIM_CAP_W, .TIM_PORT_CTRL, .TIM_PORT_LAT, .TIM_PORT_LINK_DELAY, .TIM_TSQ_STATUS, .TIM_TSQ_W, .TIM_EVT_CTRL, .TIM_EVT_T_LO, .TIM_EVT_T_MID, .TIM_EVT_T_HI, .TIM_EVT_PERIOD, .TIM_EVT_WIDTH, .TIM_EVT_STATUS, .PRT_LINK_CFG, .PRT_LINK_CMD, .PRT_LINK_STATUS, .PRT_MAC_CTRL]
def R.all3 : List R := [.PRT_HASH, .PRT_VEST_STATUS, .PRT_VEST_DROP, .PRT_PMAC_CTRL, .PRT_PMAC_STATUS, .PRT_ERR_BUDGET, .PRT_ERR_REACT, .PRT_PARSE_CTRL, .PRT_PCP_MAP, .PRT_LEARN_CTRL, .PRT_LEARN_STATUS, .PRT_RX_CNT, .PRT_DISC, .PRT_MACSEC_CTRL, .PRT_MACSEC_REPLAY_WINDOW, .PRT_MACSEC_TX_PN_THRESH, .PRT_MACSEC_TX_SCI, .PRT_MACSEC_TX_SA_SEL, .PRT_MACSEC_TX_SA_CTRL, .PRT_MACSEC_TX_SA_NEXT_PN, .PRT_MACSEC_TX_SA_SSCI, .PRT_MACSEC_TX_SA_SALT, .PRT_MACSEC_RX_SC_CTRL, .PRT_MACSEC_RX_SC_SCI, .PRT_MACSEC_RX_SA_CTRL, .PRT_MACSEC_RX_SA_NEXT_PN_LO, .PRT_MACSEC_RX_SA_NEXT_PN_HI, .PRT_MACSEC_RX_SA_LOWEST_PN_LO, .PRT_MACSEC_RX_SA_LOWEST_PN_HI, .PRT_MACSEC_RX_SA_SSCI, .PRT_MACSEC_RX_SA_SALT0, .PRT_MACSEC_RX_SA_SALT1, .PRT_MACSEC_RX_SA_SALT2, .OPT_SRC_STATUS, .OPT_SPARE_MAP, .OPT_SPARE_CTRL, .OPT_SPARE_CMD, .OPT_LANE_STATUS, .OPT_INTLK, .PIP_PARSE_CFG]
def R.all4 : List R := [.PIP_LOST_ON_FENCE, .PIP_PARSE_EXC, .PIP_TCAM_STAGE, .PIP_TCAM_CMD, .PIP_HASH, .PIP_EVC_CFG, .PIP_EVC_SAMPLE, .PIP_EVC_COUNT_LO, .PIP_EVC_COUNT_HI, .PIP_EVC_CTRL, .PIP_SLOT_LO, .PIP_SLOT_HI, .PIP_EREC_STATUS, .PIP_EREC_W, .TBL_FDB_CTRL, .TBL_AGE_CTRL, .TBL_FDB_STATUS, .TBL_FDB_EVT, .TBL_SID_PROF, .TBL_HASH_SEED, .TBL_CMD, .TBL_CMD_IDX, .TBL_CMD_ARG, .TBL_KEY, .TBL_DATA, .TBL_RES, .TBL_RES_INFO, .TBL_CMD_LOG, .TBL_STALE_CNT, .TBL_LRN_REC, .TBL_SGATE_CTRL, .TBL_SGATE_CYCLE, .TBL_SGATE_BASE_NS, .TBL_SGATE_BASE_SEC_LO, .TBL_SGATE_BASE_SEC_HI, .TBL_SGATE_STATUS, .TBL_SGATE_REOPEN, .TBL_SGLIST_W0, .TBL_SGLIST_W1, .TBL_VLAN_W0]
def R.all5 : List R := [.TBL_VLAN_W1, .TBL_HASHIND, .ATR_ADM_CTRL, .ATR_STATUS, .ATR_CLASS_CFG, .ATR_CLASS_MAX, .ATR_CLASS_USE, .ATR_HALL_USE, .ATR_AGE_CTRL, .ATR_AGE_SV, .ATR_AGE_GOOSE_CAP, .ATR_HEALTH_CTRL, .ATR_AGE_CLASS, .ATR_AGED, .ATR_CNT, .ATR_BANK_MAP, .ATR_BANK_CMD, .ATR_RSQ_CTRL, .ATR_RSQ_STATUS, .ATR_MIR_CTRL, .ATR_MIR_SEL, .ATR_MIR_SOURCE, .ATR_MIR_SAMPLED, .ATR_MIR_DROPS, .ATR_MIR_ENCAP, .ATR_MIR_SEED, .ATR_EVC_CFG, .ATR_EVC_SAMPLE, .ATR_EVC_COUNT_LO, .ATR_EVC_COUNT_HI, .ATR_EVC_CTRL, .SCH_Q_CFG, .SCH_Q_DEPTH, .SCH_Q_FRAMES, .SCH_BAY_CFG, .SCH_BAY_RATE, .SCH_BAY_HI, .SCH_BAY_CREDIT, .SCH_SVC_CFG, .SCH_SVC_RATE]
def R.all6 : List R := [.SCH_SVC_HI, .SCH_SVC_CREDIT, .SCH_PORT_CFG, .SCH_PORT_RATE, .SCH_PORT_HI, .SCH_PORT_CREDIT, .SCH_CLASS_MAP, .SCH_GCL_CTRL, .SCH_GCL_CYCLE, .SCH_GCL_BASE_NS, .SCH_GCL_BASE_SEC_LO, .SCH_GCL_BASE_SEC_HI, .SCH_GCL_HOLD, .SCH_GCL_PEND_CTRL, .SCH_GCL_PEND_CYCLE, .SCH_GCL_PEND_BASE_NS, .SCH_GCL_PEND_BASE_SEC_LO, .SCH_GCL_PEND_BASE_SEC_HI, .SCH_GCL_CMD, .SCH_GCL_STATUS, .SCH_GCL_ERR, .SCH_GCL_W0, .SCH_GCL_W1, .SCH_FLUSH_CMD, .SCH_FLUSH_RES, .RED_DUP_CTRL, .RED_ROLE_CMD, .RED_CB_CTRL, .RED_PAIR_CFG, .RED_PAIR_MAC_HI, .RED_PAIR_MAC_LO, .RED_PAIR_SUP, .RED_PAIR_FALLBACK, .RED_PAIR_CNT, .GAL_CTRL, .GAL_ETYPE, .GAL_ADDR_REQ, .GAL_STATUS, .GAL_EPOCH, .GAL_TIMERS]
def R.all7 : List R := [.GAL_SPRAY_CTRL, .GAL_CMD, .GAL_KEEPER_ID, .GAL_STANDBY_ID, .GAL_LINK_CFG, .GAL_LINK_STATUS, .GAL_LINK_NBR_ID, .GAL_LINK_LOST_CNT, .GAL_CNT, .SEC_LC_CMD, .SEC_FUSE_CMD, .SEC_FUSE_DATA, .SEC_FUSE_ROW, .SEC_CAL_ROW, .SEC_CE_CMD, .SEC_CE_OP, .SEC_CE_RES, .SEC_CE_RES_INFO, .SEC_KE_CMD, .SEC_KE_TARGET, .SEC_KE_KEY, .SEC_KE_BLOB, .SEC_KE_OUT, .SEC_KE_RES_INFO, .SEC_RNG_STATUS, .SEC_RNG_CMD, .SEC_RNG_CTRL, .SEC_RNG_OUT, .SEC_RNG_INFO, .SEC_TRUST, .SEC_FI_GATE, .CNT_OVF_STATUS, .CNT_SNAP_CMD, .CNT_SNAP_ADDR_LO, .CNT_SNAP_ADDR_HI, .CNT_SNAP_LEN, .CNT_SNAP_RES, .CNT_SNAP_LOG, .CNT_STALE_CNT, .CNT_WIN_SEL]
def R.all8 : List R := [.CNT_DEV, .CNT_WIN, .HAL_ID, .HAL_GEN, .HAL_APERTURE_SEL, .HAL_QUOTA, .HAL_USE, .HAL_MBX_OUT, .HAL_MBX_IN, .HAL_MBX_CTRL, .HAL_MBX_MGR, .HAL_RING_BASE, .HAL_RING_CPL, .HAL_RING_CTRL, .HAL_RING_TAIL, .HAL_RING_HEAD, .HAL_RING_CPLT, .HAL_RING_ERR, .HAL_RING_IRQ, .HAL_RING_TOO_BIG, .HAL_RX_MAP, .HAL_RX_CFG, .HAL_DMA_STATUS, .HAL_DMA_LOG, .HAL_DMA_STALE_CNT]
def R.all : List R := R.all0 ++ R.all1 ++ R.all2 ++ R.all3 ++ R.all4 ++ R.all5 ++ R.all6 ++ R.all7 ++ R.all8

/-- A number for each register, for the order of the field store. -/
def R.num (r : R) : Nat := r.ctorIdx

end Sys2Proof.Machine
end

