-- ==== Sys2Proof/Machine/Maps.lean ====
section
/-! DEFINITION. Sparse maps as plain data: a list of (key, value) pairs in one canonical form, keys strictly rising and no
entry equal to what an unlisted key reads as, so that equal maps are equal lists. The keys of the field store, of pairs of
numbers and of numbers; a byte memory is the last of these (Host.Cell). -/

namespace Sys2Proof.Machine

variable {K V : Type}

/-- What the list holds under `k`, the first entry with that key. -/
def alFind [DecidableEq K] (k : K) : List (K × V) → Option V
  | [] => none
  | e :: m => if e.1 = k then some e.2 else alFind k m

/-- The list without its entries under `k`. -/
def alErase [DecidableEq K] (k : K) : List (K × V) → List (K × V)
  | [] => []
  | e :: m => if e.1 = k then alErase k m else e :: alErase k m

/-- Insert before the first larger key. -/
def alInsert (lt : K → K → Bool) (k : K) (v : V) : List (K × V) → List (K × V)
  | [] => [(k, v)]
  | e :: m => if lt k e.1 then (k, v) :: e :: m else e :: alInsert lt k v m

/-- What `k` reads as, with `d` for an unlisted key. -/
def alGet [DecidableEq K] (d : V) (k : K) (m : List (K × V)) : V := (alFind k m).getD d

/-- Write `v` under `k`, keeping the canonical form for the default `d`. -/
def alPut [DecidableEq K] [DecidableEq V] (lt : K → K → Bool) (d : V) (k : K) (v : V) (m : List (K × V)) : List (K × V) :=
  if v = d then alErase k m else alInsert lt k v (alErase k m)

/-- The keys rise strictly in the order `lt`. -/
def alSorted (lt : K → K → Bool) : List (K × V) → Bool
  | [] => true
  | [_] => true
  | a :: b :: m => lt a.1 b.1 && alSorted lt (b :: m)

/-- The order of numbers. -/
def natLt (a b : Nat) : Bool := decide (a < b)

/-- The lexicographic order of pairs of numbers. -/
def pairLt (a b : Nat × Nat) : Bool := decide (a.1 < b.1) || (decide (a.1 = b.1) && decide (a.2 < b.2))

/-- A map over numbers. -/
abbrev NMap (V : Type) := List (Nat × V)

/-- A map over pairs of numbers. -/
abbrev PMap (V : Type) := List ((Nat × Nat) × V)

def NMap.get (d : V) (m : NMap V) (k : Nat) : V := alGet d k m
def NMap.put [DecidableEq V] (d : V) (m : NMap V) (k : Nat) (v : V) : NMap V := alPut natLt d k v m
def PMap.get (d : V) (m : PMap V) (i j : Nat) : V := alGet d (i, j) m
def PMap.put [DecidableEq V] (d : V) (m : PMap V) (i j : Nat) (v : V) : PMap V := alPut pairLt d (i, j) v m

/-- A map whose absent key is `none`: tables of entries, frames held, rows in use. -/
def NMap.find (m : NMap V) (k : Nat) : Option V := alFind k m
def NMap.ins (m : NMap V) (k : Nat) (v : V) : NMap V := alInsert natLt k v (alErase k m)
def NMap.del (m : NMap V) (k : Nat) : NMap V := alErase k m
def PMap.find (m : PMap V) (i j : Nat) : Option V := alFind (i, j) m
def PMap.ins (m : PMap V) (i j : Nat) (v : V) : PMap V := alInsert pairLt (i, j) v (alErase (i, j) m)
def PMap.del (m : PMap V) (i j : Nat) : PMap V := alErase (i, j) m

/-- A field of one register of an array: the field, the first index and the flattened rest of the indices; `copy` 0, or 1 and 2
for the second and third copy of a triplicated field where they differ from the first (R379). -/
structure FKey where
  copy : Nat
  f : F
  i : Nat
  j : Nat
  deriving DecidableEq, Repr

/-- The order of the field store: by register, then indices, then bits, then copies. -/
def FKey.lt (a b : FKey) : Bool :=
  let ka := [a.f.r.num, a.i, a.j, a.f.lo, a.f.hi, a.copy]
  let kb := [b.f.r.num, b.i, b.j, b.f.lo, b.f.hi, b.copy]
  go ka kb
where
  /-- Lexicographic comparison of number lists. -/
  go : List Nat → List Nat → Bool
    | x :: xs, y :: ys => decide (x < y) || (decide (x = y) && go xs ys)
    | _, _ => false

/-- The field store: the fields whose value differs from their reset value, and the copies that differ from a first one. -/
abbrev FStore := List (FKey × Nat)

/-- A byte memory outside the device (host memory, the QSPI flash). -/
abbrev Mem := List Host.Cell

/-- The byte at `a`, with `d` for an address that nothing has written. -/
def Mem.get (d : Nat) (m : Mem) (a : Nat) : Nat := (alGet (BitVec.ofNat 8 d) a m).toNat

/-- Write one byte, keeping the canonical form. -/
def Mem.put (d : Nat) (m : Mem) (a b : Nat) : Mem := alPut natLt (BitVec.ofNat 8 d) a (BitVec.ofNat 8 b) m

/-- The canonical form of a byte memory: addresses strictly rising, no entry equal to the default. -/
def Mem.wf (d : Nat) (m : Mem) : Bool := alSorted natLt m && m.all (fun c => decide (c.2 ≠ BitVec.ofNat 8 d))

/-- `n` bytes from `a` up. -/
def Mem.read (d : Nat) (m : Mem) : Nat → Nat → List Nat
  | _, 0 => []
  | a, n + 1 => m.get d a :: Mem.read d m (a + 1) n

/-- Write the bytes `bs` from `a` up. -/
def Mem.write (d : Nat) (m : Mem) : Nat → List Nat → Mem
  | _, [] => m
  | a, b :: bs => Mem.write d (m.put d a b) (a + 1) bs

end Sys2Proof.Machine
end

