-- ==== Sys2Proof/Machine/State.lean ====
section
/-! DEFINITION. The state of the device as plain data: the register fields, and everything the spec gives the machine that
no register holds (frames, queues, tables, clocks, commands that run, the OTP array), with the state after reset. -/

namespace Sys2Proof.Machine

/-- Why a step stops. No command of the model faults: the spec describes every refusal of the device as a status code or a
logged access, which are next states. The one constructor is kept for the host's interface; nothing raises it (safe). -/
inductive Fault where
  | none_
  deriving DecidableEq, Repr

/-- Why a command has no meaning here. -/
inductive Refusal where
  /-- Raised by an arm of `exec` whose command has no meaning yet (safe: the step stops). -/
  | notModelled (mnemonic : String)
  deriving DecidableEq, Repr

/-- The pins and rails (R454 to R462, R135, R417): levels now, and what was latched at the sampling edges. -/
structure Pins where
  pwrEn : Bool
  resetN : Bool
  perstN : Bool
  intlkN : Bool
  testMode : Bool
  clk10m : Bool
  auxGood : Bool
  holdup : Bool
  vin48 : Bool
  pwrGood : Bool
  bootSrc : Nat
  sbAddr : Nat
  linkUp : Bool
  ppsOut : Bool
  tout : Nat
  deriving DecidableEq, Repr

/-- The bus masters' side: the KG lock (R10), the read latches of each master (R81, R101, R369), the value of each master's
last read, the staged low words of pairs that commit with their high word (R82, R142, by address), the JTAG register REGDR
(R473), the side-band alert (R393), a side-band write that has not ended (R389, R391), the interrupts raised and pending (MSI-X,
function and vector; R331), VF Enable of the SR-IOV capability (R332), the functions whose last read completed with Completer
Abort, and those that report a Completer Abort in their AER status (R366). -/
structure Bus where
  kgOpen : Bool
  latches : PMap Nat
  readData : NMap Nat
  staged : NMap Nat
  jtagBusy : Bool
  jtagErr : Bool
  jtagAddr : Nat
  jtagData : Nat
  alert : Bool
  sbOpen : Bool
  irqs : List (Nat × Nat)
  vfEnable : Bool
  cplAbort : List Nat
  aerAbort : List Nat
  deriving DecidableEq, Repr

/-- The time unit (R80 to R95, R111): device time in 2^-48 ns since the PTP epoch, the rate in force and the one committed
for the next edge, the staging word, TIME_CLK edges, the servo, PPS_OUT with the second it last rose for, the edge at which each TOUT last took an action, the edge of the last step change (R72), and the shaper refills done so far (R291). -/
structure Tim where
  devT : Nat
  clk : Nat
  coreQ : Nat
  step : Nat
  rate : Int
  rateLo : Nat
  rateNext : Option Int
  integ : Int
  ref : Option Nat
  recov : Nat
  savedState : Nat
  stepped : Bool
  ppsFall : Nat
  ppsIdx : Nat
  toutAct : NMap Nat
  stepAt : Nat
  refills : Nat
  deriving DecidableEq, Repr

/-- The cycle clock (R100 to R105): the accumulator in 2^-80 cu, the frequency in use in µHz, a HOST_FREQ write waiting for
its edge, and the reference loop with its integral term; `whole` when the cycle under way has been followed from angle 0. -/
structure Cyc where
  accX : Nat
  freq : Nat
  freqNext : Option Nat
  anchMode : Nat
  secAt : Nat
  refT : Option Nat
  refAngle : Nat
  good : Nat
  bad : Nat
  resume : Nat
  cycT0 : Nat
  whole : Bool
  meanFreq : Nat
  loop : Int
  deriving DecidableEq, Repr

/-- The runtime of one scheduled event slot (R108, R109): its target (2^-48 ns for BASE 0, 2^-80 cu for BASE 1). -/
structure EvtRt where
  armed : Bool
  target : Nat
  late : Bool
  deriving DecidableEq, Repr

/-- One capture of R112. -/
structure CapRec where
  devT : Nat
  rising : Bool
  angleValid : Bool
  epoch : Nat
  acc : Nat
  deriving DecidableEq, Repr

/-- One transmit timestamp of R97, R98. -/
structure TsRec where
  devT : Nat
  lostBefore : Bool
  epoch : Nat
  source : Nat
  hall : Nat
  id : Nat
  deriving DecidableEq, Repr

/-- One transition of a parse graph node (R156). -/
structure Trans where
  value : Nat
  mask : Nat
  galEtype : Bool
  hold : Bool
  next : Nat
  deriving DecidableEq, Repr

/-- One extract of a parse graph node (R156). -/
structure Extract where
  srcOff : Nat
  dst : Nat
  len : Nat
  berval : Bool
  nibble : Bool
  deriving DecidableEq, Repr

/-- One node of the parse graph (R156). -/
structure Node where
  hdrId : Nat
  profile : Nat
  record : Bool
  inner : Bool
  ptp : Bool
  lenFixed : Nat
  lenMode : Nat
  maxVisits : Nat
  lenOff : Nat
  lenShift : Nat
  lenWidth : Nat
  lenMul : Nat
  lenAdd : Nat
  selOff : Nat
  defHold : Bool
  defNext : Nat
  selMask : Nat
  extracts : List Extract
  trans : List Trans
  deriving DecidableEq, Repr

/-- A structure image in force, its sections decoded (R44, R475 to R480). -/
structure Image where
  id : Nat
  rev : Nat
  slot : Nat
  nodes : List Node
  carve : NMap Nat
  sidProf : List Nat
  lkp : List Nat
  hash : List Nat
  layouts : PMap (List Nat)
  perEntry : List Nat
  poolBase : List Nat
  portPipe : List Nat
  shapeOf : List Nat
  shapeQ : PMap Nat
  shapeB : PMap Nat
  hallClass : List Nat
  classQuota : PMap Nat
  deriving DecidableEq, Repr

/-- The structure loader (R47 to R54): the image in force, and the load in progress (source 0 flash A, 1 flash B, 2 host;
the sources still to try; the reset that asked for it; the address and length it was given of a host image; how many cells it
has reserved; whether the header stage passed, and the header and section table that it staged; the whole image once it has
passed every check, waiting to be applied). -/
structure Load where
  src : Nat
  rest : List Nat
  byReset : Bool
  addr : Nat
  len : Nat
  cells : Nat
  hdrOk : Bool
  staged : List Nat
  ready : Option Image
  deriving DecidableEq, Repr

structure Img where
  inForce : Option Image
  load : Option Load
  deriving DecidableEq, Repr

/-- A running quiesce command: domain, index and what it stops for (0 the GLB_QSC_CMD command, 1 a PARK request). -/
structure QscRun where
  dom : Nat
  idx : Nat
  deriving DecidableEq, Repr

/-- Quiesce, reset and low-power control (R58 to R75): the domains stopped directly, the running STOP, the running reset,
pipelines on their way into PARK or out of it, hall resets waiting for the shared engines. -/
structure Ctl where
  stopped : List (Nat × Nat)
  qsc : Option QscRun
  rst : Option (Nat × Nat)
  parking : List Nat
  unparking : List Nat
  hallResets : List (Nat × Nat)
  standby : Bool
  standbyHeld : Bool
  bootDue : Bool
  hallJob : Option (Nat × Nat)
  deriving DecidableEq, Repr

/-- A deadline (R260): device time in ns, or a cycle clock target in 2^-32 cu. -/
inductive Deadline where
  | ns (t : Nat)
  | cu (a : Nat)
  deriving DecidableEq, Repr

/-- What the parser and classifier bind to a header (stages 5 and 6): the parse vector, the header stack (HDR_ID, offset and
tunnel level), the PTP header, whether a length header was visited, and the results of stage 6. `ent` holds the words of the
stream entry that identified the frame; `trap` is the REASON of R356, 0 for none, `trapHall` the hall of its exception ring;
`fwd` is FWD of R175, with 4 for a target that is a gallery logical port; `sgate` the stream gate that charged the frame before
its end, with the octets charged (R181). -/
structure Hdr where
  pv : List Nat
  stack : List (Nat × Nat × Nat)
  ptpOff : Option Nat
  lenKnown : Bool
  exc : Nat
  dlen : Nat
  whole : Bool
  cls : Nat
  colour : Nat
  queue : Option Nat
  stream : Option Nat
  ent : List Nat
  drop : Bool
  trap : Nat
  trapHall : Nat := 0
  noLearn : Bool
  ctDis : Bool
  fwd : Nat
  target : Nat
  mirror : Nat
  hash : Nat
  discard6 : Bool
  sgate : Option (Nat × Nat) := none
  deriving DecidableEq, Repr

/-- A queued learn or move (R205): the key, the port or gallery source it is learned against (`kind` 0 port, 2 gallery), and
whether the source lookup has posted its MOVE record. -/
structure Learn where
  mac : Nat
  fid : Nat
  hall : Nat
  port : Nat
  target : Nat
  pair : Bool
  kind : Nat
  told : Bool := false
  deriving DecidableEq, Repr

/-- A frame the device holds, in a vestibule, in a pipeline or in the atrium: its ingress port (127 for a host frame or one
the device made), its bytes from DA to the last byte before the FCS as they came and after stage 3, its ingress timestamp, the
cycle accumulator and frequency in use at that instant (R262 to R264),
what reception has found, the header's results, its hall, cells and references. `gen` counts the live moves of its port before
its header was handed off (R33), `mirrored` the sessions that it has given a copy (R271). `learn` waits for the checks of R206;
`tsReq` is the hall and TS_ID of a host frame; `ecc` the errors stored with
its words (bank; 1 correctable, 2 not). -/
structure Frame where
  port : Nat
  wire : List Nat
  data : List Nat
  devT : Nat
  epoch : Nat
  accIn : Nat := 0
  freqIn : Nat := 0
  gen : Nat := 0
  mirrored : List Nat := []
  ended : Bool
  bad : Bool
  arrived : Nat
  handed : Bool
  staged : Bool
  pipe : Nat
  hdr : Option Hdr
  hall : Nat
  charged : Nat
  cells : List Nat
  refs : Nat
  marked : Bool
  learn : Option Learn
  tsReq : Option (Nat × Nat)
  ecc : List (Nat × Nat)
  deriving DecidableEq, Repr

/-- A gallery tag (R310). -/
structure GalTag where
  typ : Nat
  cls : Nat
  colour : Nat
  mcast : Bool
  noLearn : Bool
  warm : Bool
  hops : Nat
  src : Nat
  dst : Nat
  flow : Nat
  seq : Nat
  deriving DecidableEq, Repr

/-- What stage 11 does to a copy, bound at stage 7 (R237, R245, R311): the encodings it removes; the one it adds (0 R-TAG,
1 HSR tag, 2 PRP trailer; path or LanId; sequence); the PathId written into a tag that stays (R236); a gallery tag inserted,
or one kept with its hops reduced. -/
structure Edit where
  rmHsr : Bool
  rmPrp : Bool
  rmGal : Bool
  rmR : Bool
  add : Option (Nat × Nat × Nat)
  ring : Option Nat
  gal : Option GalTag
  hop : Bool
  deriving DecidableEq, Repr

/-- One descriptor: a reference to a frame, in a leaf queue, a host queue or the resequencer. `kind`: 0 data, 1 exception,
2 session copy (its session in `sess`, its OUT_PORT in `out`), 3 a frame the device itself made;
`seqDone` once the resequencer has returned it; of a session copy, SAMPLE_POOL and DROPS_LOST as they stood at its candidate (R273). -/
structure Copy where
  fid : Nat
  kind : Nat
  reason : Nat
  cls : Nat
  colour : Nat
  dl : Option Deadline
  edit : Edit
  sess : Nat
  out : Nat
  pool : Nat := 0
  lost : Nat := 0
  seqDone : Bool
  deriving DecidableEq, Repr

/-- A transmission on a port: the copy, its bytes after stages 11 and 12 without FCS, its wire length, its leaf queue and
service, whether it must end stomped, the bytes that earlier fragments carried, the TIME_CLK edge it began at, its egress
timestamp with the EPOCH at that instant (R96). -/
structure Tx where
  copy : Copy
  bytes : List Nat
  len : Nat
  q : Nat
  svc : Nat
  express : Bool
  stomp : Bool
  sent : Nat
  t0 : Nat
  ts : Nat
  epoch : Nat
  deriving DecidableEq, Repr

/-- The runtime of one port: the port type the link was brought up with (R120), its vestibule, the frame arriving, a preemptable
frame whose reception an express frame interrupts (R146), its
transmission and a preempted one that waits to resume, its error budget window, verification attempts, gate list position,
a remap that has not ended, its live moves so far (R33), the deficits and turns of weighted children (level 0 services, 1 bays, 2 leaf queues; R287), the
credits (level 0 port, 1 services, 2 bays; R291). -/
structure PortRt where
  rate : Nat
  fec : Nat
  an : Bool
  vest : List Nat
  rx : Option Nat
  rxHeld : Option Nat
  tx : Option Tx
  held : Option Tx
  winCnt : Nat
  verify : Nat
  anDone : Bool
  gclStart : Nat
  gclEnd : Nat
  gclSwitch : Bool
  remapping : Bool
  moves : Nat
  defi : PMap Nat
  turn : PMap Nat
  credit : PMap Int
  deriving DecidableEq, Repr

/-- A laser swap of R127: slot, old source, new source, emergency or planned, step reached, asked for by a command (R133); and a
swap left pending by an open interlock (R134). -/
structure SwapRt where
  slot : Nat
  old : Nat
  new : Nat
  emerg : Bool
  phase : Nat
  manual : Bool := false
  deriving DecidableEq, Repr

structure EngRt where
  cur : Option SwapRt
  waiting : List SwapRt
  pendingSwap : List SwapRt
  deriving DecidableEq, Repr

/-- A learn record of R211. -/
structure LrnRec where
  reason : Nat
  hall : Nat
  port : Nat
  fid : Nat
  mac : Nat
  oldPort : Nat
  ns : Nat
  deriving DecidableEq, Repr

/-- A sampled event record of R449. -/
structure ERec where
  evc : Nat
  skid : Nat
  port : Nat
  trig : Nat
  exc : Nat
  profile : Nat
  dlen : Nat
  cls : Nat
  stream : Nat
  ns : Nat
  deriving DecidableEq, Repr

/-- The runtime of one pipeline: the completion buffer in parse order (frame numbers), the learn queue, a running TCAM
command, event counters (count, last level, increments since the last record), slot counters, slots that headers took and that no
class has yet, the header slots of the last 101 µs by TIME_CLK edge (R72), sampled records. -/
structure PipeRt where
  buf : List Nat
  learnQ : List Learn
  tcamOp : Option (Nat × Nat × Nat × Nat)
  evc : NMap Nat
  evcPrev : NMap Nat
  evcSince : NMap Nat
  slots : NMap Nat
  owed : Nat
  used : List (Nat × Nat)
  recs : List ERec
  deriving DecidableEq, Repr

/-- One TCAM row (R170): layout, owner, VALUE and MASK as numbers of 640 bits, the eight action words, validity, a parity
error stored in it (0 none, 1 correctable, 2 not). -/
structure TcamRow where
  valid : Bool
  layout : Nat
  owner : Nat
  value : Nat
  mask : Nat
  action : List Nat
  err : Nat
  deriving DecidableEq, Repr

/-- A table command in its slot (R214 to R219): its operation, table, the generation at issue. -/
structure TblJob where
  op : Nat
  table : Nat
  gen : Nat
  deriving DecidableEq, Repr

/-- A descriptor held by the resequencer: its sequence, the TIME_CLK edge of its diversion, the leaf queue it returns to. -/
structure Held where
  seq : Nat
  since : Nat
  port : Nat
  q : Nat
  copy : Copy
  deriving DecidableEq, Repr

/-- A resequencer context (R275, R276): for a live move of port `move` from pipeline `src`, or for a sprayed flow of source
member `src` towards egress port `port`; the expected sequence, the held descriptors, the edge of the last frame, and the edge
until which it has held any (R277). -/
structure Rsq where
  id : Nat
  move : Option Nat
  src : Nat
  flow : Nat
  port : Nat
  expect : Nat
  held : List Held
  last : Nat
  heldAt : Nat := 0
  deriving DecidableEq, Repr

/-- The runtime of a mirror session (R271, R273): candidates since the last record, the LFSR, copies lost since. -/
structure MirRt where
  cand : Nat
  pool : Nat
  lfsr : Nat
  lost : Nat
  deriving DecidableEq, Repr

/-- The atrium (R248 to R278): frames, queues by (port, leaf queue), with 128 + h in place of the port for the host queues
of hall h, the next cell group, sweeper, resequencer and sessions. -/
structure Atr where
  frames : NMap Frame
  nextFid : Nat
  queues : PMap (List Copy)
  nextGroup : Nat
  sweeping : Bool
  rsq : List Rsq
  nextRsq : Nat
  mir : NMap MirRt
  deriving DecidableEq, Repr

/-- A stream gate at work (R183): the instants of its present entry in the gate's base, the octets charged in it, and
whether it still waits for the start of its first cycle (at `until_`). -/
structure SGateRt where
  waiting : Bool
  start : Nat
  until_ : Nat
  octets : Nat
  deriving DecidableEq, Repr

/-- A spray sequence entry (R325): the next sequence, the device-clock edges of its creation and last copy, the copies sent,
the turn among the links. -/
structure SprayEnt where
  seq : Nat
  born : Nat
  copies : Nat
  last : Nat
  rr : Nat
  deriving DecidableEq, Repr

/-- An epoch (R320): its number, members' records (address, flags, device, links), and its apply instant. -/
structure EpochRec where
  addr : Nat
  flags : Nat
  dev : Nat
  links : List (Nat × Nat × Nat)
  deriving DecidableEq, Repr

structure Epoch where
  number : Nat
  recs : List EpochRec
  applyAt : Nat
  deriving DecidableEq, Repr

/-- The gallery unit (R314 to R328). Device IDs are unique IDs, 0 for none. `due`: 0 no epoch to build, 1 one of the present
view, 2 the last complete body again and then one of the view; `phase`: 0 idle, 1 phase 1 sent, 9 a takeover runs. `stored` is
the last epoch held complete, `segs`, `segCount` and `closes` what has arrived of the next one by phase, `ready` those that wait for their APPLY_AT; `sent` and `repSent` are the epoch frames and the
report last handed to the links. -/
structure Gal where
  linkNbr : NMap Nat
  lastHello : NMap Hello
  hellos : NMap (Nat × Hello)
  signSeq : Nat
  live : Nat
  reports : NMap Report
  repTime : NMap Nat
  mySeq : Nat
  viewAt : Nat
  keeper : Nat
  standbyId : Nat
  segs : PMap (List Nat)
  closes : NMap EpochFrame
  segNum : Nat
  segCount : NMap Nat
  due : Nat
  inForce : Option Epoch
  ready : List Epoch
  stored : Option Epoch
  building : Option Epoch
  phase : Nat
  tries : Nat
  dropped : List Nat
  handover : Bool
  handedTo : Nat
  reissue : Bool
  seen : List (Nat × Nat)
  spray : PMap SprayEnt
  sent : List EpochFrame
  repSent : Option Report
  deriving DecidableEq, Repr

/-- The runtime of one ring: completions since the last interrupt, the TIME_CLK edge of the first of them. -/
structure RingRt where
  since : Nat
  first : Nat
  deriving DecidableEq, Repr

/-- A DMA engine's deficit round robin (R351): the hall it serves, its deficit and those of the others, the ring that each hall's
turn stands at (0 to 15 transmit, 16 to 31 receive). -/
structure DmaRt where
  hall : Nat
  defi : NMap Nat
  turn : NMap Nat
  deriving DecidableEq, Repr

/-- What a SAVE remembers of a hall frozen (R358): the ports that were UP; the generation stamped on the last mailbox SEND, and
a reply discarded since (R346). -/
structure HallRt where
  savedUp : List Nat
  stamped : Option Nat
  staleReply : Bool
  deriving DecidableEq, Repr

/-- A running snapshot of R442: the generation at issue, the host address, the pool code and CLEAR, and the bytes as they stood at
the snapshot edge, `none` until the reader comes to its slot. -/
structure SnapJob where
  gen : Nat
  addr : Nat
  pool : Nat
  clear : Bool
  bytes : Option (List Nat)
  deriving DecidableEq, Repr

/-- A running crypto engine, key engine or fuse operation: its operation code, two arguments (KEY_SEL and CURVE; the SA's port
and index; the row and the bits to burn; the lifecycle), the operand words it took at its start. -/
structure SecJob where
  op : Nat
  a : Nat
  b : Nat
  ws : List Nat
  deriving DecidableEq, Repr

/-- The security block (R394 to R417): the fuse rows as sensed for behaviour, and as re-sensed for reading; the fuse row pairs that
have an uncorrectable error (R396; 0 to 63 of the user array, 64 to 95 of the calibration region); keys in SAs
(port, direction and SA); running operations (`rng` 1 INIT, 2 GENERATE); the identity scalar; noise windows that have passed
since the start of INIT, and generate requests since the last reseed. -/
structure Sec where
  sensed : NMap Nat
  shown : NMap Nat
  worn : List Nat
  ce : Option SecJob
  ke : Option SecJob
  burn : Option SecJob
  rng : Option Nat
  saKey : PMap Nat
  idScalar : Nat
  windows : Nat
  requests : Nat
  deriving DecidableEq, Repr

/-- An entry of the fault history (R425). -/
structure Hist where
  idx : Nat
  injected : Bool
  fault : Nat
  unit : Nat
  detail : Nat
  devT : Nat
  boot : Nat
  deriving DecidableEq, Repr

/-- The fault collector (R419 to R436). -/
structure Flt where
  hist : List Hist
  lastUnit : NMap Nat
  tcamWin : NMap (Nat × Nat)
  bankWin : NMap (Nat × Nat)
  bankCorrWin : NMap (Nat × Nat)
  selfTest : Bool
  eccNext : PMap Nat
  therm : Bool
  thermWarn : Bool
  voltWarn : List Nat
  voltCrit : List Nat
  fenceOp : Option (Nat × Nat)
  injecting : Bool
  deriving DecidableEq, Repr

/-- The chip: every piece of state but the OTP array and the queue of waiting commands. -/
structure Chip where
  fld : FStore
  freeCtr : Nat
  pins : Pins
  host : Mem
  flash : Mem
  bus : Bus
  tim : Tim
  cyc : Cyc
  evt : NMap EvtRt
  toutFall : PMap Nat
  caps : NMap (List CapRec)
  tsq : NMap (List TsRec)
  tsqLost : NMap Bool
  img : Img
  ctl : Ctl
  fenced : List (Nat × Nat)
  ports : NMap PortRt
  engs : NMap EngRt
  pipes : NMap PipeRt
  tcam : PMap TcamRow
  tbl : PMap (List Nat)
  tblEcc : PMap Nat
  tblHall : PMap Nat
  jobs : NMap TblJob
  lrn : List LrnRec
  lrnLast : List LrnRec
  agerNext : Nat
  supSeq : NMap Nat
  atr : Atr
  sgate : NMap SGateRt
  gal : Gal
  rings : PMap RingRt
  dma : NMap DmaRt
  halls : NMap HallRt
  snaps : NMap SnapJob
  sec : Sec
  flt : Flt
  cnt : PMap Nat
  residue : PMap Nat
  aevc : NMap Nat
  aevcPrev : NMap Nat
  deriving DecidableEq, Repr

/-- The OTP array (R395, R397): rows 0 to 127 the user fuses, 128 to 191 the calibration rows, each a number of 32 bits;
an unlisted row reads 0. -/
abbrev Otp := NMap Nat

/-- The machine: the chip, its OTP array, and the commands that wait, first in, first out. -/
structure State where
  chip : Chip
  otp : Otp
  pending : List Instr
  deriving DecidableEq, Repr

/-! ## What absent entries stand for, and reset -/

def PortRt.init : PortRt :=
  { rate := 4, fec := 2, an := true, vest := [], rx := none, rxHeld := none, tx := none, held := none, winCnt := 0,
    verify := 0, anDone := false, gclStart := 0, gclEnd := 0, gclSwitch := false, remapping := false, moves := 0,
    defi := [], turn := [], credit := [] }

def EngRt.init : EngRt := { cur := none, waiting := [], pendingSwap := [] }

def PipeRt.init : PipeRt :=
  { buf := [], learnQ := [], tcamOp := none, evc := [], evcPrev := [], evcSince := [], slots := [], owed := 0, used := [], recs := [] }

def SGateRt.init : SGateRt := { waiting := false, start := 0, until_ := 0, octets := 0 }
def MirRt.init : MirRt := { cand := 0, pool := 0, lfsr := 0, lost := 0 }
def RingRt.init : RingRt := { since := 0, first := 0 }
def DmaRt.init : DmaRt := { hall := 0, defi := [], turn := [] }
def HallRt.init : HallRt := { savedUp := [], stamped := none, staleReply := false }
def EvtRt.init : EvtRt := { armed := false, target := 0, late := false }

def Edit.plain : Edit :=
  { rmHsr := false, rmPrp := false, rmGal := false, rmR := false, add := none, ring := none, gal := none, hop := false }

/-- The pins of a powered board with every input that has a resistor on the module at its open level (R454), but RESET_N and
PWR_EN driven high. DESIGN CHOICE, log 2. -/
def Pins.reset : Pins :=
  { pwrEn := true, resetN := true, perstN := true, intlkN := true, testMode := false, clk10m := false, auxGood := true,
    holdup := false, vin48 := true, pwrGood := true, bootSrc := 0, sbAddr := 0, linkUp := false, ppsOut := false,
    tout := 0 }

def Bus.reset : Bus :=
  { kgOpen := false, latches := [], readData := [], staged := [], jtagBusy := false, jtagErr := false, jtagAddr := 0, jtagData := 0,
    alert := false, sbOpen := false, irqs := [], vfEnable := false, cplAbort := [], aerAbort := [] }

/-- Between POR or PIN and the first step, device time runs from 0 (R91). -/
def Tim.reset : Tim :=
  { devT := 0, clk := 0, coreQ := 0, step := 0, rate := 0, rateLo := 0, rateNext := none, integ := 0, ref := none, recov := 0,
    savedState := 0, stepped := false, ppsFall := 0, ppsIdx := 1, toutAct := [], stepAt := 0, refills := 0 }

def Cyc.reset : Cyc :=
  { accX := 0, freq := 50000000, freqNext := none, anchMode := 4, secAt := 0, refT := none, refAngle := 0, good := 0, bad := 0,
    resume := 0, cycT0 := 0, whole := true, meanFreq := 50000000, loop := 0 }

def Ctl.reset : Ctl :=
  { stopped := [], qsc := none, rst := none, parking := [], unparking := [], hallResets := [], standby := false,
    standbyHeld := false, bootDue := true, hallJob := none }

def Atr.reset : Atr :=
  { frames := [], nextFid := 0, queues := [], nextGroup := 0, sweeping := false, rsq := [], nextRsq := 0, mir := [] }

def Gal.reset : Gal :=
  { linkNbr := [], lastHello := [], hellos := [], signSeq := 0, live := 0, reports := [], repTime := [],
    mySeq := 0, viewAt := 0, keeper := 0, standbyId := 0, segs := [], closes := [], segNum := 0, segCount := [], due := 0, inForce := none,
    ready := [], stored := none, building := none, phase := 0, tries := 0, dropped := [], handover := false, handedTo := 0, reissue := false, seen := [], spray := [],
    sent := [], repSent := none }

def Sec.reset : Sec :=
  { sensed := [], shown := [], worn := [], ce := none, ke := none, burn := none, rng := none, saKey := [],
    idScalar := 0, windows := 0, requests := 0 }

def Flt.reset : Flt :=
  { hist := [], lastUnit := [], tcamWin := [], bankWin := [], bankCorrWin := [], selfTest := false, eccNext := [], therm := false, thermWarn := false, voltWarn := [], voltCrit := [], fenceOp := none, injecting := false }

/-- The chip right after reset (POR, before the boot): every field at its reset value, no image in force (R50), nothing
held, nothing running. -/
def Chip.reset : Chip :=
  { fld := [], freeCtr := 0, pins := Pins.reset, host := [], flash := [], bus := Bus.reset, tim := Tim.reset,
    cyc := Cyc.reset, evt := [], toutFall := [], caps := [], tsq := [], tsqLost := [],
    img := { inForce := none, load := none }, ctl := Ctl.reset, fenced := [], ports := [], engs := [], pipes := [],
    tcam := [], tbl := [], tblEcc := [], tblHall := [], jobs := [], lrn := [], lrnLast := [], agerNext := 0, supSeq := [],
    atr := Atr.reset, sgate := [], gal := Gal.reset, rings := [], dma := [], halls := [], snaps := [], sec := Sec.reset,
    flt := Flt.reset, cnt := [], residue := [], aevc := [], aevcPrev := [] }

/-- The machine right after reset. The OTP array is what the board's module was made with, which the spec does not fix:
nothing burnt, so lifecycle BLANK, KZ9616-SA, 32 halls, every master privileged. DESIGN CHOICE, log 3. -/
def State.reset : State := { chip := Chip.reset, otp := [], pending := [] }

/-- Run a meaning that touches neither the OTP array nor the queue. -/
def State.onChip (s : State) (f : Chip → Chip) : State := { s with chip := f s.chip }

end Sys2Proof.Machine
end

