-- ==== Sys2Proof/Machine/Ops.lean ====
section
/-! DEFINITION. The named operations over the state: register fields with their reset values, counters, command status,
the access error log, interrupts, fault raising and the quiesce and fence states. -/

namespace Sys2Proof.Machine

/-! ## Bits, bytes and lists -/

/-- Bits [hi:lo] of a number. -/
def bits (hi lo v : Nat) : Nat := v / 2 ^ lo % 2 ^ (hi - lo + 1)

/-- Bit `k` of a number. -/
def bitOf (v k : Nat) : Bool := v / 2 ^ k % 2 = 1

/-- 1 for true. -/
def b2n (b : Bool) : Nat := if b then 1 else 0

/-- `v` with bit `k` set or cleared. -/
def setBit (v k : Nat) (b : Bool) : Nat := (if bitOf v k then v - 2 ^ k else v) + (if b then 2 ^ k else 0)

/-- A number from its bytes, the first the most significant (network byte order, R7). -/
def beNat (bs : List Nat) : Nat := bs.foldl (fun a b => a * 256 + b % 256) 0

/-- A number from its bytes, the first the least significant. -/
def leNat : List Nat → Nat
  | [] => 0
  | b :: bs => b % 256 + 256 * leNat bs

/-- The last `n` bytes of a number, most significant first. -/
def beBytes : Nat → Nat → List Nat
  | 0, _ => []
  | n + 1, v => v / 256 ^ n % 256 :: beBytes n v

/-- The low `n` bytes of a number, least significant first. -/
def leBytes : Nat → Nat → List Nat
  | 0, _ => []
  | n + 1, v => v % 256 :: leBytes n (v / 256)

/-- `n` bytes of a list from offset `o`; bytes past the end read 0. -/
def slice (l : List Nat) (o n : Nat) : List Nat := ((l.drop o).take n) ++ List.replicate (n - (l.length - o)) 0

/-- The number in network byte order at `o`, `n` bytes long. -/
def beAt (l : List Nat) (o n : Nat) : Nat := beNat (slice l o n)

/-- Add to a list that holds no repeats. -/
def insNew {α : Type} [DecidableEq α] (x : α) (l : List α) : List α := if x ∈ l then l else l ++ [x]

/-- Remove from a list. -/
def without {α : Type} [DecidableEq α] (x : α) (l : List α) : List α := l.filter (fun y => decide (y ≠ x))

/-- Bitwise and, or, xor and complement in 32 bits, as numbers. -/
def clear32 (v m : Nat) : Nat := v &&& ((2 ^ 32 - 1) ^^^ (m % 2 ^ 32))

/-- A number read as two's complement of `w` bits (R8). -/
def signed (w v : Nat) : Int := if v % 2 ^ w < 2 ^ (w - 1) then (v % 2 ^ w : Nat) else ((v % 2 ^ w : Nat) : Int) - 2 ^ w

/-- The `w`-bit two's complement of an integer (R8). -/
def unsigned (w : Nat) (x : Int) : Nat := (x % (2 ^ w : Int)).toNat

/-- The set bits of `v` below `n`, in ascending order. -/
def bitsOf (n v : Nat) : List Nat := (List.range n).filter (fun k => bitOf v k)

/-- Ceiling division. -/
def cdiv (a b : Nat) : Nat := (a + b - 1) / b

/-! ## Fuses and the image in force -/

/-- A fuse or calibration row as last sensed for behaviour (R397). -/
def Chip.fuse (c : Chip) (r : Nat) : Nat := c.sec.sensed.get 0 r

/-- The lifecycle of R395: 0 BLANK, 1 FACTORY, 2 FIELD, 3 RETIRED; a group counts when two of its three bits are 1. -/
def lifecycleOf (row0 : Nat) : Nat :=
  let grp (k : Nat) : Bool := decide (2 ≤ b2n (bitOf row0 k) + b2n (bitOf row0 (k + 1)) + b2n (bitOf row0 (k + 2)))
  if grp 6 then 3 else if grp 3 then 2 else if grp 0 then 1 else 0

def Chip.lifecycle (c : Chip) : Nat := lifecycleOf (c.fuse 0)

/-- GLB_ID.SKU: 1 for KZ9616-SN (R3, R395). -/
def Chip.sku (c : Chip) : Nat :=
  let r := c.fuse 0
  if 2 ≤ b2n (bitOf r 16) + b2n (bitOf r 17) + b2n (bitOf r 18) then 1 else 0

/-- GLB_CAP.HALL_LIMIT (R395). -/
def Chip.hallLimit (c : Chip) : Nat := 32 - bits 28 24 (c.fuse 0)

/-- The fuse default privilege map, [0] PF, [1] side-band, [2] JTAG (R376, R395). -/
def Chip.privDefault (c : Chip) : Nat := 7 - bits 2 0 (c.fuse 1)

def Chip.ftLock (c : Chip) : Bool := bitOf (c.fuse 1) 3

/-- A key slot is revoked when either of its bits is 1 (R395). -/
def Chip.keyRevoked (c : Chip) (slot : Nat) : Bool := decide (bits (5 + 2 * slot) (4 + 2 * slot) (c.fuse 1) ≠ 0)

/-- `n` fuse rows from row `r` up as one number, the first row the most significant (R395). -/
def Chip.fuseField (c : Chip) (r n : Nat) : Nat := (List.range n).foldl (fun a k => a * 2 ^ 32 + c.fuse (r + k) % 2 ^ 32) 0

/-- The SHA-384 in a key hash slot (R395). -/
def Chip.keyHash (c : Chip) (slot : Nat) : Nat := c.fuseField (8 + 12 * slot) 12

/-- The unique ID (R382). -/
def Chip.uid (c : Chip) : Nat := c.fuseField 2 4

/-- The hall classes before an image supplies them: those of the default image (R340): class 0 for hall 0, every quota at the
whole device, class 1 for the others, every quota 0. DESIGN CHOICE, log 11. -/
def defaultQuota (h w : Nat) : Nat :=
  if h ≠ 0 then 0
  else match w with
    | 0 => 393216
    | 1 => 262144
    | 2 => 65536
    | 3 => 6144
    | 4 => 65536
    | 5 => 65536
    | 6 => 131072
    | 7 => 16384
    | 8 => 16 * 2 ^ 16 + 4096
    | 9 => 16 * 2 ^ 24 + 16 * 2 ^ 16 + 255
    | _ => 0

/-- Quota word `w` of hall `h` as the image in force supplies it (R340, R480): no class is applied to a hall at or above
HALL_LIMIT, which is absent; its words then read 0 (log 132). -/
def Chip.imgQuota (c : Chip) (h w : Nat) : Nat :=
  if c.hallLimit ≤ h then 0
  else match c.img.inForce with
  | none => if w = 10 then (if h = 0 then 0 else 1) else defaultQuota h w
  | some im =>
    let cl := im.hallClass.getD h 0
    if w = 10 then cl else im.classQuota.get 0 cl w

/-- The shape words of a port (R479): queue word `q`, and the service of bay `b`. Without an image, the default image's. -/
def Chip.imgQueue (c : Chip) (n q : Nat) : Nat :=
  match c.img.inForce with
  | none => q / 4
  | some im => im.shapeQ.get 0 (im.shapeOf.getD n 0) q

def Chip.imgBay (c : Chip) (n b : Nat) : Nat :=
  match c.img.inForce with
  | none => b / 8
  | some im => im.shapeB.get 0 (im.shapeOf.getD n 0) b

/-- Pipeline of port `n` in the image map (R32, R478). -/
def Chip.imgPipe (c : Chip) (n : Nat) : Nat :=
  match c.img.inForce with
  | none => n / 24
  | some im => im.portPipe.getD n 0

/-! ## Fields -/

/-- The row of the field map for a field. -/
def rowOf (f : F) : Option Row := f.r.rows.find? (fun w => decide (w.f = f))

/-- Width of a field. -/
def F.width (f : F) : Nat := f.hi - f.lo + 1

/-- The reset values that a field map gives per index, per fuse or from the image (marked so in the spec's tables). -/
def imgReset (c : Chip) (f : F) (i j : Nat) : Option Nat :=
  match f.r with
  | .GLB_PRIV_MAP => some (bits f.lo f.lo c.privDefault)
  | .GLB_PORT_PIPE => if f.hi = 1 then some (c.imgPipe i) else none
  | .GLB_QUOTA_W0 => some (bits f.hi f.lo (c.imgQuota i 0))
  | .GLB_QUOTA_W1 => some (bits f.hi f.lo (c.imgQuota i 1))
  | .GLB_QUOTA_W2 => some (bits f.hi f.lo (c.imgQuota i 2))
  | .GLB_QUOTA_W3 => some (bits f.hi f.lo (c.imgQuota i 3))
  | .GLB_QUOTA_W4 => some (bits f.hi f.lo (c.imgQuota i 4))
  | .GLB_QUOTA_W5 => some (bits f.hi f.lo (c.imgQuota i 5))
  | .GLB_QUOTA_W6 => some (bits f.hi f.lo (c.imgQuota i 6))
  | .GLB_QUOTA_W7 => some (bits f.hi f.lo (c.imgQuota i 7))
  | .GLB_QUOTA_W8 => some (bits f.hi f.lo (c.imgQuota i 8))
  | .GLB_QUOTA_W9 => some (bits f.hi f.lo (c.imgQuota i 9))
  | .GLB_QUOTA_W10 => some (bits f.hi f.lo (c.imgQuota i 10))
  | .GLB_HPORT => if i = 0 ∧ j < 96 then some (if f.lo = 31 then 1 else j) else some 0
  | .OPT_SRC_STATUS => if f.hi = 2 then some (if j < 4 then 0 else 1) else none
  | .PIP_HASH => (c.img.inForce.map (fun im => im.hash.getD (80 * i + j) 0)).orElse (fun _ => some 0)
  | .TBL_SID_PROF => (c.img.inForce.map (fun im => bits f.hi f.lo (im.sidProf.getD i 0))).orElse (fun _ => some 0)
  | .ATR_CLASS_CFG =>
    if f.hi = 30 then some (if 5 ≤ i then 5 else if 3 ≤ i then 4 else if 1 ≤ i then 3 else 1)
    else if f.hi = 15 then some (if 5 ≤ i then 64 else 16) else none
  | .ATR_AGE_CLASS => if f.hi = 30 then some (if 6 ≤ i then 2000000 else 50000000) else none
  | .ATR_MIR_ENCAP => some (if i = 3 then 0x88B60000 else 0)
  | .SCH_Q_CFG =>
    if f.hi = 29 then some (bits 5 0 (c.imgQueue i j)) else if f.hi = 23 then some (bits 15 8 (c.imgQueue i j)) else none
  | .SCH_BAY_CFG => if f.hi = 26 then some (bits 2 0 (c.imgBay i j)) else none
  | .SCH_CLASS_MAP => some (32 * (4 * (j % 2) + f.lo / 8))
  | .HAL_ID => if f.hi = 26 then some (if i = 0 then 2 else if i < c.hallLimit then 1 else 0) else none
  | _ => none

/-- The reset value of a field. -/
def fdefault (c : Chip) (f : F) (i j : Nat) : Nat :=
  match imgReset c f i j with
  | some v => v % 2 ^ f.width
  | none => ((rowOf f).map (fun w => w.reset)).getD 0

/-- The first of three copies, unless the other two agree on another value (R379). -/
def vote (a b d : Nat) : Nat := if b = d then b else a

/-- Copy `k` of a field, `a` being the first. -/
def Chip.copyOf (c : Chip) (k a : Nat) (f : F) (i j : Nat) : Nat := alGet a ⟨k, f, i, j⟩ c.fld

/-- The present value of a field that the field store holds, in its width: what at least two of its copies hold (R379). -/
def Chip.get (c : Chip) (f : F) (i j : Nat) : Nat :=
  let a := c.copyOf 0 (fdefault c f i j) f i j
  vote a (c.copyOf 1 a f i j) (c.copyOf 2 a f i j) % 2 ^ f.width

/-- Set a field, all its copies at once; the bits above its width are dropped. -/
def Chip.set (c : Chip) (f : F) (i j v : Nat) : Chip :=
  { c with fld := alPut FKey.lt (fdefault c f i j) ⟨0, f, i, j⟩ (v % 2 ^ f.width) (alErase ⟨1, f, i, j⟩ (alErase ⟨2, f, i, j⟩ c.fld)) }

/-- The three copies of a field come to hold `a`, `b` and `d`. -/
def Chip.setCopies (c : Chip) (f : F) (i j a b d : Nat) : Chip :=
  let c1 := c.set f i j a
  let put (k v : Nat) (m : FStore) : FStore := alPut FKey.lt (a % 2 ^ f.width) ⟨k, f, i, j⟩ (v % 2 ^ f.width) m
  { c1 with fld := put 2 d (put 1 b c1.fld) }

/-- A one-bit field as a truth value. -/
def Chip.flag (c : Chip) (f : F) (i j : Nat) : Bool := decide (c.get f i j ≠ 0)

/-- Return a field to its reset value. -/
def Chip.unset (c : Chip) (f : F) (i j : Nat) : Chip :=
  { c with fld := alErase ⟨0, f, i, j⟩ (alErase ⟨1, f, i, j⟩ (alErase ⟨2, f, i, j⟩ c.fld)) }

/-! ## Counters (R370) -/

/-- A saturating counter. -/
def Chip.cntSat (c : Chip) (f : F) (i j n : Nat) : Chip := c.set f i j (min (c.get f i j + n) (2 ^ f.width - 1))

/-- A wrapping counter. -/
def Chip.cntWrap (c : Chip) (f : F) (i j n : Nat) : Chip := c.set f i j (c.get f i j + n)

/-- A wrapping counter with its sticky overflow bit. -/
def Chip.cntOvf (c : Chip) (f fo : F) (i j n : Nat) : Chip :=
  let c1 := if 2 ^ f.width ≤ c.get f i j + n then c.set fo i j 1 else c
  c1.set f i j (c.get f i j + n)

/-- A statistics counter of R437: pool, entry, index. The residue of R439 holds the events that the central reader has not
yet added. -/
def Chip.stat (c : Chip) (pool e x n : Nat) : Chip :=
  let per := match c.img.inForce with
    | none => 0
    | some im => im.perEntry.getD pool 0
  if n = 0 ∨ per ≤ x then c
  else { c with residue := c.residue.put 0 pool (32 * e + x) (c.residue.get 0 pool (32 * e + x) + n) }

/-- CNT_DEV_i: 64 bits, wrapping; held beside the pools under pool code 8. -/
def Chip.devCnt (c : Chip) (x n : Nat) : Chip :=
  { c with cnt := c.cnt.put 0 8 x ((c.cnt.get 0 8 x + n) % 2 ^ 64) }

/-- A frame discarded anywhere counts in the device total DISCARDS (R440). -/
def Chip.discard1 (c : Chip) : Chip := c.devCnt 4 1

/-! ## Free values -/

/-- Draw one free value (logs 4 to 10): the counter advances, so that two draws need not agree. -/
def Chip.free (c : Chip) : Nat × Chip := (Config.freeWord c.freeCtr, { c with freeCtr := c.freeCtr + 1 })

/-- Draw random bits from the DRBG: one generate request (R414). -/
def Chip.random (c : Chip) (nbits : Nat) : Nat × Chip :=
  (Config.freeRandom c.freeCtr % 2 ^ nbits,
   { c with freeCtr := c.freeCtr + 1, sec := { c.sec with requests := c.sec.requests + 1 } })

/-- The DRBG serves requests: SEC_RNG_STATUS.STATE is RUN (R415). -/
def Chip.drbgReady (c : Chip) : Bool := decide (c.get Fd.SEC_RNG_STATUS_STATE 0 0 = 2)

/-- SEC_KE_KEY_w clear at every reset and at each key engine completion (R411). -/
def Chip.clearKeKey (c : Chip) : Chip := (List.range 8).foldl (fun c w => c.unset Fd.SEC_KE_KEY_KEY w 0) c

/-! ## The access error log (R372, R373) -/

def kUNDEFINED : Nat := 0
def kNARROW : Nat := 1
def kUNALIGNED : Nat := 2
def kKG : Nat := 3
def kNOTLIVE : Nat := 4
def kPRIV : Nat := 5
def kREFUSED : Nat := 6
def kNOTREADY : Nat := 7

/-- Record one refused access: the first since the log was read is held, a later one sets MORE; each is counted. -/
def Chip.logErr (c : Chip) (m addr : Nat) (write : Bool) (kind : Nat) : Chip :=
  let c1 :=
    if c.flag Fd.GLB_ACCESS_ERR_VALID 0 0 then c.set Fd.GLB_ACCESS_ERR_MORE 0 0 1
    else
      ((((c.set Fd.GLB_ACCESS_ERR_VALID 0 0 1).set Fd.GLB_ACCESS_ERR_KIND 0 0 kind).set Fd.GLB_ACCESS_ERR_WRITE 0 0
        (b2n write)).set Fd.GLB_ACCESS_ERR_MASTER 0 0 m).set Fd.GLB_ACCESS_ERR_ADDR_ADDR 0 0 addr
  c1.cntOvf Fd.GLB_ACCESS_ERR_CNT_COUNT Fd.GLB_ACCESS_ERR_CNT_OVF 0 0 1

/-! ## Command status (R15 to R20) -/

def sDONE : Nat := 0
def sBUSY : Nat := 1
def sSTATE : Nat := 2
def sARG : Nat := 3
def sNOTFOUND : Nat := 4
def sNOSPACE : Nat := 5
def sPRIV : Nat := 6
def sECC : Nat := 7
def sSTALE : Nat := 8
def sQUIESCE : Nat := 9
def sTIMEOUT : Nat := 10
def sSIG : Nat := 11
def sPOINT : Nat := 12
def sSCALAR : Nat := 13
def sENTROPY : Nat := 14
def sFENCED : Nat := 15

/-- GLB_STATE_ERR_CNT counts each refusal with STATE_ERR (R78). -/
def Chip.stateErr (c : Chip) : Chip := c.cntOvf Fd.GLB_STATE_ERR_CNT_COUNT Fd.GLB_STATE_ERR_CNT_OVF 0 0 1

/-- Report an outcome in a STATUS field; STATE_ERR is also counted (R16). -/
def Chip.outcome (c : Chip) (st : F) (i j code : Nat) : Chip :=
  if code = sSTATE then (c.stateErr).set st i j code else c.set st i j code

/-- The first failing acceptance check, in the order of R17 (the caller lists them so). -/
def firstFail : List (Bool × Nat) → Option Nat
  | [] => none
  | p :: l => if p.1 then some p.2 else firstFail l

/-- A command written to its register: refused while BUSY (R20), rejected with the first failing check (R18), or started.
`args` writes the operand fields of the same register. -/
def Chip.command (c : Chip) (st : F) (i j m addr : Nat) (args : Chip → Chip) (checks : List (Bool × Nat))
    (go : Chip → Chip) : Chip :=
  if c.get st i j = sBUSY then (c.stateErr).logErr m addr true kREFUSED
  else match firstFail checks with
    | some code => (args c).outcome st i j code
    | none => go (args c)

/-! ## Time -/

/-- Device time in ns since the PTP epoch. -/
def Chip.ns (c : Chip) : Nat := c.tim.devT / 2 ^ 48

/-- Seconds and the nanoseconds within the second (R81). -/
def Chip.secs (c : Chip) : Nat := c.ns / 10 ^ 9
def Chip.nsec (c : Chip) : Nat := c.ns % 10 ^ 9

/-- TIM_STATUS.EPOCH (R91). -/
def Chip.epoch (c : Chip) : Nat := c.get Fd.TIM_STATUS_EPOCH 0 0

/-- The cycle clock accumulator in 2^-32 cu, as CYC values are compared (R100, R108): count and angle. -/
def Chip.cycAcc (c : Chip) : Nat := c.cyc.accX / 2 ^ 48 % 2 ^ 96

/-! ## Interrupts and faults -/

/-- An MSI-X message (R333). -/
def Chip.irq (c : Chip) (fn vec : Nat) : Chip := { c with bus := { c.bus with irqs := insNew (fn, vec) c.bus.irqs } }

/-- Vector 33 of a hall: timestamp queue entries, learn records, lifecycle completion (R333). -/
def Chip.hallEvent (c : Chip) (h : Nat) : Chip := c.irq h 33

def fIMAGE : Nat := 0
def fCOLLECTOR : Nat := 1
def fTV : Nat := 2
def fFUSE : Nat := 3
def fENTROPY : Nat := 4
def fTIMEJUMP : Nat := 5
def fCYCUNLOCK : Nat := 6
def fCLK10M : Nat := 7
def fLINKBUDGET : Nat := 8
def fPORT : Nat := 9
def fLSWAP : Nat := 10
def fLSPARELOW : Nat := 11
def fLDEGRADED : Nat := 12
def fLFAILED : Nat := 13
def fPIPE : Nat := 14
def fTCAM : Nat := 15
def fTABLE : Nat := 16
def fATRIUM : Nat := 17
def fBANK : Nat := 18
def fDMA : Nat := 19
def fSTAIR : Nat := 20
def fKEEPER : Nat := 21
def fTHERMW : Nat := 22
def fTHERMC : Nat := 23
def fVOLTW : Nat := 24
def fVOLTC : Nat := 25
def fHOSTLINK : Nat := 26
def fPIPEERR : Nat := 27
def fDMAERR : Nat := 28

/-- From SAFE until POR or PIN the collector logs nothing, fences nothing and raises no interrupt (R424). -/
def Chip.safe (c : Chip) : Bool := c.flag Fd.FLT_VOTE_STATUS_SAFE 0 0

/-- Write one entry of the fault history (R425): the ring of 16, the oldest overwritten when all are in use. -/
def Chip.histEntry (c : Chip) (fault unit detail : Nat) : Chip :=
  if c.safe then c
  else
    let n := c.flt.hist.length
    let slot := if n = 0 then 0 else (c.get Fd.FLT_HIST_STATUS_NEWEST 0 0 + 1) % 16
    let e : Hist :=
      { idx := slot, injected := c.flt.injecting, fault := fault, unit := unit, detail := detail,
        devT := c.tim.devT, boot := c.get Fd.FLT_HIST_STATUS_BOOT 0 0 }
    let kept := c.flt.hist.filter (fun h => decide (h.idx ≠ slot))
    let c1 := if kept.length < n then c.cntSat Fd.FLT_HIST_STATUS_OVERWRITTEN 0 0 1 else c
    ({ c1 with flt := { c1.flt with hist := kept ++ [e] } }).set Fd.FLT_HIST_STATUS_NEWEST 0 0 slot

/-- Latch, count and signal fault `f` without a history entry of its own (R420, R421). -/
def Chip.latchFault (c : Chip) (f : Nat) : Chip :=
  if c.safe then c
  else
    let was := bitOf (c.get Fd.FLT_STATUS_STATUS 0 0) f
    let c1 := (c.cntSat Fd.FLT_EVT_CNT_COUNT f 0 1).set Fd.FLT_STATUS_STATUS 0 0 (setBit (c.get Fd.FLT_STATUS_STATUS 0 0) f true)
    if was || bitOf (c.get Fd.FLT_MASK_MASK 0 0) f then c1
    else
      let c2 := c1.irq 0 34
      if bitOf (c.get Fd.FLT_ALERT_EN_ALERT_EN 0 0) f then { c2 with bus := { c2.bus with alert := true } } else c2

/-- A raising event of fault `f` at `unit` (R420, R421, R425). -/
def Chip.raiseD (c : Chip) (f unit detail : Nat) : Chip :=
  if c.safe then c
  else
    let entry := !bitOf (c.get Fd.FLT_STATUS_STATUS 0 0) f || decide (c.flt.lastUnit.get 0 f ≠ unit + 1)
    let c1 := if entry then
        let c0 := c.histEntry f unit detail
        { c0 with flt := { c0.flt with lastUnit := c0.flt.lastUnit.put 0 f (unit + 1) } }
      else c
    c1.latchFault f

def Chip.raise (c : Chip) (f unit : Nat) : Chip := c.raiseD f unit 0

/-! ## Quiesce, fence and power states -/

/-- No image is in force (R53). -/
def Chip.noImage (c : Chip) : Bool := c.img.inForce.isNone

/-- A structure load runs (R53). -/
def Chip.loading (c : Chip) : Bool := c.img.load.isSome

/-- No image is in force, or a load is BUSY: lasers off, the data path stopped, DEVICE quiesced (R53). -/
def Chip.imageOff (c : Chip) : Bool := c.noImage || c.loading

/-- A quiesce domain is stopped, directly or through its containing domain (R21, R22, R53, R62). Codes of R58. -/
def Chip.stopped (c : Chip) (d i : Nat) : Bool :=
  c.imageOff || decide ((6, 0) ∈ c.ctl.stopped) || decide ((d, i) ∈ c.ctl.stopped) ||
    (decide (d = 2) && decide ((0, i) ∈ c.ctl.stopped))

/-- A unit is fenced: kind 0 PORT, 1 PIPE, 2 TCAM, 3 DMA, 4 STAIR (R426). -/
def Chip.isFenced (c : Chip) (k i : Nat) : Bool := decide ((k, i) ∈ c.fenced)

/-- A pipeline is parked (R74). -/
def Chip.parked (c : Chip) (p : Nat) : Bool := bitOf (c.get Fd.GLB_PWR_CTRL_PARKED 0 0) p

/-- A pipeline in service: neither fenced nor parked, nor on its way into PARK or out of it (R74). -/
def Chip.pipeUp (c : Chip) (p : Nat) : Bool :=
  !c.isFenced 1 p && !c.parked p && !decide (p ∈ c.ctl.parking) && !decide (p ∈ c.ctl.unparking)

/-- The pipelines neither fenced nor parked, ascending. -/
def Chip.pipesUp (c : Chip) : List Nat := (List.range 4).filter c.pipeUp

/-- The DMA engine that serves ring `r` of hall `h` (R350): index (h + r) mod k among the k unfenced engines. -/
def Chip.ringEngine (c : Chip) (h r : Nat) : Nat :=
  let es := (List.range 4).filter (fun e => !c.isFenced 3 e)
  es.getD ((h + r) % es.length) 0

/-- The module runs: not in STANDBY, not held in reset, its rails good. -/
def Chip.running (c : Chip) : Bool := !c.ctl.standby && c.pins.resetN && c.pins.pwrGood && c.pins.auxGood

/-- CLKREQ_N, an open drain (R465): held low whenever AUX_GOOD is high, `none` where the module does not drive it. -/
def Chip.clkreqN (c : Chip) : Option Bool := if c.pins.auxGood then some false else none

/-- A hall is present (R332): below the fuse limit, and not hall 16 while the DK2408 window is decoded (R384). -/
def Chip.hallPresent (c : Chip) (h : Nat) : Bool :=
  decide (h < c.hallLimit) && !(decide (h = 16) && c.flag Fd.GLB_DKC_CTRL_EN 0 0)

/-- State of hall `h` (R342): 0 ABSENT, 1 IDLE, 2 RUN, 3 FROZEN. -/
def Chip.hallState (c : Chip) (h : Nat) : Nat :=
  if !c.hallPresent h then 0 else if h = 0 then 2 else c.get Fd.HAL_ID_STATE h 0

/-- HAL_GEN.CURRENT (R342). -/
def Chip.genCurrent (c : Chip) (h : Nat) : Bool := c.get Fd.HAL_GEN_ACK h 0 = c.get Fd.HAL_GEN_GEN h 0

/-- A command issued through the window of a hall whose generation is not current (R343); outside the windows none is stale (log 128). -/
def Chip.issueStale (c : Chip) (via : Option Nat) : Bool := (via.map (fun h => !c.genCurrent h)).getD false

def Chip.gen (c : Chip) (h : Nat) : Nat := c.get Fd.HAL_GEN_GEN h 0

/-! ## Ports, vestibules and frames held -/

def Chip.port (c : Chip) (n : Nat) : PortRt := c.ports.get PortRt.init n
def Chip.setPort (c : Chip) (n : Nat) (p : PortRt) : Chip := { c with ports := c.ports.put PortRt.init n p }
def Chip.pipe (c : Chip) (p : Nat) : PipeRt := c.pipes.get PipeRt.init p
def Chip.setPipe (c : Chip) (p : Nat) (r : PipeRt) : Chip := { c with pipes := c.pipes.put PipeRt.init p r }
def Chip.eng (c : Chip) (e : Nat) : EngRt := c.engs.get EngRt.init e
def Chip.setEng (c : Chip) (e : Nat) (r : EngRt) : Chip := { c with engs := c.engs.put EngRt.init e r }

def Chip.frame (c : Chip) (i : Nat) : Option Frame := c.atr.frames.find i
def Chip.setFrame (c : Chip) (i : Nat) (f : Frame) : Chip := { c with atr := { c.atr with frames := c.atr.frames.ins i f } }
def Chip.delFrame (c : Chip) (i : Nat) : Chip := { c with atr := { c.atr with frames := c.atr.frames.del i } }

/-- The pipeline that parses port `n` (R32). -/
def Chip.portPipe (c : Chip) (n : Nat) : Nat := c.get Fd.GLB_PORT_PIPE_PIPE n 0

/-- Link state of port `n` (R123). -/
def Chip.link (c : Chip) (n : Nat) : Nat := c.get Fd.PRT_LINK_STATUS_STATE n 0

/-- Bytes in the vestibule of port `n` (R140): each frame held counts the bytes that have arrived. -/
def Chip.vestLevel (c : Chip) (n : Nat) : Nat :=
  ((c.port n).vest.map (fun i => ((c.frame i).map (fun f => f.arrived)).getD 0)).foldl (· + ·) 0

/-! ## Ownership (R334 to R338) -/

def Chip.shared (c : Chip) (n : Nat) : Bool := c.flag Fd.GLB_PORT_OWN_SHARED n 0
def Chip.owner (c : Chip) (n : Nat) : Nat := c.get Fd.GLB_PORT_OWN_OWNER n 0

/-- The device port of local port `l` of hall `h` (R336); hall 0's map is the identity. -/
def Chip.hport (c : Chip) (h l : Nat) : Option Nat :=
  if h = 0 then (if l < 96 then some l else none)
  else if l < 96 && c.flag Fd.GLB_HPORT_VALID h l then some (c.get Fd.GLB_HPORT_PORT h l) else none

/-- The local port of hall `h` that names device port `n` (R336). -/
def Chip.localOf (c : Chip) (h n : Nat) : Option Nat :=
  if h = 0 then (if n < 96 then some n else none)
  else (List.range 96).find? (fun l => c.hport h l = some n)

/-- Hall `h` owns port `n`, or maps it as a shared port. -/
def Chip.hallHas (c : Chip) (h n : Nat) : Bool :=
  if c.shared n then (c.localOf h n).isSome else c.owner n = h

/-- The owner of leaf queue `q` of port `n` (R334): the owner of an exclusive port, or its block's owner. -/
def Chip.qOwner (c : Chip) (n q : Nat) : Nat :=
  if c.shared n then
    let k := q / 128
    match q / 32 % 4 with
    | 0 => c.get Fd.GLB_PORT_QOWN_OWNER0 n k
    | 1 => c.get Fd.GLB_PORT_QOWN_OWNER1 n k
    | 2 => c.get Fd.GLB_PORT_QOWN_OWNER2 n k
    | _ => c.get Fd.GLB_PORT_QOWN_OWNER3 n k
  else c.owner n

/-! ## What has come to rest (R60) -/

/-- Port `n` is at rest: its vestibule empty, no frame on the wire. -/
def Chip.portQuiet (c : Chip) (n : Nat) : Bool :=
  let r := c.port n
  r.vest.isEmpty && r.rx.isNone && r.tx.isNone && r.held.isNone

/-- No command of hall `h` runs in the shared engines. -/
def Chip.hallQuiet (c : Chip) (h : Nat) : Bool :=
  (c.jobs.find h).isNone && (c.snaps.find h).isNone && decide (c.get Fd.SCH_FLUSH_CMD_STATUS h 0 ≠ sBUSY) &&
    (List.range 4).all (fun p => match (c.pipe p).tcamOp with
      | some (_, _, w, _) => decide (w / 32 ≠ h)
      | none => true)

/-- A domain has come to rest. A fenced port or pipeline counts as quiesced (R59). -/
def Chip.quietOne (c : Chip) (d i : Nat) : Bool :=
  match d with
  | 0 => c.isFenced 0 i || c.portQuiet i
  | 1 => c.isFenced 1 i || (c.pipe i).buf.isEmpty
  | 2 => (c.port i).tx.isNone && (c.port i).held.isNone
  | 4 => decide (c.gal.phase ≠ 1)
  | 5 => c.hallQuiet i
  | _ => true

/-- Every domain of code `d` has come to rest. -/
def Chip.quietAll (c : Chip) (d : Nat) : Bool :=
  (List.range (match d with | 0 => 96 | 1 => 4 | 5 => 32 | _ => 1)).all (c.quietOne d)

/-- A STOP of DEVICE has come as far as the domains of code `d`: GALLERY, then every HALL, every PIPE, every PORT and TIME (R60). -/
def Chip.deviceStops (c : Chip) (d : Nat) : Bool :=
  match d with
  | 4 => true
  | 5 => c.quietAll 4
  | 1 => c.quietAll 4 && c.quietAll 5
  | 0 => c.quietAll 4 && c.quietAll 5 && c.quietAll 1
  | 2 => c.quietAll 4 && c.quietAll 5 && c.quietAll 1
  | 3 => c.quietAll 4 && c.quietAll 5 && c.quietAll 1 && c.quietAll 0
  | _ => true

/-- A STOP of the domain has begun, or it is stopped (R60): no new work starts. A STOP of DEVICE reaches the others in order, a
FREEZE stops its hall and the hall's exclusive ports (R358), a park request its pipeline (R74). -/
def Chip.stopping (c : Chip) (d i : Nat) : Bool :=
  c.stopped d i ||
    (match c.ctl.qsc with
     | none => false
     | some q => decide (q.dom = d ∧ q.idx = i) || (decide (q.dom = 6) && c.deviceStops d) ||
         (decide (d = 2) && decide (q.dom = 0 ∧ q.idx = i))) ||
    (decide (d = 1) && decide (i ∈ c.ctl.parking)) ||
    (match c.ctl.hallJob with
     | some (2, h) => decide (d = 5 ∧ i = h) ||
         (decide (d = 0 ∨ d = 2) && decide (c.get Fd.GLB_PORT_OWN_SHARED i 0 = 0 ∧ c.get Fd.GLB_PORT_OWN_OWNER i 0 = h))
     | _ => false)

/-! ## Returning fields to their reset values (R13) -/

/-- A command STATUS that reads BUSY is not touched by a reset that does not abort its command (R13). -/
def busyStatus (k : FKey) (v : Nat) : Bool := decide (k.f.hi = 31 ∧ k.f.lo = 28 ∧ v = sBUSY)

/-- Drop from the field store every field within `reach` that the reset kind (one bit of `Row.kept`) does not keep. `abort`
says whether the kind aborts commands (R69). -/
def Chip.resetFields (c : Chip) (kind : Nat) (abort : Bool) (reach : FKey → Bool) : Chip :=
  { c with fld := c.fld.filter (fun e =>
      !reach e.1 || (!abort && busyStatus e.1 e.2) ||
        (match rowOf e.1.f with
         | none => true
         | some w => decide (w.kept / kind % 2 = 1))) }

end Sys2Proof.Machine
end

