-- ==== Sys2Proof/Machine/Crypto.lean ====
section
/-! DEFINITION. The algorithms the device runs, each from its standard (R25): SHA-384 (FIPS 180-4), AES and GCM (FIPS 197,
SP 800-38D), ECDSA on P-256 and P-384 (FIPS 186-5), and the CRC-32C of R187. Bytes are numbers below 256. -/

namespace Sys2Proof.Machine

/-! ## SHA-384 -/

/-- The largest `x` with `x ^ k ≤ n`, below `2 ^ fuel`, found bit by bit. -/
def rootBits (k n : Nat) : Nat → Nat → Nat
  | 0, x => x
  | fuel + 1, x => rootBits k n fuel (if (x + 2 ^ fuel) ^ k ≤ n then x + 2 ^ fuel else x)

/-- The first 80 primes, from whose roots FIPS 180-4 takes its constants. -/
def shaPrimes : List Nat :=
  [2, 3, 5, 7, 11, 13, 17, 19, 23, 29, 31, 37, 41, 43, 47, 53, 59, 61, 67, 71, 73, 79, 83, 89, 97, 101, 103, 107, 109, 113] ++
  [127, 131, 137, 139, 149, 151, 157, 163, 167, 173, 179, 181, 191, 193, 197, 199, 211, 223, 227, 229, 233, 239, 241, 251] ++
  [257, 263, 269, 271, 277, 281, 283, 293, 307, 311, 313, 317, 331, 337, 347, 349, 353, 359, 367, 373, 379, 383, 389, 397] ++
  [401, 409]

/-- The round constants: 64 bits of the fractional parts of the cube roots. -/
def shaK : List Nat := shaPrimes.map (fun p => rootBits 3 (p * 2 ^ 192) 68 0 % 2 ^ 64)

/-- The initial hash of SHA-384: the fractional parts of the square roots of the ninth to sixteenth primes. -/
def sha384Init : List Nat := ((shaPrimes.drop 8).take 8).map (fun p => rootBits 2 (p * 2 ^ 128) 70 0 % 2 ^ 64)

def rotr64 (k x : Nat) : Nat := x / 2 ^ k + x % 2 ^ k * 2 ^ (64 - k)
def not64 (x : Nat) : Nat := 2 ^ 64 - 1 - x

/-- The message schedule: the last sixteen words first, extended word by word. -/
def shaSchedule : Nat → List Nat → List Nat
  | 0, w => w.reverse
  | n + 1, w =>
    let a := w.getD 14 0
    let b := w.getD 1 0
    let s0 := (rotr64 1 a ^^^ rotr64 8 a) ^^^ (a / 2 ^ 7)
    let s1 := (rotr64 19 b ^^^ rotr64 61 b) ^^^ (b / 2 ^ 6)
    shaSchedule n ((w.getD 15 0 + s0 + w.getD 6 0 + s1) % 2 ^ 64 :: w)

def shaRound (h : List Nat) (kw : Nat × Nat) : List Nat :=
  match h with
  | [a, b, c, d, e, f, g, hh] =>
    let s1 := (rotr64 14 e ^^^ rotr64 18 e) ^^^ rotr64 41 e
    let ch := (e &&& f) ^^^ (not64 e &&& g)
    let t1 := hh + s1 + ch + kw.1 + kw.2
    let s0 := (rotr64 28 a ^^^ rotr64 34 a) ^^^ rotr64 39 a
    let maj := ((a &&& b) ^^^ (a &&& c)) ^^^ (b &&& c)
    [(t1 + s0 + maj) % 2 ^ 64, a, b, c, (d + t1) % 2 ^ 64, e, f, g]
  | _ => h

def shaBlock (ks : List Nat) (h : List Nat) (block : List Nat) : List Nat :=
  let w := (List.range 16).map (fun i => beAt block (8 * i) 8)
  let sched := shaSchedule 64 w.reverse
  List.zipWith (fun a b => (a + b) % 2 ^ 64) h ((ks.zip sched).foldl shaRound h)

def shaBlocks (ks : List Nat) : Nat → List Nat → List Nat → List Nat
  | 0, h, _ => h
  | n + 1, h, m => shaBlocks ks n (shaBlock ks h (m.take 128)) (m.drop 128)

/-- SHA-384 of a byte string, 48 bytes. -/
def sha384 (m : List Nat) : List Nat :=
  let l := m.length
  let pad := (112 + 128 - (l + 1) % 128) % 128
  let msg := m ++ [128] ++ List.replicate pad 0 ++ beBytes 16 (8 * l)
  ((shaBlocks shaK (msg.length / 128) sha384Init msg).take 6).flatMap (beBytes 8)

/-! ## AES and GCM -/

def xtime (a : Nat) : Nat := (2 * a % 256) ^^^ (if 128 ≤ a then 27 else 0)

/-- Product in GF(2^8), over the bits of `b`. -/
def gmul : Nat → Nat → Nat → Nat
  | 0, _, _ => 0
  | fuel + 1, a, b => (if b % 2 = 1 then a else 0) ^^^ gmul fuel (xtime a) (b / 2)

/-- Inverse in GF(2^8): the 254th power. -/
def ginv (a : Nat) : Nat :=
  let m (x y : Nat) : Nat := gmul 8 x y
  let a2 := m a a
  let a4 := m a2 a2
  let a8 := m a4 a4
  let a16 := m a8 a8
  let a32 := m a16 a16
  let a64 := m a32 a32
  let a128 := m a64 a64
  m a128 (m a64 (m a32 (m a16 (m a8 (m a4 a2)))))

/-- The S-box: the inverse, then the affine map. -/
def sbox (a : Nat) : Nat :=
  let b := ginv a
  let r (k : Nat) : Nat := (b * 2 ^ k) % 256 + b / 2 ^ (8 - k)
  ((((b ^^^ r 1) ^^^ r 2) ^^^ r 3) ^^^ r 4) ^^^ 99

def xorBytes (a b : List Nat) : List Nat := List.zipWith (fun x y => x ^^^ y) a b

/-- The key schedule; words newest first. -/
def aesExpand (nk : Nat) : Nat → Nat → Nat → List (List Nat) → List (List Nat)
  | 0, _, _, ws => ws.reverse
  | n + 1, i, rcon, ws =>
    let t := ws.headD []
    let first := decide (i % nk = 0)
    let t1 := if first then xorBytes ((t.drop 1 ++ t.take 1).map sbox) [rcon, 0, 0, 0]
      else if nk = 8 ∧ i % nk = 4 then t.map sbox else t
    aesExpand nk n (i + 1) (if first then xtime rcon else rcon) (xorBytes (ws.getD (nk - 1) []) t1 :: ws)

/-- The round keys of a 16- or 32-byte key, 16 bytes each. -/
def aesKeys (key : List Nat) : List (List Nat) :=
  let nk := if key.length = 32 then 8 else 4
  let total := 4 * (nk + 7)
  let ws := aesExpand nk (total - nk) nk 1 ((List.range nk).map (fun i => slice key (4 * i) 4)).reverse
  (List.range (nk + 7)).map (fun r => ((ws.drop (4 * r)).take 4).flatMap id)

def aesShift (s : List Nat) : List Nat := (List.range 16).map (fun i => s.getD ((i + 4 * (i % 4)) % 16) 0)

def aesMixCol (c : List Nat) : List Nat :=
  match c with
  | [a, b, d, e] =>
    [((xtime a ^^^ (xtime b ^^^ b)) ^^^ d) ^^^ e, ((a ^^^ xtime b) ^^^ (xtime d ^^^ d)) ^^^ e,
     ((a ^^^ b) ^^^ xtime d) ^^^ (xtime e ^^^ e), (((xtime a ^^^ a) ^^^ b) ^^^ d) ^^^ xtime e]
  | _ => c

def aesRounds : List (List Nat) → List Nat → List Nat
  | [], s => s
  | [k], s => xorBytes (aesShift (s.map sbox)) k
  | k :: ks, s =>
    let t := aesShift (s.map sbox)
    aesRounds ks (xorBytes ((List.range 4).flatMap (fun i => aesMixCol ((t.drop (4 * i)).take 4))) k)

/-- Encrypt one block under expanded keys. -/
def aesBlock (ks : List (List Nat)) (b : List Nat) : List Nat :=
  match ks with
  | [] => b
  | k :: rest => aesRounds rest (xorBytes b k)

/-- Product in GF(2^128) with the bit order of SP 800-38D. -/
def ghMul : Nat → Nat → Nat → Nat → Nat
  | 0, _, _, z => z
  | n + 1, x, v, z =>
    ghMul n x (if v % 2 = 1 then v / 2 ^^^ (225 * 2 ^ 120) else v / 2) (if bitOf x n then z ^^^ v else z)

/-- Split into 16-byte blocks, the last padded with zeros. -/
def blocks16 (l : List Nat) : List (List Nat) := (List.range (cdiv l.length 16)).map (fun i => slice l (16 * i) 16)

def ghash (h : Nat) (bs : List (List Nat)) : Nat := bs.foldl (fun y b => ghMul 128 (y ^^^ beNat b) h 0) 0

/-- The GCM key stream applied to a text. -/
def gcmCtr (ks : List (List Nat)) (iv : List Nat) (text : List Nat) : List Nat :=
  ((List.range (cdiv text.length 16)).flatMap (fun i => aesBlock ks (iv ++ beBytes 4 (i + 2)))).zipWith (fun a b => b ^^^ a) text

def gcmTag (ks : List (List Nat)) (iv aad ct : List Nat) : List Nat :=
  let h := beNat (aesBlock ks (List.replicate 16 0))
  let s := ghash h (blocks16 aad ++ blocks16 ct ++ [beBytes 8 (8 * aad.length) ++ beBytes 8 (8 * ct.length)])
  xorBytes (beBytes 16 s) (aesBlock ks (iv ++ [0, 0, 0, 1]))

/-- AES-GCM encryption with a 96-bit IV: ciphertext and 128-bit tag. -/
def gcmSeal (key iv aad pt : List Nat) : List Nat × List Nat :=
  let ks := aesKeys key
  let ct := gcmCtr ks iv pt
  (ct, gcmTag ks iv aad ct)

/-- AES-GCM decryption: the plaintext, when the tag agrees. -/
def gcmOpen (key iv aad ct tag : List Nat) : Option (List Nat) :=
  let ks := aesKeys key
  if gcmTag ks iv aad ct = tag then some (gcmCtr ks iv ct) else none

/-! ## Elliptic curves -/

structure Curve where
  p : Nat
  b : Nat
  gx : Nat
  gy : Nat
  n : Nat
  nbits : Nat
  deriving DecidableEq, Repr

def p256 : Curve :=
  { p := 2 ^ 256 - 2 ^ 224 + 2 ^ 192 + 2 ^ 96 - 1
    b := 0x5ac635d8aa3a93e7b3ebbd55769886bc651d06b0cc53b0f63bce3c3e27d2604b
    gx := 0x6b17d1f2e12c4247f8bce6e563a440f277037d812deb33a0f4a13945d898c296
    gy := 0x4fe342e2fe1a7f9b8ee7eb4a7c0f9e162bce33576b315ececbb6406837bf51f5
    n := 0xffffffff00000000ffffffffffffffffbce6faada7179e84f3b9cac2fc632551
    nbits := 256 }

def p384 : Curve :=
  { p := 2 ^ 384 - 2 ^ 128 - 2 ^ 96 + 2 ^ 32 - 1
    b := 0xb3312fa7e23ee7e4988e056be3f82d19181d9c6efe8141120314088f5013875ac656398d8a2ed19d2a85c8edd3ec2aef
    gx := 0xaa87ca22be8b05378eb1c71ef320ad746e1d3b628ba79b9859f741e082542a385502f25dbf55296c3a545e3872760ab7
    gy := 0x3617de4a96262c6f5d9e98bf9292dc29f8f41dbd289a147ce9da3113b5f0b8c00a60b1ce1d7e819d7a431d7c90ea0e5f
    n := 0xffffffffffffffffffffffffffffffffffffffffffffffffc7634d81f4372ddf581a0db248b0a77aecec196accc52973
    nbits := 384 }

def curveOf (code : Nat) : Curve := if code = 0 then p256 else p384

/-- `a ^ e mod m`, over the low `fuel` bits of `e`. -/
def powMod (m : Nat) : Nat → Nat → Nat → Nat → Nat
  | 0, _, _, r => r
  | fuel + 1, a, e, r => powMod m fuel (a * a % m) (e / 2) (if e % 2 = 1 then r * a % m else r)

def invMod (m a : Nat) : Nat := powMod m 384 (a % m) (m - 2) 1

/-- A point; `none` is the point at infinity. -/
abbrev Point := Option (Nat × Nat)

def onCurve (c : Curve) (x y : Nat) : Bool :=
  decide (x < c.p ∧ y < c.p ∧ y * y % c.p = (x * x * x + 3 * (c.p - 1) * x + c.b) % c.p)

/-- A point in Jacobian coordinates, (x / z², y / z³); z is 0 at infinity. -/
structure JPoint where
  x : Nat
  y : Nat
  z : Nat
  deriving DecidableEq, Repr

def jInfinity : JPoint := { x := 1, y := 1, z := 0 }

def jDouble (c : Curve) (a : JPoint) : JPoint :=
  let d := a.z * a.z % c.p
  let g := a.y * a.y % c.p
  let b := a.x * g % c.p
  let m := 3 * (a.x + c.p - d) * (a.x + d) % c.p
  let x := (m * m + 8 * (c.p - b)) % c.p
  { x := x, y := (m * (4 * b + c.p - x) + 8 * (c.p - g * g % c.p)) % c.p, z := 2 * a.y * a.z % c.p }

def jAdd (c : Curve) (a b : JPoint) : JPoint :=
  let za := a.z * a.z % c.p
  let zb := b.z * b.z % c.p
  let u := a.x * zb % c.p
  let s := a.y * zb * b.z % c.p
  let h := (b.x * za + c.p - u) % c.p
  let r := (b.y * za * a.z + c.p - s) % c.p
  if a.z = 0 then b
  else if b.z = 0 then a
  else if h = 0 then (if r = 0 then jDouble c a else jInfinity)
  else
    let hh := h * h % c.p
    let hhh := h * hh % c.p
    let v := u * hh % c.p
    let x := (r * r + 3 * c.p - hhh - 2 * v) % c.p
    { x := x, y := (r * (v + c.p - x) + c.p - s * hhh % c.p) % c.p, z := h * a.z * b.z % c.p }

/-- Scalar multiple over the low `fuel` bits. -/
def jMul (c : Curve) : Nat → Nat → JPoint → JPoint → JPoint
  | 0, _, _, acc => acc
  | fuel + 1, k, q, acc => jMul c fuel (k / 2) (jDouble c q) (if k % 2 = 1 then jAdd c acc q else acc)

def JPoint.ofPoint (q : Point) : JPoint :=
  match q with
  | none => jInfinity
  | some (x, y) => { x := x, y := y, z := 1 }

def JPoint.toPoint (c : Curve) (a : JPoint) : Point :=
  if a.z = 0 then none
  else
    let w := invMod c.p a.z
    some (a.x * w * w % c.p, a.y * w * w * w % c.p)

def jScalar (c : Curve) (k : Nat) (q : Point) : JPoint := jMul c c.nbits k (JPoint.ofPoint q) jInfinity

def scalarMul (c : Curve) (k : Nat) (q : Point) : Point := (jScalar c k q).toPoint c

def basePoint (c : Curve) : Point := some (c.gx, c.gy)

/-- The integer of a 48-byte digest field: its leftmost bits, as many as the order has (FIPS 186-5, R406). -/
def digestInt (c : Curve) (digest : Nat) : Nat := digest / 2 ^ (384 - c.nbits)

/-- The verification equation; r and s outside 1 to n - 1 are invalid. -/
def ecdsaVerify (c : Curve) (qx qy digest r s : Nat) : Bool :=
  if r = 0 ∨ c.n ≤ r ∨ s = 0 ∨ c.n ≤ s then false
  else
    let w := powMod c.n 384 (s % c.n) (c.n - 2) 1
    let u1 := digestInt c digest * w % c.n
    let u2 := r * w % c.n
    match (jAdd c (jScalar c u1 (basePoint c)) (jScalar c u2 (some (qx, qy)))).toPoint c with
    | none => false
    | some (x, _) => decide (x % c.n = r)

/-- A signature with secret scalar `d` and per-message secret `k`. -/
def ecdsaSign (c : Curve) (d k digest : Nat) : Nat × Nat :=
  match scalarMul c k (basePoint c) with
  | none => (0, 0)
  | some (x, _) =>
    let r := x % c.n
    (r, powMod c.n 384 (k % c.n) (c.n - 2) 1 * ((digestInt c digest + r * d) % c.n) % c.n)

/-- The per-message secret of the extra-random-bits method: nbits + 64 random bits, reduced modulo n - 1, plus 1. -/
def extraBitsSecret (c : Curve) (rnd : Nat) : Nat := rnd % (c.n - 1) + 1

/-! ## CRC-32C (R187, R486) -/

/-- Eight shifts of the reflected CRC-32C register. -/
def crcShift : Nat → Nat → Nat
  | 0, r => r
  | n + 1, r => crcShift n (if r % 2 = 1 then r / 2 ^^^ 0x82F63B78 else r / 2)

def crcByte (r b : Nat) : Nat := crcShift 8 (r ^^^ (b % 256))

/-- The CRC-32C register over bytes from `start`, then complemented. -/
def crc32c (start : Nat) (bs : List Nat) : Nat := (bs.foldl crcByte start) ^^^ (2 ^ 32 - 1)

end Sys2Proof.Machine
end

