-- ==== Sys2Proof/Machine/Operands.lean ====
section
/-! DEFINITION. How an access reaches a register: the address map with the hall windows (R362, R363, R337 to R339), which
regions respond (R53, R368, R461), the masters and their privilege (R12, R376, R378), the KG lock (R10, R375), the plain
write of a register's fields with the live rule (R63, R484). -/

namespace Sys2Proof.Machine

/-- The side-band and JTAG masters (MASTER codes of R372). -/
def mSB : Nat := 32
def mJTAG : Nat := 33

/-- What an address names. -/
inductive Target where
  /-- A single register; `via` is the hall whose window or aperture carries the access. -/
  | reg (r : R) (i j : Nat) (via : Option Nat)
  /-- An offset in the DK2408 window while it is decoded (R384). -/
  | dkc (x : Nat)
  /-- A window of an absent hall, or an aperture without a port: reads 0, writes ignored and recorded (R332, R339). -/
  | dead
  /-- An address that nothing decodes (R362, R367). -/
  | undefined
  deriving DecidableEq, Repr

/-- The place of register `r` at `addr`, if it lies there (R363). -/
def R.at (r : R) (addr : Nat) : Option (Nat × Nat) :=
  let l := r.layout
  if addr < l.base then none
  else
    let o := addr - l.base
    let i := if l.s1 = 0 then 0 else o / l.s1
    let o1 := o - l.s1 * i
    let a := if l.s2 = 0 then 0 else o1 / l.s2
    let o2 := o1 - l.s2 * a
    let b := if l.s3 = 0 then 0 else o2 / l.s3
    if l.s1 * i + l.s2 * a + l.s3 * b = o ∧ i < l.n1 ∧ a < l.n2 ∧ b < l.n3 then some (i, a * l.n3 + b) else none

/-- The register at a native address. -/
def decodeIn (rs : List R) (addr : Nat) : Option (R × Nat × Nat) := rs.findSome? (fun r => (r.at addr).map (fun p => (r, p.1, p.2)))

def decodeNative (addr : Nat) : Option (R × Nat × Nat) := decodeIn R.all addr

/-- The registers each hall has a slot of: in the native map slot 0, in the window of hall h slot h (R214, R303, R441). -/
def R.slotted (r : R) : Bool := decide (r.layout.n1 = 1 ∧ r.count = 32)

/-- Where offset `x` of the window of hall `h` leads (R337 to R339, R441). -/
def decodeWindow (c : Chip) (h x : Nat) : Target :=
  let native (a : Nat) : Target :=
    match decodeNative a with
    | some (r, i, j) => .reg r (if r.slotted then h else i) j (some h)
    | none => .undefined
  if 0x2000 ≤ x ∧ x < 0x2018 then
    let y := x - 0x2000
    if y < 0x0C then native (0x200010 + y) else if y = 0x10 ∨ y = 0x14 then native (0x200108 + (y - 0x10)) else .undefined
  else if 0x3000 ≤ x ∧ x < 0x3C00 then
    match c.hport h ((x - 0x3000) / 0x20) with
    | some n => native (0x204000 + 0x20 * n + (x - 0x3000) % 0x20)
    | none => .dead
  else if 0x4400 ≤ x ∧ x < 0x5000 then
    let a := 0xC00000 + (x - 0x4000)
    if 0xC00800 ≤ a then .undefined else native a
  else if x = 0x5000 ∨ x = 0x5004 then native (0x1580000 + (x - 0x5000))
  else if 0x6000 ≤ x ∧ x < 0x7000 then
    let p := (x - 0x6000) / 0x400
    let y := (x - 0x6000) % 0x400
    if y < 0xC0 then native (0x800100 + 0x100000 * p + y)
    else if y = 0x100 then native (0x800200 + 0x100000 * p) else .undefined
  else if 0x80000 ≤ x ∧ x < 0x88000 then
    match c.hport h (c.get Fd.HAL_APERTURE_SEL_SEL h 0) with
    | none => .dead
    | some n => if x < 0x84000 then native (0x400000 + 0x4000 * n + (x - 0x80000)) else native (0x1400000 + 0x4000 * n + (x - 0x84000))
  else if x = 0xE0000 then native 0x1E00040
  else if 0xE0010 ≤ x ∧ x < 0xE0030 then native (0x1E00000 + (x - 0xE0000))
  else if 0xF0000 ≤ x then native (0x1E10000 + (x - 0xF0000))
  else
    match decodeNative (0x2000000 + 0x100000 * h + x) with
    | some (r, i, j) => .reg r i j (some h)
    | none => .undefined

/-- Decode an address of the PF BAR0 map (R362, R367, R384). -/
def decodeAddr (c : Chip) (addr : Nat) : Target :=
  if 0x4000000 ≤ addr then .undefined
  else if 0x2000000 ≤ addr then
    let h := (addr - 0x2000000) / 0x100000
    let x := addr % 0x100000
    if h = 16 ∧ c.flag Fd.GLB_DKC_CTRL_EN 0 0 then .dkc x
    else if h = 16 ∧ c.hallLimit ≤ 16 then .undefined
    else if !c.hallPresent h then .dead
    else decodeWindow c h x
  else
    match decodeNative addr with
    | some (r, i, j) => .reg r i j none
    | none => .undefined

/-- The PF BAR0 address of a single register, as the access log records it (R372). -/
def addrOf (r : R) (i j : Nat) : Nat :=
  let l := r.layout
  let off := l.s2 * (j / l.n3) + l.s3 * (j % l.n3)
  if r.slotted ∧ i ≠ 0 then
    let w := 0x2000000 + 0x100000 * i
    let a := l.base + off
    if a < 0x1000000 then w + 0x4000 + (a - 0xC00000)
    else if a < 0x1600000 then w + 0x5000 + (a - 0x1580000)
    else if a = 0x1E00040 then w + 0xE0000
    else w + 0xE0000 + (a - 0x1E00000)
  else l.base + l.s1 * i + off

/-- The address by which the window of hall `via` carries a single register (R337, R441); without a window, the native one. -/
def Chip.accAddr (c : Chip) (via : Option Nat) (r : R) (i j : Nat) : Nat :=
  match via with
  | none => addrOf r i j
  | some h =>
    let w := 0x2000000 + 0x100000 * h
    let a := addrOf r (if r.slotted then 0 else i) j
    if 0x2000000 ≤ a then a
    else if 0x200010 ≤ a ∧ a < 0x20001C then w + 0x2000 + (a - 0x200010)
    else if 0x200108 ≤ a ∧ a < 0x200110 then w + 0x2010 + (a - 0x200108)
    else if 0x204000 ≤ a ∧ a < 0x204C00 then w + 0x3000 + 0x20 * (c.localOf h i).getD 0 + (a - 0x204000) % 0x20
    else if 0xC00400 ≤ a ∧ a < 0xC00800 then w + 0x4000 + (a - 0xC00000)
    else if 0x1580000 ≤ a ∧ a < 0x1580008 then w + 0x5000 + (a - 0x1580000)
    else if 0x800000 ≤ a ∧ a < 0xC00000 then
      w + 0x6000 + 0x400 * i + (if (a - 0x800000) % 0x100000 = 0x200 then 0x100 else (a - 0x800000) % 0x100000 - 0x100)
    else if 0x400000 ≤ a ∧ a < 0x580000 then w + 0x80000 + (a - 0x400000) % 0x4000
    else if 0x1400000 ≤ a ∧ a < 0x1580000 then w + 0x84000 + (a - 0x1400000) % 0x4000
    else if a = 0x1E00040 then w + 0xE0000
    else w + 0xE0000 + (a - 0x1E00000)

/-- The log of an access that went by the address `a`: what `f` has captured since, under another name of the register, is
captured under that address (R372). -/
def Chip.logAs (c : Chip) (a : Nat) (f : Chip → Chip) : Chip :=
  let c1 := f c
  if !c.flag Fd.GLB_ACCESS_ERR_VALID 0 0 && c1.flag Fd.GLB_ACCESS_ERR_VALID 0 0 then c1.set Fd.GLB_ACCESS_ERR_ADDR_ADDR 0 0 a else c1

/-! ## Which master may, and which region answers -/

/-- A privileged master (R12, R376, R377): hall 0 on the PF, the side-band and JTAG, unless the map excludes them. -/
def Chip.priv (c : Chip) (m : Nat) : Bool :=
  if m = 0 then c.flag Fd.GLB_PRIV_MAP_PF 0 0
  else if m = mSB then c.flag Fd.GLB_PRIV_MAP_SB 0 0
  else if m = mJTAG then c.flag Fd.GLB_PRIV_MAP_JTAG 0 0
  else false

/-- What becomes of an access before it reaches its register. -/
inductive Reach where
  /-- Nothing answers: the link is down, the virtual functions are not enabled (R332), or the auxiliary rail is off. -/
  | absent
  /-- Reads 0, writes ignored, no record (R368 in STANDBY, R461 while RESET_N is low). -/
  | silent
  /-- Reads 0, writes ignored, KIND NOT_READY (R53, R368). -/
  | notReady
  | ok
  deriving DecidableEq, Repr

/-- The registers the side-band reaches in STANDBY (R368), by address: GLB_ID to GLB_UNLOCK, side-band control, GLB_PWR_CTRL,
the fault history, the TIM_ time and cycle registers. -/
def standbySubset (a : Nat) : Bool :=
  decide (a < 0x8 ∨ (0x10 ≤ a ∧ a < 0x24) ∨ (0x80 ≤ a ∧ a < 0x88) ∨ a = 0x500 ∨ (0x100100 ≤ a ∧ a < 0x100210) ∨
    (0x200010 ≤ a ∧ a < 0x20001C) ∨ (0x200100 ≤ a ∧ a < 0x20012C))

/-- How far an access to PF address `a` comes (R53, R368, R461). -/
def Chip.reach (c : Chip) (m a : Nat) (write : Bool) : Reach :=
  if !c.pins.auxGood then .absent
  else if m < 32 ∧ !c.pins.linkUp then .absent
  else if 1 ≤ m ∧ m < 32 ∧ !c.bus.vfEnable then .absent
  else if !c.pins.resetN then (if m < 32 then .absent else if standbySubset a ∧ !write then .ok else .silent)
  else if c.ctl.standby || !c.pins.pwrGood then (if m = mSB ∧ standbySubset a then .ok else .silent)
  else if c.imageOff && !decide (a < 0x400000 ∨ (0x1C00000 ≤ a ∧ a < 0x1E00000)) then .notReady
  else
    match c.ctl.rst with
    | some (1, _) => if a < 0x400000 then .ok else .notReady
    | _ => .ok

/-- Re-arm the KG lock (R10). -/
def Chip.rearm (c : Chip) : Chip := { c with bus := { c.bus with kgOpen := false } }

/-- A register that holds a KG field (R375). -/
def R.guarded (r : R) : Bool := r.rows.any (fun w => w.kg)

/-- A native PRT_ or SCH_ access made by a virtual function is one through its aperture (R337). Otherwise the access of a
master reaches the native map only from the PF, the side-band and JTAG. -/
def viaOf (m : Nat) : Option Nat := if 1 ≤ m ∧ m < 32 then some m else none

/-- The window that carries a write of slot `h`: the native slot is hall 0's, which no virtual function reaches. -/
def slotVia (m h : Nat) : Option Nat := if h = 0 ∧ ¬(1 ≤ m ∧ m < 32) then none else some h

/-- The registers of the port apertures (R337). -/
def R.isPrt (r : R) : Bool := decide (0x400000 ≤ r.layout.base ∧ r.layout.base < 0x580000)
def R.isSch (r : R) : Bool := decide (0x1400000 ≤ r.layout.base ∧ r.layout.base < 0x1580000)

/-- The registers that a hall window carries at all (R337). -/
def R.inWindow (r : R) : Bool :=
  decide (0x2000000 ≤ r.layout.base) || r.isPrt || r.isSch || r.slotted ||
    decide (r = .TIM_TIME_NS ∨ r = .TIM_TIME_SEC_LO ∨ r = .TIM_TIME_SEC_HI ∨ r = .TIM_CYC_ANGLE ∨ r = .TIM_CYC_COUNT ∨
      r = .TIM_TSQ_STATUS ∨ r = .TIM_TSQ_W ∨ r = .PIP_TCAM_STAGE ∨ r = .PIP_TCAM_CMD)

/-- What hall `h` may do to a PRT_ or SCH_ register of port `n` through its aperture (R339): `none` it may; `some k` it may
not, recorded with KIND `k` when it writes. Hall 0 may everything. -/
def apertureBar (c : Chip) (h : Nat) (r : R) (n j : Nat) : Option Nat :=
  if h = 0 then none
  else if !c.hallHas h n then some kPRIV
  else if !c.shared n then none
  else if r.isPrt then some kPRIV
  else
    match r with
    | .SCH_Q_CFG => if c.qOwner n j = h then none else some kREFUSED
    | .SCH_Q_DEPTH => if c.qOwner n j = h then none else some kREFUSED
    | .SCH_Q_FRAMES => if c.qOwner n j = h then none else some kREFUSED
    | .SCH_CLASS_MAP => if j / 2 = h then none else some kREFUSED
    | _ => some kPRIV

/-- The registers of the time unit, which privileged masters hold (R113). -/
def R.isTim (r : R) : Bool := decide (0x200000 ≤ r.layout.base ∧ r.layout.base < 0x400000)

/-- A write that master `m` may not make for want of privilege: any of the side-band or JTAG (R378), one of a time unit's control
(R113). -/
def Chip.barsWrite (c : Chip) (m : Nat) (via : Option Nat) (r : R) : Bool :=
  !c.priv m && (decide (m = mSB ∨ m = mJTAG) || (via.isNone && r.isTim))

/-- A write by master `m` to register `r`, through the window of `via` if any: the KG lock re-arms, and when the access
reaches the register, `k kgOpen` is its effect. -/
def Chip.withWrite (c : Chip) (m : Nat) (via : Option Nat) (r : R) (i j : Nat) (k : Bool → Chip → Chip) : Chip :=
  let a := c.accAddr via r i j
  match c.reach m a true with
  | .absent => c
  | .silent => c.rearm
  | .notReady => (c.rearm).logErr m a true kNOTREADY
  | .ok =>
    let kg := c.bus.kgOpen && r.guarded
    if c.barsWrite m via r then (c.rearm).logErr m a true kPRIV
    else
      match via with
      | none => (c.rearm).logAs a (k kg)
      | some h =>
        if !r.inWindow || decide (1 ≤ m ∧ m < 32 ∧ h ≠ m) then c
        else if !c.hallPresent h then (c.rearm).logErr m a true kREFUSED
        else if r.isPrt || r.isSch then
          match apertureBar c h r i j with
          | some kind => (c.rearm).logErr m a true kind
          | none => (c.rearm).logAs a (k kg)
        else (c.rearm).logAs a (k kg)

/-! ## The plain write -/

/-- The domain of a register runs (R63). -/
def domRunning (c : Chip) (r : R) (i : Nat) : Bool :=
  match r.dom with
  | .device => !c.stopped 6 0
  | .port => !c.stopped 0 i
  | .gate => !c.stopped 2 i
  | .pipe => !c.stopped 1 i
  | .time => !c.stopped 3 0
  | .gallery => !c.stopped 4 0
  | .hall => !c.stopped 5 i
  | .pair => c.flag Fd.RED_PAIR_CFG_ACTIVE i 0
  | .lane => false

/-- A field value that its map says is ignored and logged (R472). -/
def refusedValue (f : F) (v : Nat) : Bool :=
  decide ((f = Fd.TIM_CTRL_SERVO_SRC ∨ f = Fd.TIM_CTRL_TC_MODE ∨ f = Fd.TIM_CYC_CTRL_BW ∨ f = Fd.PRT_MACSEC_CTRL_CONF_OFFSET ∨
    f = Fd.PRT_ERR_REACT_REACTION) ∧ v = 3)

/-- The first kind of refusal met, in the order PRIV, KG_LOCKED, NOT_LIVE, REFUSED: one access is one record. DESIGN CHOICE,
log 12. -/
def worseKind (a b : Option Nat) : Option Nat :=
  match a, b with
  | none, b => b
  | a, none => a
  | some x, some y =>
    let rank (k : Nat) : Nat := if k = kPRIV then 0 else if k = kKG then 1 else if k = kNOTLIVE then 2 else 3
    some (if rank x ≤ rank y then x else y)

/-- The write of one field (R9, R11, R63, R378, R472): what it becomes, and why it was refused. Write-only fields hold
nothing; a write-only KG field counts as holding 0. -/
def writeField (m : Nat) (kg running : Bool) (i j v : Nat) (a : Chip × Option Nat) (w : Row) : Chip × Option Nat :=
  let c := a.1
  let x := bits w.f.hi w.f.lo v
  if w.pv && !c.priv m then (c, worseKind a.2 (some kPRIV))
  else match w.acc with
  | .ro => a
  | .rc => a
  | .wo => if w.kg && !kg && decide (x ≠ 0) then (c, worseKind a.2 (some kKG)) else a
  | .rw =>
    let cur := c.get w.f i j
    if w.kg && !kg then (if x = cur then a else (c, worseKind a.2 (some kKG)))
    else if !w.live && running then (if x = cur then a else (c, worseKind a.2 (some kNOTLIVE)))
    else if refusedValue w.f x then (if x = cur then a else (c, worseKind a.2 (some kREFUSED)))
    else (c.set w.f i j x, a.2)

/-- Write all fields of a register; the refusals are recorded as one access. -/
def Chip.plainWrite (c : Chip) (m : Nat) (kg : Bool) (r : R) (i j v : Nat) : Chip :=
  let running := domRunning c r i
  let p := r.rows.foldl (writeField m kg running i j v) (c, none)
  match p.2 with
  | none => p.1
  | some kind => p.1.logErr m (addrOf r i j) true kind

/-- The fields that a command's own register carries beside its OP, written as the command is accepted or rejected. -/
def Chip.writeArgs (c : Chip) (fs : List (F × Nat)) (i j : Nat) : Chip := fs.foldl (fun c p => c.set p.1 i j p.2) c

/-- A write that a rule ignores and records (R373). -/
def Chip.refuse (c : Chip) (m : Nat) (r : R) (i j : Nat) : Chip := c.logErr m (addrOf r i j) true kREFUSED

/-- A write of `v` to register (r, i, j) that is ignored whole because its domain runs: NOT_LIVE where it would change a field
(R63, R373). DEDUCED, log 81. -/
def Chip.refuseRunning (c : Chip) (m : Nat) (r : R) (i j v : Nat) : Chip :=
  c.logErr m (addrOf r i j) true
    (if r.rows.any (fun w => decide (bits w.f.hi w.f.lo v ≠ c.get w.f i j)) then kNOTLIVE else kREFUSED)

/-- The command fields of a register that an armed KG lock leaves unchanged: the write is recorded, and starts nothing (R11). -/
def Chip.kgRefuse (c : Chip) (m : Nat) (r : R) (i j : Nat) : Chip := c.logErr m (addrOf r i j) true kKG

end Sys2Proof.Machine
end

