-- ==== Sys2Proof/Machine/Clock.lean ====
section
/-! DEFINITION. Device time, the cycle clock and their edge: the advance of one TIME_CLK edge (R80, R100), rate commits (R82),
the servo (R94, R95), the cycle clock's anchor and its reference loop (R102 to R105). -/

namespace Sys2Proof.Machine

/-- The servo states of R95. -/
def svUNSET : Nat := 0
def svTRACK : Nat := 1
def svHOLDOVER : Nat := 2
def svSTOPPED : Nat := 3

/-- The cycle clock states of R101. -/
def cyNOMINAL : Nat := 0
def cyACQUIRE : Nat := 1
def cyPULLIN : Nat := 2
def cyLOCKED : Nat := 3
def cyHOLD : Nat := 4
def cyFREE : Nat := 5

def Chip.servo (c : Chip) : Nat := c.get Fd.TIM_STATUS_SERVO_STATE 0 0
def Chip.cycMode (c : Chip) : Nat := c.get Fd.TIM_CYC_CTRL_MODE 0 0
def Chip.anchored (c : Chip) : Bool := c.flag Fd.TIM_CYC_STATUS_ANCHORED 0 0

/-- INC of R100 in 2^-32 cu per ns of device time: round(f × 2^64 / 10^15), f in µHz. -/
def incOf (f : Nat) : Nat := (f * 2 ^ 64 + 5 * 10 ^ 14) / 10 ^ 15

/-- The angle and the count of the cycle clock (R100): the accumulator holds them above its 2^-32 cu. -/
def Chip.angle (c : Chip) : Nat := c.cycAcc / 2 ^ 32 % 2 ^ 32
def Chip.cycCount (c : Chip) : Nat := c.cycAcc / 2 ^ 64 % 2 ^ 32

/-- Whole cu on the cycle clock, count and angle. -/
def Chip.cu (c : Chip) : Nat := c.cycAcc / 2 ^ 32

/-- The cycle clock has reached or passed `t` cu (R107), wrapping with the 32-bit count. -/
def Chip.cuReached (c : Chip) (t : Nat) : Bool := decide ((c.cu + 2 ^ 64 - t % 2 ^ 64) % 2 ^ 64 < 2 ^ 63)

/-- Device time has reached `t` ns. -/
def Chip.nsReached (c : Chip) (t : Nat) : Bool := decide (t * 2 ^ 48 ≤ c.tim.devT)

/-- Device time from now until the cycle clock reaches `t` cu, in 2^-48 ns, at the frequency in use. -/
def Chip.untilCu (c : Chip) (t : Nat) : Nat :=
  if c.cuReached t then 0 else cdiv (((t % 2 ^ 64) * 2 ^ 80 + 2 ^ 144 - c.cyc.accX) % 2 ^ 144) (max 1 (incOf c.cyc.freq))

/-! ## One TIME_CLK edge -/

/-- The accumulator moved on by `d` of device time (2^-48 ns); at a wrap of the angle the mean frequency of the cycle that
ended is kept, if it was followed from its start (R104). -/
def cycAdvance (y : Cyc) (devT d : Nat) : Cyc :=
  let x := (y.accX + incOf y.freq * d) % 2 ^ 144
  if x / 2 ^ 112 = y.accX / 2 ^ 112 then { y with accX := x }
  else
    let dt := devT - y.cycT0
    { y with accX := x, cycT0 := devT, whole := true,
             meanFreq := if !y.whole then y.meanFreq else if dt = 0 then y.freq else 10 ^ 15 * 2 ^ 48 / dt }

/-- One TIME_CLK edge (R80, R82, R100, R102): device time and the cycle clock advance by one nanosecond of TIME_CLK at the rate
and the frequency in force, the slot counters by the CORE_CLK cycles that fit (quarters of a cycle at the present step: 3, 2.25,
1.5 or 0.75 GHz); then a rate or frequency written before the edge takes effect. -/
def Chip.tick (c : Chip) : Chip :=
  let d := ((2 ^ 48 : Int) + c.tim.rate).toNat
  let devT := c.tim.devT + d
  let quarter := match c.tim.step with
    | 0 => 12
    | 1 => 9
    | 2 => 6
    | _ => 3
  let y := cycAdvance c.cyc devT d
  { c with
    tim := { c.tim with devT := devT, rate := c.tim.rateNext.getD c.tim.rate, rateNext := none, clk := c.tim.clk + 1,
                        coreQ := if c.ctl.standby then c.tim.coreQ else c.tim.coreQ + quarter }
    cyc := { y with freq := y.freqNext.getD y.freq, freqNext := none } }

/-! ## The rate (R82, R83) -/

def rangeLimit : Int := 140737488355

/-- Clamp to ±lim. -/
def clampTo (lim x : Int) : Int := if lim < x then lim else if x < -lim then -lim else x

/-- Commit a rate (2^-48 ns per ns): clamped to the range, then its change to TIM_SLEW.PPB; in force from the next edge. -/
def Chip.commitRate (c : Chip) (r : Int) : Chip :=
  let prev := c.tim.rateNext.getD c.tim.rate
  let r1 := clampTo rangeLimit r
  let c1 := if r1 = r then c else c.set Fd.TIM_STATUS_RANGE_CLAMP 0 0 1
  let lim : Int := (c.get Fd.TIM_SLEW_PPB 0 0 * 2 ^ 48 / 10 ^ 9 : Nat)
  let d := clampTo lim (r1 - prev)
  let c2 := if d = r1 - prev then c1 else c1.set Fd.TIM_STATUS_SLEW_CLAMP 0 0 1
  { c2 with tim := { c2.tim with rateNext := some (prev + d) } }

/-- Round a quotient to the nearest integer, halves away from zero (R94). -/
def roundDiv (a : Int) (b : Nat) : Int :=
  if 0 ≤ a then ((2 * a.toNat + b) / (2 * b) : Nat) else -(((2 * (-a).toNat + b) / (2 * b) : Nat) : Int)

/-- The servo's update of R94 for offset `e` over `dt` ns. -/
def Chip.servoUpdate (c : Chip) (e : Int) (dt : Nat) : Chip :=
  let i := c.tim.integ + e
  let kp := c.get Fd.TIM_CTRL_KP_SHIFT 0 0
  let ki := c.get Fd.TIM_CTRL_KI_SHIFT 0 0
  let num : Int := -((e * 2 ^ ki + i * 2 ^ kp) * 2 ^ 48)
  ({ c with tim := { c.tim with integ := i } }).commitRate (roundDiv num (dt * 2 ^ (kp + ki)))

/-- The servo enters HOLDOVER on a jump (R95). -/
def Chip.jump (c : Chip) : Chip :=
  let c1 := (c.set Fd.TIM_STATUS_JUMP 0 0 1).set Fd.TIM_STATUS_SERVO_STATE 0 0 svHOLDOVER
  ({ c1 with tim := { c1.tim with recov := 0 } }).raise fTIMEJUMP 0

/-- An offset judged under R95. `dt` is the Δ of R94 where the offset drives the servo. -/
def Chip.judgeOffset (c : Chip) (e : Int) (dt : Option Nat) : Chip :=
  let ok := decide (e.natAbs ≤ c.get Fd.TIM_JUMP_THRESH_NS 0 0)
  if c.servo = svTRACK then
    if ok then (match dt with
      | some d => c.servoUpdate e d
      | none => c)
    else c.jump
  else if c.servo = svHOLDOVER then
    if ok then
      let k := c.tim.recov + 1
      let n := c.get Fd.TIM_JUMP_CTRL_RECOVER_N 0 0
      if n ≠ 0 ∧ n ≤ k then
        let c1 := (c.set Fd.TIM_STATUS_SERVO_STATE 0 0 svTRACK).set Fd.TIM_STATUS_STBY_HOLD 0 0 0
        { c1 with tim := { c1.tim with recov := 0, integ := 0 } }
      else { c with tim := { c.tim with recov := k } }
    else { c with tim := { c.tim with recov := 0 } }
  else c

/-- An offset that drives the servo (R94): the first only sets the reference, one with Δ = 0 is ignored. `fixed` is the Δ of
PPS_IN. -/
def Chip.servoOffset (c : Chip) (e : Int) (fixed : Option Nat) : Chip :=
  if c.servo = svUNSET ∨ c.servo = svSTOPPED then c
  else
    match c.tim.ref with
    | none => { c with tim := { c.tim with ref := some c.ns } }
    | some t =>
      let dt := fixed.getD (c.ns - t)
      if dt = 0 then c
      else (({ c with tim := { c.tim with ref := some c.ns } }).judgeOffset e (some dt))

/-! ## The cycle clock (R102 to R105) -/

/-- The range of R102 in µHz. -/
def Chip.cycRange (c : Chip) : Nat × Nat :=
  if c.flag Fd.TIM_CYC_CTRL_RAIL 0 0 then (16000000, 17400000) else (42500000, 69000000)

/-- A frequency clamped to the range, with FREQ_CLAMP (R102). -/
def Chip.clampFreq (c : Chip) (f : Nat) : Nat × Chip :=
  let r := c.cycRange
  let g := max r.1 (min r.2 f)
  (g, if g = f then c else c.set Fd.TIM_CYC_STATUS_FREQ_CLAMP 0 0 1)

/-- The accumulator that device time gives at frequency `f` (R105), in 2^-80 cu. The fraction of the nanosecond counts:
DEDUCED, log 14. -/
def anchorAcc (devT f : Nat) : Nat := devT * f * 2 ^ 64 / 10 ^ 15 % 2 ^ 144

/-- The frequency that NOMINAL and HOST_FREQ use (R100). -/
def Chip.baseFreq (c : Chip) : Nat :=
  if c.cycMode = 3 then c.get Fd.TIM_CYC_FREQ_UHZ 0 0 else c.get Fd.TIM_CYC_NOM_FREQ_UHZ 0 0

/-- Anchor the cycle clock as its mode says (R105). -/
def Chip.cycAnchor (c : Chip) : Chip :=
  let m := c.cycMode
  if m = 0 ∨ m = 3 then
    let f := c.baseFreq
    let c1 := (c.set Fd.TIM_CYC_STATUS_ANCHORED 0 0 1).set Fd.TIM_CYC_STATUS_STATE 0 0 (if m = 0 then cyNOMINAL else cyFREE)
    let x := anchorAcc c.tim.devT f
    { c1 with cyc := { c1.cyc with accX := x, freq := f, freqNext := none, anchMode := m, secAt := c.secs, cycT0 := c.tim.devT,
                                   whole := decide (x % 2 ^ 112 = 0), meanFreq := f, refT := none, loop := 0 } }
  else
    let c1 := (c.set Fd.TIM_CYC_STATUS_ANCHORED 0 0 0).set Fd.TIM_CYC_STATUS_STATE 0 0 cyACQUIRE
    { c1 with cyc := { c1.cyc with freq := c.get Fd.TIM_CYC_NOM_FREQ_UHZ 0 0, freqNext := none, anchMode := m,
                                   refT := none, good := 0, bad := 0, resume := 0, loop := 0 } }

/-- After a change of RAIL every frequency outside the new range is clamped: the two registers, and the frequency in use (R102;
DEDUCED, log 17). -/
def Chip.reRange (c : Chip) : Chip :=
  let fit (f : F) (c : Chip) : Chip := let p := c.clampFreq (c.get f 0 0)
    p.2.set f 0 0 p.1
  let c1 := fit Fd.TIM_CYC_FREQ_UHZ (fit Fd.TIM_CYC_NOM_FREQ_UHZ c)
  let p := c1.clampFreq (c1.cyc.freqNext.getD c1.cyc.freq)
  { p.2 with cyc := { p.2.cyc with freqNext := some p.1 } }

/-- Enter HOLD (R104): run at the mean frequency of the last complete cycle, UNLOCK, raise CYCLE_UNLOCK. -/
def Chip.cycHold (c : Chip) : Chip :=
  let c1 := (c.set Fd.TIM_CYC_STATUS_STATE 0 0 cyHOLD).set Fd.TIM_CYC_STATUS_UNLOCK 0 0 1
  let p := c1.clampFreq c1.cyc.meanFreq
  ({ p.2 with cyc := { p.2.cyc with freq := p.1, freqNext := none, resume := 0 } }).raise fCYCUNLOCK 0

/-- The greatest frequency offset of the pull-in in µHz (R101, PULL). -/
def Chip.pullLimit (c : Chip) (f : Nat) : Nat :=
  match c.get Fd.TIM_CYC_CTRL_PULL 0 0 with
  | 0 => f / 1000
  | 1 => f * 5 / 1000
  | 2 => f / 100
  | _ => f * 2 / 100

/-- References in one cycle: 1 on the pin, SPC samples of the stream. -/
def Chip.refsPerCycle (c : Chip) : Nat := if c.cycMode = 2 then (if c.flag Fd.TIM_CYC_CTRL_SPC 0 0 then 256 else 80) else 1

/-- The expected spacing of references in ns, at the nominal frequency. -/
def Chip.refSpacing (c : Chip) : Nat := 10 ^ 15 / (max 1 (c.get Fd.TIM_CYC_NOM_FREQ_UHZ 0 0) * c.refsPerCycle)

/-- How long the references may be absent (R104): 2 nominal cycles, or 3 expected samples. In 2^-48 ns. -/
def Chip.refWait (c : Chip) : Nat := (if c.cycMode = 2 then 3 else 2) * c.refSpacing * 2 ^ 48

/-- The loop's answer to a phase error (R103): its state moves on, and the frequency in use changes by at most PULL. Its
equations are the spec's silence: free values (log 7). -/
def Chip.steer (c : Chip) (err : Int) : Chip :=
  let bw := c.get Fd.TIM_CYC_CTRL_BW 0 0
  let f := c.cyc.freqNext.getD c.cyc.freq
  let lim : Int := (c.pullLimit f : Nat)
  let p := c.clampFreq ((f : Int) + clampTo lim (Config.freeLoopStep bw (unsigned 32 err) c.cyc.loop f)).toNat
  { p.2 with cyc := { p.2.cyc with freqNext := some p.1, loop := Config.freeLoopState bw (unsigned 32 err) c.cyc.loop } }

/-- A reference event of the loop (R103, R104) at instant `at_` (2^-48 ns) with its expected angle. References resume for 2 cycles
with twice the references of a cycle, none later after the last than R104 lets them be absent; the mean frequency of the last
complete cycle is the measured one until a cycle has been complete (DEDUCED, log 141). -/
def Chip.cycReference (c : Chip) (at_ expect : Nat) : Chip :=
  let st := c.get Fd.TIM_CYC_STATUS_STATE 0 0
  let note (c : Chip) : Chip := { c with cyc := { c.cyc with refT := some at_, refAngle := expect } }
  let turn := let d := (expect + 2 ^ 32 - c.cyc.refAngle % 2 ^ 32) % 2 ^ 32
    if d = 0 then 2 ^ 32 else d
  let meas : Nat := match c.cyc.refT with
    | none => c.get Fd.TIM_CYC_NOM_FREQ_UHZ 0 0
    | some t => if at_ ≤ t then c.cyc.freq else turn * 10 ^ 15 * 2 ^ 16 / (at_ - t)
  let back := incOf c.cyc.freq * (c.tim.devT - at_)
  let accAt := (c.cyc.accX + 2 ^ 144 - back % 2 ^ 144) % 2 ^ 144
  let err : Int := signed 32 ((expect + 2 ^ 32 - accAt / 2 ^ 80 % 2 ^ 32) % 2 ^ 32)
  let range := c.cycRange
  if st = cyACQUIRE then
    match c.cyc.refT with
    | none => note c
    | some _ =>
      let p := c.clampFreq meas
      let c1 := (p.2.set Fd.TIM_CYC_STATUS_ANCHORED 0 0 1).set Fd.TIM_CYC_STATUS_STATE 0 0 cyPULLIN
      let moved := c.cyc.accX / 2 ^ 112 * 2 ^ 112 + (expect % 2 ^ 32) * 2 ^ 80 + incOf p.1 * (c.tim.devT - at_)
      note { c1 with cyc := { c1.cyc with freq := p.1, freqNext := none, accX := moved % 2 ^ 144, good := 0, bad := 0,
                                          meanFreq := p.1, cycT0 := at_, whole := decide (expect % 2 ^ 32 = 0), loop := 0 } }
  else if st = cyPULLIN ∨ st = cyLOCKED then
    let bad := if 2 ^ 26 < err.natAbs then c.cyc.bad + 1 else 0
    let good := if err.natAbs ≤ 2 ^ 22 then c.cyc.good + 1 else 0
    let c1 := note { c with cyc := { c.cyc with bad := bad, good := good } }
    if meas < range.1 ∨ range.2 < meas ∨ 3 * c.refsPerCycle ≤ bad then c1.cycHold
    else
      let c2 := c1.steer err
      if st = cyPULLIN ∧ 8 * c.refsPerCycle ≤ good then c2.set Fd.TIM_CYC_STATUS_STATE 0 0 cyLOCKED else c2
  else if st = cyHOLD ∧ (c.cycMode = 1 ∨ c.cycMode = 2) then
    let gap := match c.cyc.refT with
      | none => true
      | some t => decide (t + c.refWait ≤ at_)
    let r := if gap then 1 else c.cyc.resume + 1
    let c1 := note { c with cyc := { c.cyc with resume := r } }
    if 2 * c.refsPerCycle ≤ r then
      ({ c1.set Fd.TIM_CYC_STATUS_STATE 0 0 cyPULLIN with
         cyc := { c1.cyc with resume := 0, good := 0, bad := 0 } }).steer err
    else c1
  else c

end Sys2Proof.Machine
end

