-- ==== Sys2Proof/Machine/Gates.lean ====
section
/-! DEFINITION. Gate lists of ports (R294 to R301) and stream gate lists (R181 to R183): their periods and entries, the start
after enabling, release, step and anchor, the look-ahead for the next close, and the commands that act on them. -/

namespace Sys2Proof.Machine

/-- The first indices of the instances of a field that differ from their reset value. -/
def Chip.idxWith (c : Chip) (f : F) : List Nat := (c.fld.filter (fun e => decide (e.1.f = f))).map (fun e => e.1.i)

/-- A gate list as its control words describe it (R294). `t0` is the base time in ns. -/
structure GclP where
  cu : Bool
  len : Nat
  start : Nat
  cycle : Nat
  t0 : Nat
  deriving DecidableEq, Repr

def gclActive (c : Chip) (n : Nat) : GclP :=
  { cu := c.flag Fd.SCH_GCL_CTRL_BASE n 0, len := max 1 (min 256 (c.get Fd.SCH_GCL_CTRL_LEN n 0)),
    start := c.get Fd.SCH_GCL_CTRL_START n 0, cycle := c.get Fd.SCH_GCL_CYCLE_CYCLE n 0,
    t0 := (c.get Fd.SCH_GCL_BASE_SEC_HI_SEC n 0 * 2 ^ 32 + c.get Fd.SCH_GCL_BASE_SEC_LO_SEC n 0) * 10 ^ 9 +
      c.get Fd.SCH_GCL_BASE_NS_NS n 0 }

def gclPending (c : Chip) (n : Nat) : GclP :=
  { cu := c.flag Fd.SCH_GCL_PEND_CTRL_BASE n 0, len := min 256 (c.get Fd.SCH_GCL_PEND_CTRL_LEN n 0),
    start := c.get Fd.SCH_GCL_PEND_CTRL_START n 0, cycle := c.get Fd.SCH_GCL_PEND_CYCLE_CYCLE n 0,
    t0 := (c.get Fd.SCH_GCL_PEND_BASE_SEC_HI_SEC n 0 * 2 ^ 32 + c.get Fd.SCH_GCL_PEND_BASE_SEC_LO_SEC n 0) * 10 ^ 9 +
      c.get Fd.SCH_GCL_PEND_BASE_NS_NS n 0 }

/-- The length of a list period: ns, or cu (R294). -/
def GclP.period (p : GclP) : Nat := if p.cu then max 1 (p.cycle % 16) * 2 ^ 32 else max 64 p.cycle

/-- The first period start at or after `t` (ns or cu, R296). -/
def GclP.firstFrom (p : GclP) (t : Nat) : Nat :=
  if p.cu then
    let k := max 1 (p.cycle % 16)
    let cnt := cdiv t (2 ^ 32)
    cdiv cnt k * k * 2 ^ 32
  else if t ≤ p.t0 then p.t0 else p.t0 + cdiv (t - p.t0) (max 64 p.cycle) * max 64 p.cycle

/-- Now, in the base of a list, rounded up to a whole unit. -/
def Chip.nowIn (c : Chip) (cu : Bool) : Nat := if cu then cdiv c.cycAcc (2 ^ 32) else cdiv c.tim.devT (2 ^ 48)

/-- An instant of one base, in another: taken at the frequency in use, rounded up to a whole unit. -/
def Chip.inBase (c : Chip) (cu cu' : Bool) (t : Nat) : Nat :=
  if cu = cu' then t
  else if cu then cdiv (c.tim.devT + c.untilCu t) (2 ^ 48)
  else cdiv (c.cyc.accX + incOf c.cyc.freq * (t * 2 ^ 48 - c.tim.devT)) (2 ^ 80)

/-- An instant of a base has been reached (R107). -/
def Chip.reached (c : Chip) (cu : Bool) (t : Nat) : Bool := if cu then c.cuReached t else c.nsReached t

/-- Interval of a gate list entry with its minimum (R295). -/
def gclInterval (c : Chip) (n i : Nat) (cu : Bool) : Nat := max (if cu then 4096 else 8) (c.get Fd.SCH_GCL_W1_INTERVAL n i)
def gclGates (c : Chip) (n i : Nat) : Nat := c.get Fd.SCH_GCL_W0_GATES n i
def gclOp (c : Chip) (n i : Nat) : Nat := c.get Fd.SCH_GCL_W0_OP n i

/-- The index of the `k`-th entry of a list; the range wraps past 255. -/
def GclP.entry (p : GclP) (k : Nat) : Nat := (p.start + k) % 256

/-- Where the `k`-th entry that begins at `es` in the period from `ps` ends: the last holds to the period end, and every
entry is cut there (R296). -/
def gclEntryEnd (c : Chip) (n : Nat) (p : GclP) (ps es k : Nat) : Nat :=
  let pe := ps + p.period
  if p.len ≤ k + 1 then pe else min pe (es + gclInterval c n (p.entry k) p.cu)

/-- Put the `k`-th entry in force (R300 for the hold). -/
def Chip.gclEnter (c : Chip) (n : Nat) (p : GclP) (ps es k : Nat) : Chip :=
  let i := p.entry k
  let c1 := c.set Fd.SCH_GCL_STATUS_CUR_ENTRY n 0 i
  let c2 := if gclOp c n i = 1 then c1.set Fd.SCH_GCL_STATUS_HOLD n 0 1
    else if gclOp c n i = 2 then c1.set Fd.SCH_GCL_STATUS_HOLD n 0 0 else c1
  c2.setPort n { c2.port n with gclStart := ps, gclEnd := gclEntryEnd c n p ps es k, gclSwitch := false }

def Chip.gclState (c : Chip) (n : Nat) : Nat := c.get Fd.SCH_GCL_STATUS_STATE n 0

/-- A list begins (R296, R297): WAIT_BASE for its first period start, or UNANCHORED; no entry holds yet (log 74). -/
def Chip.gclBegin (c : Chip) (n : Nat) : Chip :=
  let p := gclActive c n
  if p.cu && !c.anchored then (c.set Fd.SCH_GCL_STATUS_STATE n 0 4).set Fd.SCH_GCL_STATUS_HOLD n 0 0
  else
    let c1 := (c.set Fd.SCH_GCL_STATUS_STATE n 0 1).set Fd.SCH_GCL_STATUS_HOLD n 0 0
    c1.setPort n { c1.port n with gclStart := p.firstFrom (c.nowIn p.cu), gclSwitch := false }

/-- The pending words move into the active ones, and SWITCH is DONE (R301). -/
def Chip.gclMovePending (c : Chip) (n : Nat) : Chip :=
  let mv (a b : F) (c : Chip) : Chip := c.set b n 0 (c.get a n 0)
  (mv Fd.SCH_GCL_PEND_CTRL_BASE Fd.SCH_GCL_CTRL_BASE
    (mv Fd.SCH_GCL_PEND_CTRL_LEN Fd.SCH_GCL_CTRL_LEN
      (mv Fd.SCH_GCL_PEND_CTRL_START Fd.SCH_GCL_CTRL_START
        (mv Fd.SCH_GCL_PEND_CYCLE_CYCLE Fd.SCH_GCL_CYCLE_CYCLE
          (mv Fd.SCH_GCL_PEND_BASE_NS_NS Fd.SCH_GCL_BASE_NS_NS
            (mv Fd.SCH_GCL_PEND_BASE_SEC_LO_SEC Fd.SCH_GCL_BASE_SEC_LO_SEC
              (mv Fd.SCH_GCL_PEND_BASE_SEC_HI_SEC Fd.SCH_GCL_BASE_SEC_HI_SEC c))))))).set Fd.SCH_GCL_CMD_STATUS n 0 sDONE

def Chip.gclSwitchBusy (c : Chip) (n : Nat) : Bool := c.get Fd.SCH_GCL_CMD_STATUS n 0 = sBUSY

/-- A list restarts after a step or re-anchor (R96, R297, R301). -/
def Chip.gclRestart (c : Chip) (n : Nat) : Chip :=
  if c.gclState n = 1 ∨ c.gclState n = 2 ∨ c.gclState n = 4 then
    (if c.gclSwitchBusy n then c.gclMovePending n else c).gclBegin n
  else c

/-- GATE_LIST_BOUNDARY (R296, R297, R301). -/
def gateBoundary (n : Nat) (c : Chip) : Chip :=
  let p := gclActive c n
  let r := c.port n
  if c.gclState n = 1 then
    if c.reached p.cu r.gclStart then
      ((c.set Fd.SCH_GCL_STATUS_STATE n 0 2).cntWrap Fd.SCH_GCL_STATUS_CYCLES n 0 1).gclEnter n p r.gclStart r.gclStart 0
    else c
  else if c.gclState n = 2 then
    if r.gclSwitch then
      let q := gclPending c n
      if c.reached q.cu r.gclEnd then
        ((c.gclMovePending n).cntWrap Fd.SCH_GCL_STATUS_CYCLES n 0 1).gclEnter n q r.gclEnd r.gclEnd 0
      else c
    else if !c.reached p.cu r.gclEnd then c
    else if r.gclEnd < r.gclStart + p.period then
      let k := (c.get Fd.SCH_GCL_STATUS_CUR_ENTRY n 0 + 256 - p.start) % 256
      c.gclEnter n p r.gclStart r.gclEnd (k + 1)
    else if c.gclSwitchBusy n then
      let q := gclPending c n
      let ps := q.firstFrom (if q.cu = p.cu then r.gclEnd else c.nowIn q.cu)
      if c.reached q.cu ps then
        ((c.gclMovePending n).cntWrap Fd.SCH_GCL_STATUS_CYCLES n 0 1).gclEnter n q ps ps 0
      else c.setPort n { r with gclEnd := ps, gclSwitch := true }
    else (c.cntWrap Fd.SCH_GCL_STATUS_CYCLES n 0 1).gclEnter n p r.gclEnd r.gclEnd 0
  else c

/-- The entry that comes into force next: its index, and the instant in its base (true: cu). -/
def Chip.gclNext (c : Chip) (n : Nat) : Option (Nat × Bool × Nat) :=
  let p := gclActive c n
  let q := gclPending c n
  let r := c.port n
  let k := (c.get Fd.SCH_GCL_STATUS_CUR_ENTRY n 0 + 256 - p.start) % 256
  if c.gclState n = 1 then some (p.entry 0, p.cu, r.gclStart)
  else if c.gclState n ≠ 2 then none
  else if r.gclSwitch then some (q.entry 0, q.cu, r.gclEnd)
  else if r.gclEnd < r.gclStart + p.period then some (p.entry (k + 1), p.cu, r.gclEnd)
  else if !c.gclSwitchBusy n then some (p.entry 0, p.cu, r.gclEnd)
  else some (q.entry 0, q.cu, q.firstFrom (c.inBase p.cu q.cu r.gclEnd))

/-- HOLD_ASSERT (R300): HOLD_ADV_NS before a SET_HOLD entry begins. For a list in cu the distance is taken at the frequency in
use. -/
def holdAssert (n : Nat) (c : Chip) : Chip :=
  match c.gclNext n with
  | none => c
  | some (i, cu, at_) =>
    let left := if cu then c.untilCu at_ else at_ * 2 ^ 48 - c.tim.devT
    if gclOp c n i = 1 ∧ left ≤ c.get Fd.SCH_GCL_HOLD_HOLD_ADV_NS n 0 * 2 ^ 48 then c.set Fd.SCH_GCL_STATUS_HOLD n 0 1
    else c

/-- The gates open now: the entry in force while the list runs, otherwise all (R21, R297). -/
def Chip.gatesNow (c : Chip) (n : Nat) : Nat :=
  if c.gclState n = 2 then gclGates c n (c.get Fd.SCH_GCL_STATUS_CUR_ENTRY n 0) else 255

/-- The hold on preemptable transmission (R300). -/
def Chip.held (c : Chip) (n : Nat) : Bool := c.flag Fd.SCH_GCL_STATUS_HOLD n 0

/-- In FALLBACK and UNANCHORED weighted groups are served in strict order (R297). -/
def Chip.strictOnly (c : Chip) (n : Nat) : Bool := decide (c.gclState n = 3 ∨ c.gclState n = 4)

/-- Walk the entries from `(ps, k)`, whose entry ends at `e`, to the first that closes service `s`; the instant and its base, if
one comes within `fuel` entries. A SWITCH that is BUSY hands over to the pending list at the period end; the gates of the last
entry hold until the pending list starts (R301). -/
def gclCloseFrom (c : Chip) (n s : Nat) : Nat → GclP → Bool → Nat → Nat → Nat → Option (Bool × Nat)
  | 0, _, _, _, _, _ => none
  | fuel + 1, p, sw, ps, k, e =>
    let toNext (q : GclP) (sw' : Bool) (ps' es' k' : Nat) : Option (Bool × Nat) :=
      if bitOf (gclGates c n (q.entry k')) s then gclCloseFrom c n s fuel q sw' ps' k' (gclEntryEnd c n q ps' es' k')
      else some (q.cu, es')
    if e < ps + p.period then toNext p sw ps e (k + 1)
    else if sw then
      let q := gclPending c n
      let ps' := q.firstFrom (c.inBase p.cu q.cu e)
      toNext q false ps' ps' 0
    else toNext p false e e 0

/-- The next instant at which the gate of service `s`, open now, closes (R298): 2^-48 ns of device time from now. `none`: the
gate never closes. -/
def Chip.untilClose (c : Chip) (n s : Nat) : Option Nat :=
  let p := gclActive c n
  let r := c.port n
  let k := (c.get Fd.SCH_GCL_STATUS_CUR_ENTRY n 0 + 256 - p.start) % 256
  let busy := c.gclSwitchBusy n
  let begin_ (q : GclP) (sw : Bool) (ps : Nat) : Option (Bool × Nat) :=
    if bitOf (gclGates c n (q.entry 0)) s then gclCloseFrom c n s 514 q sw ps 0 (gclEntryEnd c n q ps ps 0) else some (q.cu, ps)
  let at_ : Option (Bool × Nat) :=
    if c.gclState n = 2 then
      (if r.gclSwitch then begin_ (gclPending c n) false r.gclEnd else gclCloseFrom c n s 514 p busy r.gclStart k r.gclEnd)
    else if c.gclState n ≠ 1 then none
    else begin_ p busy r.gclStart
  at_.map (fun t => if t.1 then c.untilCu t.2 else t.2 * 2 ^ 48 - c.tim.devT)

/-- The longest open interval of service `s` in the list's range, in 2^-48 ns (R299), for a list in ns; a list in cu is
taken at the frequency in use. `none`: the gate never closes. -/
def Chip.longestOpen (c : Chip) (n s : Nat) : Option Nat :=
  if c.gclState n ≠ 2 then none
  else
    let p := gclActive c n
    let ks := List.range p.len
    let segs : List (Nat × Nat) := (ks.foldl (fun (a : Nat × List (Nat × Nat)) k =>
      let e := gclEntryEnd c n p 0 a.1 k
      (e, if a.1 < e then a.2 ++ [(k, e - a.1)] else a.2)) (0, [])).2
    let on (x : Nat × Nat) : Bool := bitOf (gclGates c n (p.entry x.1)) s
    if segs.all on then none
    else
      let best := ((segs ++ segs).foldl (fun (a : Nat × Nat) x =>
        if on x then (a.1 + x.2, max a.2 (a.1 + x.2)) else (0, a.2)) (0, 0)).2
      some (if p.cu then best * 2 ^ 80 / max 1 (incOf c.cyc.freq) else best * 2 ^ 48)

/-! ## Gate list commands -/

/-- Two ranges of entries overlap; ranges wrap past 255. -/
def rangesOverlap (a b : GclP) : Bool :=
  (List.range b.len).any (fun k => decide ((b.entry k + 256 - a.start) % 256 < a.len))

/-- A write of SCH_GCL_CMD (R301). -/
def gclCmd (m op : Nat) (n : Nat) (c : Chip) : Chip :=
  let busy := c.gclSwitchBusy n
  let addr := addrOf .SCH_GCL_CMD n 0
  let en := c.flag Fd.SCH_GCL_CTRL_ENABLE n 0
  if op = 1 then
    c.command Fd.SCH_GCL_CMD_STATUS n 0 m addr id
      [(!en, sSTATE),
       (decide (c.get Fd.SCH_GCL_PEND_CTRL_LEN n 0 = 0) || rangesOverlap (gclActive c n) (gclPending c n), sARG)]
      (fun c => c.set Fd.SCH_GCL_CMD_STATUS n 0 sBUSY)
  else if op = 2 then
    if busy then
      let c1 := c.set Fd.SCH_GCL_CMD_STATUS n 0 sDONE
      let p := gclActive c n
      let r := c1.port n
      if r.gclSwitch then (c1.setPort n { r with gclSwitch := false, gclEnd := r.gclStart + p.period }) else c1
    else c.outcome Fd.SCH_GCL_CMD_STATUS n 0 sSTATE
  else c.command Fd.SCH_GCL_CMD_STATUS n 0 m addr id [(true, sARG)] id

/-- Entry `i` lies in the active range while the list is in force (R295, R300); with PORT(n) stopped the entry may be written
(R63, R282). -/
def gclInActive (c : Chip) (n i : Nat) : Bool :=
  let p := gclActive c n
  c.flag Fd.SCH_GCL_CTRL_ENABLE n 0 && !c.stopped 0 n && decide ((i + 256 - p.start) % 256 < p.len)

/-- A write of a gate list entry (R295, R300). -/
def gclEntryWrite (m : Nat) (kg : Bool) (r : R) (n j v : Nat) (c : Chip) : Chip :=
  if gclInActive c n j then (c.set Fd.SCH_GCL_ERR_ACTIVE_WRITE n 0 1).refuse m r n j
  else c.plainWrite m kg r n j v

/-- A write of the control words C + 0x00 to C + 0x10 (R297, R300): while ENABLE = 1 and GATE(n) runs it is ignored, sets
ACTIVE_WRITE and is recorded; while ENABLE = 0 the words may be written though GATE(n) runs (DEDUCED from R300, log 15). -/
def gclCtrlWrite (m : Nat) (r : R) (n v : Nat) (c : Chip) : Chip :=
  let en := c.flag Fd.SCH_GCL_CTRL_ENABLE n 0
  if en && !c.stopped 2 n then (c.set Fd.SCH_GCL_ERR_ACTIVE_WRITE n 0 1).refuse m r n 0
  else
    let c1 := r.rows.foldl (fun c w => c.set w.f n 0 (bits w.f.hi w.f.lo v)) c
    if r ≠ .SCH_GCL_CTRL then c1
    else if bitOf v 31 then
      if en then c1
      else if c.stopped 2 n then (c1.set Fd.SCH_GCL_STATUS_STATE n 0 3)
      else c1.gclBegin n
    else (c1.set Fd.SCH_GCL_STATUS_STATE n 0 0).set Fd.SCH_GCL_STATUS_HOLD n 0 0

/-- GATE(n) reaches QUIESCED: FALLBACK, hold released (R297). -/
def Chip.gateQuiesced (c : Chip) (n : Nat) : Chip :=
  if c.gclState n = 0 then c else (c.set Fd.SCH_GCL_STATUS_STATE n 0 3).set Fd.SCH_GCL_STATUS_HOLD n 0 0

/-- GATE(n) is released (R297). -/
def Chip.gateReleased (c : Chip) (n : Nat) : Chip := if c.gclState n = 3 then c.gclBegin n else c

/-! ## Stream gates (R181 to R183) -/

def sgate (c : Chip) (g : Nat) : SGateRt := c.sgate.get SGateRt.init g
def setSgate (c : Chip) (g : Nat) (r : SGateRt) : Chip := { c with sgate := c.sgate.put SGateRt.init g r }

def sgP (c : Chip) (g : Nat) : GclP :=
  { cu := c.flag Fd.TBL_SGATE_CTRL_BASE g 0, len := max 1 (min 64 (c.get Fd.TBL_SGATE_CTRL_LIST_LEN g 0)),
    start := c.get Fd.TBL_SGATE_CTRL_LIST_BASE g 0,
    cycle := if c.flag Fd.TBL_SGATE_CTRL_BASE g 0 then 1 else c.get Fd.TBL_SGATE_CYCLE_CYCLE g 0,
    t0 := (c.get Fd.TBL_SGATE_BASE_SEC_HI_SEC g 0 * 2 ^ 32 + c.get Fd.TBL_SGATE_BASE_SEC_LO_SEC g 0) * 10 ^ 9 +
      c.get Fd.TBL_SGATE_BASE_NS_NS g 0 }

/-- The cycle of a stream gate: one mains cycle, or CYCLE ns (at least 1). -/
def sgPeriod (p : GclP) : Nat := if p.cu then 2 ^ 32 else max 1 p.cycle

def sgFirst (p : GclP) (t : Nat) : Nat :=
  if p.cu then cdiv t (2 ^ 32) * 2 ^ 32 else if t ≤ p.t0 then p.t0 else p.t0 + cdiv (t - p.t0) (max 1 p.cycle) * max 1 p.cycle

/-- Put list entry `k` of gate `g` in force. -/
def Chip.sgEnter (c : Chip) (g : Nat) (p : GclP) (ps es k : Nat) : Chip :=
  let i := (p.start + k) % 4096
  let pe := ps + sgPeriod p
  let e := if p.len ≤ k + 1 then pe else min pe (es + c.get Fd.TBL_SGLIST_W1_INTERVAL i 0)
  setSgate ((c.set Fd.TBL_SGATE_STATUS_CUR_ENTRY g 0 k).set Fd.TBL_SGATE_STATUS_OPEN g 0 (c.get Fd.TBL_SGLIST_W0_OPEN i 0)) g
    { waiting := false, start := ps, until_ := e, octets := 0 }

/-- A gate starts, or waits closed for its first cycle (R183). -/
def Chip.sgBegin (c : Chip) (g : Nat) : Chip :=
  let p := sgP c g
  setSgate ((c.set Fd.TBL_SGATE_STATUS_OPEN g 0 0).set Fd.TBL_SGATE_STATUS_CUR_ENTRY g 0 0) g
    { waiting := true, start := 0, until_ := sgFirst p (c.nowIn p.cu), octets := 0 }

/-- STREAM_GATE_BOUNDARY (R183). -/
def streamGateBoundary (g : Nat) (c : Chip) : Chip :=
  let p := sgP c g
  let r := sgate c g
  if !c.flag Fd.TBL_SGATE_CTRL_ENABLE g 0 || (p.cu && !c.anchored) || !c.reached p.cu r.until_ then c
  else if r.waiting || decide (r.start + sgPeriod p ≤ r.until_) then c.sgEnter g p r.until_ r.until_ 0
  else c.sgEnter g p r.start r.until_ (c.get Fd.TBL_SGATE_STATUS_CUR_ENTRY g 0 + 1)

/-- A write of a gate's words (R182, R183): ignored and recorded while ENABLE = 1, but for ENABLE itself. -/
def sgateWrite (m : Nat) (r : R) (g v : Nat) (c : Chip) : Chip :=
  if !c.priv m then c.logErr m (addrOf r g 0) true kPRIV
  else
    let en := c.flag Fd.TBL_SGATE_CTRL_ENABLE g 0
    if r = .TBL_SGATE_CTRL then
      if en then
        let other := r.rows.any (fun w => decide (w.f ≠ Fd.TBL_SGATE_CTRL_ENABLE ∧ bits w.f.hi w.f.lo v ≠ c.get w.f g 0))
        let c1 := if bitOf v 31 then c else (c.set Fd.TBL_SGATE_CTRL_ENABLE g 0 0).set Fd.TBL_SGATE_STATUS_OPEN g 0 0
        if bitOf v 31 || other then c1.refuse m r g 0 else c1
      else
        let c1 := r.rows.foldl (fun c w => c.set w.f g 0 (bits w.f.hi w.f.lo v)) c
        if bitOf v 31 then c1.sgBegin g else c1
    else if en then c.refuse m r g 0
    else c.plainWrite m false r g 0 v

/-- A write of a stream gate list entry: refused while a gate that is enabled uses it (R182). -/
def sglistWrite (m : Nat) (r : R) (i v : Nat) (c : Chip) : Chip :=
  let used := (c.idxWith Fd.TBL_SGATE_CTRL_ENABLE).any (fun g =>
    decide ((i + 4096 - (sgP c g).start) % 4096 < (sgP c g).len))
  if !c.priv m then c.logErr m (addrOf r i 0) true kPRIV
  else if used then c.refuse m r i 0
  else c.plainWrite m false r i 0 v

/-- REOPEN (R183). -/
def sgateReopen (m : Nat) (g : Nat) (c : Chip) : Chip :=
  if !c.priv m then c.logErr m (addrOf .TBL_SGATE_REOPEN g 0) true kPRIV
  else c.set Fd.TBL_SGATE_STATUS_CLOSED_INV g 0 0

/-- Every enabled stream gate restarts under R96. -/
def Chip.sgRestart (c : Chip) : Chip := (c.idxWith Fd.TBL_SGATE_CTRL_ENABLE).foldl (fun c g => c.sgBegin g) c

/-- Every gate list that runs or waits restarts under R96. -/
def Chip.gclRestartAll (c : Chip) : Chip := (c.idxWith Fd.SCH_GCL_STATUS_STATE).foldl (fun c n => c.gclRestart n) c

/-- The cycle clock has become anchored: lists in cu leave UNANCHORED (R106, R297); gates in cu may start. -/
def Chip.gclAnchored (c : Chip) : Chip :=
  let c1 := (c.idxWith Fd.SCH_GCL_STATUS_STATE).foldl (fun c n => if c.gclState n = 4 then c.gclBegin n else c) c
  (c1.idxWith Fd.TBL_SGATE_CTRL_ENABLE).foldl (fun c g => if c.flag Fd.TBL_SGATE_CTRL_BASE g 0 then c.sgBegin g else c) c1

end Sys2Proof.Machine
end

