-- ==== Sys2Proof/Machine/Time.lean ====
section
/-! DEFINITION. The time unit's commands and events (chapter 3): rate, steps, the servo, the cycle clock, event slots, TOUT,
PPS_OUT, captures and what TIME's stop and release do. -/

namespace Sys2Proof.Machine

/-! ## Event slots (R108 to R110) -/

def Chip.evtRt (c : Chip) (k : Nat) : EvtRt := c.evt.get EvtRt.init k
def Chip.setEvt (c : Chip) (k : Nat) (r : EvtRt) : Chip := { c with evt := c.evt.put EvtRt.init k r }

def evtCu (c : Chip) (k : Nat) : Bool := c.flag Fd.TIM_EVT_CTRL_BASE k 0
def evtPeriod (c : Chip) (k : Nat) : Nat := c.get Fd.TIM_EVT_PERIOD_PERIOD k 0

/-- The programmed time of a slot: ns of device time, or cu of the cycle clock; T_MID 0xFFFF_FFFF names the next occurrence
of the angle after `from_` cu (R108). -/
def evtTime (c : Chip) (k from_ : Nat) : Nat :=
  let lo := c.get Fd.TIM_EVT_T_LO_T k 0
  let mid := c.get Fd.TIM_EVT_T_MID_T k 0
  if evtCu c k then
    if mid = 2 ^ 32 - 1 then
      let cnt := from_ / 2 ^ 32
      if from_ % 2 ^ 32 < lo then cnt * 2 ^ 32 + lo else (cnt + 1) * 2 ^ 32 + lo
    else mid * 2 ^ 32 + lo
  else (c.get Fd.TIM_EVT_T_HI_T k 0 * 2 ^ 32 + mid) * 10 ^ 9 + lo

/-- Arm slot `k` for its programmed time; one already past fires at the next edge and sets LATE (R109). -/
def Chip.evtArm (c : Chip) (k from_ : Nat) : Chip :=
  let t := evtTime c k from_
  c.setEvt k { armed := true, target := t, late := c.reached (evtCu c k) t }

/-- The slot fires now: its edge has come, and for cu the clock is anchored (R106, R107). -/
def evtDue (c : Chip) (k : Nat) : Bool :=
  let r := c.evtRt k
  r.armed && c.flag Fd.TIM_EVT_CTRL_ENABLE k 0 && (!evtCu c k || c.anchored) && c.reached (evtCu c k) r.target

/-- The pulse width under the limits of R109, in ns. -/
def evtWidth (c : Chip) (k : Nat) : Nat :=
  let w := max 8 (c.get Fd.TIM_EVT_WIDTH_WIDTH k 0)
  if !c.flag Fd.TIM_EVT_CTRL_PERIODIC k 0 then w
  else
    let per := if evtCu c k then evtPeriod c k * 2 ^ 32 / max 1 (incOf c.cyc.freq) else evtPeriod c k
    min w (per - 8)

/-- The first point of a period after `now`, from a point `t` that has passed; of a time in cu modulo 2^64. -/
def pointAfter (cu : Bool) (t per now : Nat) : Nat :=
  t + ((if cu then (now + 2 ^ 64 - t % 2 ^ 64) % 2 ^ 64 else now - t) / max 1 per + 1) * max 1 per

/-- When a periodic slot fires next (R108): a slot that was enabled with its target past goes on at the first period point to
come (DEDUCED, log 56). -/
def evtNext (c : Chip) (k : Nat) (r : EvtRt) : Nat :=
  if r.late then pointAfter (evtCu c k) r.target (evtPeriod c k) (if evtCu c k then c.cu else c.ns) else r.target + evtPeriod c k

/-- Drive a TOUT output. -/
def Chip.setTout (c : Chip) (x : Nat) (b : Bool) : Chip := { c with pins := { c.pins with tout := setBit c.pins.tout x b } }

/-- The action of a slot on its output (R108). -/
def Chip.evtAct (c : Chip) (k x : Nat) : Chip :=
  match c.get Fd.TIM_EVT_CTRL_ACTION k 0 with
  | 1 => c.setTout x true
  | 2 => c.setTout x false
  | 3 => c.setTout x (!bitOf c.pins.tout x)
  | 4 => ({ c with toutFall := c.toutFall.put 0 x (c.tim.clk + evtWidth c k) 1 }).setTout x true
  | _ => c

/-- An event slot fires (R108 to R110): its flags and count, its interrupt, its action unless a lower slot acts on the same
output at this edge, and its next time. -/
def Chip.evtFire (c : Chip) (k : Nat) : Chip :=
  let r := c.evtRt k
  let x := c.get Fd.TIM_EVT_CTRL_TOUT k 0
  let act := c.get Fd.TIM_EVT_CTRL_ACTION k 0
  let acts := decide (1 ≤ act ∧ act ≤ 4)
  let lower := (c.idxWith Fd.TIM_EVT_CTRL_ENABLE).any (fun k' => decide (k' < k) && evtDue c k' &&
    decide (c.get Fd.TIM_EVT_CTRL_TOUT k' 0 = x ∧ 1 ≤ c.get Fd.TIM_EVT_CTRL_ACTION k' 0 ∧ c.get Fd.TIM_EVT_CTRL_ACTION k' 0 ≤ 4))
  let lost := acts && (lower || decide (c.tim.toutAct.get 0 x = c.tim.clk + 1))
  let c1 := (c.set Fd.TIM_EVT_STATUS_FIRED k 0 1).cntWrap Fd.TIM_EVT_STATUS_FIRE_CNT k 0 1
  let c2 := if r.late then c1.set Fd.TIM_EVT_STATUS_LATE k 0 1 else c1
  let c3 := if c.flag Fd.TIM_EVT_CTRL_IRQ k 0 then c2.irq 0 (34 + Config.freeVector 0 % 30) else c2
  let c4 := if lost || decide (5 ≤ act) then c3.set Fd.TIM_EVT_STATUS_COLLIDE k 0 1
    else if acts then { c3.evtAct k x with tim := { c3.tim with toutAct := c3.tim.toutAct.put 0 x (c3.tim.clk + 1) } }
    else c3
  if c.flag Fd.TIM_EVT_CTRL_PERIODIC k 0 then
    c4.setEvt k { armed := true, target := evtNext c k r, late := false }
  else (c4.set Fd.TIM_EVT_CTRL_ENABLE k 0 0).setEvt k EvtRt.init

/-- EVENT_SLOT_FIRE: nothing happens before the slot's time. -/
def eventSlotFire (k : Nat) (c : Chip) : Chip := if evtDue c k && c.running then c.evtFire k else c

/-- A write of a slot's words (R108, R109). -/
def evtWrite (m : Nat) (r : R) (k v : Nat) (c : Chip) : Chip :=
  let en := c.flag Fd.TIM_EVT_CTRL_ENABLE k 0
  if r = .TIM_EVT_CTRL then
    if en then
      let other := r.rows.any (fun w => decide (w.f ≠ Fd.TIM_EVT_CTRL_ENABLE ∧ bits w.f.hi w.f.lo v ≠ c.get w.f k 0))
      let c1 := if bitOf v 31 then c else (c.set Fd.TIM_EVT_CTRL_ENABLE k 0 0).setEvt k EvtRt.init
      if other then c1.refuse m r k 0 else c1
    else
      let c1 := (c.plainWrite m false r k 0 v).set Fd.TIM_EVT_CTRL_ENABLE k 0 0
      if !bitOf v 31 then c1
      else if c1.flag Fd.TIM_EVT_CTRL_PERIODIC k 0 && decide (evtPeriod c1 k < (if evtCu c1 k then 2 ^ 20 else 16)) then
        c1.refuse m r k 0
      else (c1.set Fd.TIM_EVT_CTRL_ENABLE k 0 1).evtArm k c1.cu
  else if en then c.refuse m r k 0
  else c.plainWrite m false r k 0 v

/-- Slots after a step or re-anchor (R96, R106): a once slot now past fires at once with LATE, a periodic one resumes at its
first period point after the new time, slots in cu are armed from the first cycle boundary after the anchor. A once slot in cu
that is past when R106 arms it fires with LATE at that boundary (DEDUCED, log 140). -/
def Chip.evtReanchor (c : Chip) : Chip :=
  (c.idxWith Fd.TIM_EVT_CTRL_ENABLE).foldl (fun c k =>
    let r := c.evtRt k
    if !r.armed then c
    else if evtCu c k then
      if !c.anchored then c
      else
        let b := cdiv c.cu (2 ^ 32) * 2 ^ 32
        let t := evtTime c k b
        let past := decide (0 < (b + 2 ^ 64 - t % 2 ^ 64) % 2 ^ 64 ∧ (b + 2 ^ 64 - t % 2 ^ 64) % 2 ^ 64 < 2 ^ 63)
        if !past then c.setEvt k { armed := true, target := t, late := false }
        else if c.flag Fd.TIM_EVT_CTRL_PERIODIC k 0 then
          c.setEvt k { armed := true, target := pointAfter true t (evtPeriod c k) b, late := false }
        else c.setEvt k { armed := true, target := b, late := true }
    else if c.flag Fd.TIM_EVT_CTRL_PERIODIC k 0 then
      let t := evtTime c k 0
      let p := max 1 (evtPeriod c k)
      let now := c.ns
      let next := if now < t then t else t + ((now - t) / p + 1) * p
      c.setEvt k { armed := true, target := next, late := false }
    else if c.nsReached r.target then (c.setEvt k { r with late := true }).evtFire k
    else c) c

/-- TOUT_PULSE_END (R110): the earliest pulse of output `x` that has run its width ends. -/
def toutPulseEnd (x : Nat) (c : Chip) : Chip :=
  match c.toutFall.find? (fun e => decide (e.1.1 = x ∧ e.1.2 ≤ c.tim.clk)) with
  | none => c
  | some e => ({ c with toutFall := c.toutFall.del e.1.1 e.1.2 }).setTout x false

/-! ## Re-anchor and steps (R91 to R93, R96) -/

/-- The number of the whole second plus OFFSET_NS last reached, plus one (R111). -/
def ppsIndex (c : Chip) : Nat :=
  (Int.ofNat (c.ns + 10 ^ 9) - signed 20 (c.get Fd.TIM_PPS_CTRL_OFFSET_NS 0 0)).toNat / 10 ^ 9

/-- The effects of a step on the time users (R96). -/
def Chip.reanchor (c : Chip) : Chip := (((c.cycAnchor).gclRestartAll).sgRestart).evtReanchor

/-- The result of a STEP operand: `none` where R93 finds ARG_ERR. -/
def stepResult (c : Chip) (rel : Bool) : Option Nat :=
  let ns := c.get Fd.TIM_STEP_NS_NS 0 0
  let mag : Nat := (c.get Fd.TIM_STEP_SEC_HI_SEC 0 0 * 2 ^ 32 + c.get Fd.TIM_STEP_SEC_LO_SEC 0 0) * 10 ^ 9 + ns
  if 10 ^ 9 ≤ ns then none
  else
    let r : Int := if !rel then (mag : Int)
      else if c.flag Fd.TIM_STEP_SEC_HI_SIGN 0 0 then (c.ns : Int) - mag else (c.ns : Int) + mag
    if r < 0 ∨ (2 ^ 48 * 10 ^ 9 : Int) ≤ r then none else some r.toNat

/-- A held deadline after a step and a re-anchor (R265): it moves by the step, or by the change of the accumulator, so that
the time that remains is unchanged. -/
def moveDeadline (c0 c1 : Chip) (d : Deadline) : Deadline :=
  match d with
  | .ns t => .ns (cdiv (t * 2 ^ 48 + c1.tim.devT - c0.tim.devT) (2 ^ 48))
  | .cu a => .cu ((a + c1.cycAcc + 2 ^ 96 - c0.cycAcc) % 2 ^ 96)

def moveCopy (c0 c1 : Chip) (x : Copy) : Copy := { x with dl := x.dl.map (moveDeadline c0 c1) }

/-- Every held deadline moves with the clocks that `c1` has set since `c0`. -/
def Chip.moveDeadlines (c0 c1 : Chip) : Chip :=
  if c0.tim.devT = c1.tim.devT ∧ c0.cyc.accX = c1.cyc.accX then c1
  else
    { c1 with atr := { c1.atr with
        queues := c1.atr.queues.map (fun e => (e.1, e.2.map (moveCopy c0 c1))),
        rsq := c1.atr.rsq.map (fun r => { r with held := r.held.map (fun h => { h with copy := moveCopy c0 c1 h.copy }) }) } }

/-- A step is applied (R91, R93, R95): the fraction cleared, EPOCH moved, STEP_USED set, the time users re-anchored at once
while the servo runs, at RELEASE while it is STOPPED. Landing on a rising instant of PPS_OUT is no rise (DESIGN CHOICE, log 139). -/
def Chip.applyStep (c : Chip) (t : Nat) : Chip :=
  let used := c.flag Fd.TIM_STATUS_STEP_USED 0 0
  let c1 := { c with tim := { c.tim with devT := t * 2 ^ 48 }, agerNext := if c.agerNext = 0 then 0 else c.agerNext + t - c.ns }
  let c2 := if used then c1.cntSat Fd.TIM_RESTEP_CNT_COUNT 0 0 1 else c1
  let c3 := (c2.set Fd.TIM_STATUS_STEP_USED 0 0 1).set Fd.TIM_STATUS_EPOCH 0 0 (c.epoch + 1)
  let c4 := { c3 with tim := { c3.tim with ppsIdx := ppsIndex c3, ref := none } }
  if c.servo = svSTOPPED then Chip.moveDeadlines c { c4 with tim := { c4.tim with stepped := true } }
  else
    let c5 := if c.servo = svUNSET then c4.set Fd.TIM_STATUS_SERVO_STATE 0 0 svTRACK else c4
    Chip.moveDeadlines c c5.reanchor

/-- A write of TIM_CMD (R92, R93). -/
def timCmd (m op : Nat) (c : Chip) : Chip :=
  let st := Fd.TIM_CMD_STATUS
  let addr := addrOf .TIM_CMD 0 0
  let tooLate := c.flag Fd.TIM_STATUS_STEP_USED 0 0 && !c.stopped 3 0
  let step (rel : Bool) : Chip :=
    c.command st 0 0 m addr id [(tooLate, sSTATE), ((stepResult c rel).isNone, sARG)]
      (fun c => ((c.applyStep ((stepResult c rel).getD 0))).set st 0 0 sDONE)
  if op = 1 then step false
  else if op = 2 then step true
  else if op = 3 then
    c.command st 0 0 m addr id [] (fun c => ({ c with tim := { c.tim with integ := 0, ref := none } }).set st 0 0 sDONE)
  else c.command st 0 0 m addr id [(true, sARG)] id

/-- TIME reaches QUIESCED (R95): the servo halts. -/
def Chip.timeQuiesced (c : Chip) : Chip :=
  if c.servo = svSTOPPED then c
  else { c.set Fd.TIM_STATUS_SERVO_STATE 0 0 svSTOPPED with
         tim := { c.tim with savedState := c.servo, stepped := false, ref := none } }

/-- TIME is released (R95, R96, R105): a step made while stopped re-anchors and enters TRACK; otherwise the state before STOP
returns, and the cycle clock anchors after a mode change or at the first release. -/
def Chip.timeReleased (c : Chip) : Chip :=
  let c1 :=
    if c.servo ≠ svSTOPPED then c
    else if c.tim.stepped then
      { (c.set Fd.TIM_STATUS_SERVO_STATE 0 0 svTRACK).set Fd.TIM_STATUS_STBY_HOLD 0 0 0 with
        tim := { c.tim with integ := 0, stepped := false, ref := none } }
    else { c.set Fd.TIM_STATUS_SERVO_STATE 0 0 c.tim.savedState with tim := { c.tim with ref := none } }
  if c.servo = svSTOPPED ∧ c.tim.stepped then Chip.moveDeadlines c c1.reanchor
  else if c1.cyc.anchMode ≠ c1.cycMode then Chip.moveDeadlines c (((c1.cycAnchor).gclRestartAll).sgRestart).evtReanchor
  else c1

/-! ## Writes of rate, offset and frequency -/

/-- RATE_LO_STAGE (R82). -/
def rateLoWrite (v : Nat) (c : Chip) : Chip := { c with tim := { c.tim with rateLo := v } }

/-- RATE_COMMIT (R82, R83). -/
def rateHiWrite (m v : Nat) (c : Chip) : Chip :=
  if c.servo = svHOLDOVER ∨ c.servo = svSTOPPED ∨ c.get Fd.TIM_CTRL_SERVO_SRC 0 0 ≠ 0 then c.refuse m .TIM_RATE_HI 0 0
  else c.commitRate (signed 40 (v % 256 * 2 ^ 32 + c.tim.rateLo % 2 ^ 32))

/-- OFFSET_WRITE (R94, R95, R481). Under HOST_RATE, and under PPS_IN (DEDUCED, log 16), a written offset serves jump
supervision only. -/
def offsetWriteC (m v : Nat) (c : Chip) : Chip :=
  if c.get Fd.TIM_CMD_STATUS 0 0 = sBUSY then c.refuse m .TIM_OFFSET 0 0
  else
    let c1 := c.set Fd.TIM_OFFSET_OFFSET 0 0 v
    let e := signed 32 v
    if c.get Fd.TIM_CTRL_SERVO_SRC 0 0 = 1 then c1.servoOffset e none else c1.judgeOffset e none

/-- A step operand (R481). -/
def stepOperandWrite (m : Nat) (r : R) (v : Nat) (c : Chip) : Chip :=
  if c.get Fd.TIM_CMD_STATUS 0 0 = sBUSY then c.refuse m r 0 0 else c.plainWrite m false r 0 0 v

/-- PPS_IN_EDGE (R94): the offset is device time modulo one second, folded into half a second either way. -/
def ppsInEdge (c : Chip) : Chip :=
  if c.get Fd.TIM_CTRL_SERVO_SRC 0 0 ≠ 2 ∨ !c.running then c
  else
    let x := c.nsec
    let e : Int := if x ≤ 500000000 then x else (x : Int) - 10 ^ 9
    c.servoOffset e (some (10 ^ 9))

/-- CLK10M_LOST (R83). -/
def clk10mLost (c : Chip) : Chip :=
  (({ c with pins := { c.pins with clk10m := false } }).set Fd.TIM_STATUS_CLK10M_LOST 0 0 1).raise fCLK10M 0

/-- CLK10M_RETURN: the condition clears (R419). -/
def clk10mReturn (c : Chip) : Chip := { c with pins := { c.pins with clk10m := true } }

/-- CYC_FREQ_WRITE (R102). The register holds the value applied in HOST_FREQ, the value within the range otherwise
(DEDUCED, log 17). -/
def cycFreqWrite (v : Nat) (c : Chip) : Chip :=
  let p := c.clampFreq v
  if c.cycMode ≠ 3 then p.2.set Fd.TIM_CYC_FREQ_UHZ 0 0 p.1
  else
    let cur := c.cyc.freqNext.getD c.cyc.freq
    let lim := c.get Fd.TIM_CYC_CTRL_SLEW_MHZ 0 0 * 100000
    let f := max (cur - lim) (min (cur + lim) p.1)
    let c1 := if f = p.1 then p.2 else p.2.set Fd.TIM_CYC_STATUS_FREQ_CLAMP 0 0 1
    let c2 := c1.set Fd.TIM_CYC_FREQ_UHZ 0 0 f
    { c2 with cyc := { c2.cyc with freqNext := some f } }

/-- A write of TIM_CYC_NOM_FREQ (R63, R102): clamped to the range; in NOMINAL it is the frequency in use. -/
def nomFreqWrite (m v : Nat) (c : Chip) : Chip :=
  if !c.stopped 3 0 then c.plainWrite m false .TIM_CYC_NOM_FREQ 0 0 v
  else
    let p := c.clampFreq v
    let c1 := p.2.set Fd.TIM_CYC_NOM_FREQ_UHZ 0 0 p.1
    if c.cycMode = 0 then { c1 with cyc := { c1.cyc with freqNext := some p.1 } } else c1

/-- A write of TIM_CYC_CTRL: a change of RAIL changes the range (R102). -/
def cycCtrlWrite (m : Nat) (kg : Bool) (v : Nat) (c : Chip) : Chip :=
  let c1 := c.plainWrite m kg .TIM_CYC_CTRL 0 0 v
  if c1.get Fd.TIM_CYC_CTRL_RAIL 0 0 = c.get Fd.TIM_CYC_CTRL_RAIL 0 0 then c1 else c1.reRange

/-! ## Reference edges and losses -/

/-- A reference, and what becomes of lists in cu when the clock is anchored by it (R106). -/
def Chip.cycRef (c : Chip) (at_ expect : Nat) : Chip :=
  let c1 := c.cycReference at_ expect
  if c1.anchored && !c.anchored then Chip.moveDeadlines c (c1.gclAnchored).evtReanchor else c1

/-- CYC_REF_EDGE (R103): in REF_PIN, the edge at the present instant. -/
def cycRefEdge (c : Chip) : Chip :=
  if c.cycMode = 1 && c.running then
    c.cycRef (c.tim.devT / 2 ^ 46 * 2 ^ 46) (c.get Fd.TIM_CYC_REF_PHASE_CU 0 0) else c

/-- CYC_REF_LOSS (R104): no reference for 2 nominal cycles, or 3 expected samples. -/
def cycRefLoss (c : Chip) : Chip :=
  let st := c.get Fd.TIM_CYC_STATUS_STATE 0 0
  let last := c.cyc.refT.getD 0
  if (st = cyLOCKED ∨ st = cyPULLIN) ∧ last + c.refWait ≤ c.tim.devT then c.cycHold else c

/-- CYC_SECOND_RECOMPUTE (R105): once for each device-time second, in NOMINAL. -/
def cycSecondRecompute (c : Chip) : Chip :=
  if c.cycMode = 0 && c.anchored && decide (c.get Fd.TIM_CYC_STATUS_STATE 0 0 = cyNOMINAL) && decide (c.cyc.secAt ≠ c.secs) then
    { c with cyc := { c.cyc with accX := anchorAcc c.tim.devT c.cyc.freq, secAt := c.secs } }
  else c

/-! ## PPS_OUT (R111) -/

def Chip.ppsHeld (c : Chip) : Bool :=
  c.flag Fd.TIM_CTRL_PPS_QUAL 0 0 && decide (c.servo = svUNSET ∨ c.servo = svHOLDOVER)

/-- The level of PPS_OUT. -/
def Chip.ppsLevel (c : Chip) : Bool := c.pins.ppsOut && !c.ppsHeld && c.running

/-- A write of TIM_PPS_CTRL (R111): rising instants are counted anew from an ENABLE that is set and from a new OFFSET_NS. -/
def ppsCtrlWrite (m : Nat) (kg : Bool) (v : Nat) (c : Chip) : Chip :=
  let c1 := c.plainWrite m kg .TIM_PPS_CTRL 0 0 v
  if c.flag Fd.TIM_PPS_CTRL_ENABLE 0 0 ∧ c1.get Fd.TIM_PPS_CTRL_OFFSET_NS 0 0 = c.get Fd.TIM_PPS_CTRL_OFFSET_NS 0 0 then c1
  else { c1 with tim := { c1.tim with ppsIdx := ppsIndex c1 } }

def ppsOutRise (c : Chip) : Chip :=
  if c.flag Fd.TIM_PPS_CTRL_ENABLE 0 0 && c.running && decide (c.tim.ppsIdx ≠ ppsIndex c) then
    let w := max 1 (min 999 (c.get Fd.TIM_PPS_CTRL_WIDTH_MS 0 0))
    { c with pins := { c.pins with ppsOut := !c.ppsHeld }
             tim := { c.tim with ppsIdx := ppsIndex c, ppsFall := c.tim.clk + w * 10 ^ 6 } }
  else c

def ppsOutFall (c : Chip) : Chip :=
  if c.pins.ppsOut && decide (c.tim.ppsFall ≤ c.tim.clk) then { c with pins := { c.pins with ppsOut := false } } else c

/-! ## Captures (R112) and timestamp queues (R97 to R99) -/

/-- CAP_IN_EDGE: `stableNs` is how long the new level has held; the edge lies that long before now. -/
def capInEdge (x : Nat) (rising : Bool) (stableNs : Nat) (c : Chip) : Chip :=
  let edge := c.get Fd.TIM_CAP_CTRL_EDGE x 0
  if !c.flag Fd.TIM_CAP_CTRL_ENABLE x 0 || !c.running || !decide (c.get Fd.TIM_CAP_CTRL_FILTER_NS x 0 ≤ stableNs) ||
      !(decide (edge = 3) || (decide (edge = 1) && rising) || (decide (edge = 2) && !rising)) then c
  else
    let q := c.caps.get [] x
    if 16 ≤ q.length then c.set Fd.TIM_CAP_STATUS_OVF x 0 1
    else
      let d := stableNs * 2 ^ 48
      let acc := (c.cyc.accX + 2 ^ 144 - incOf c.cyc.freq * d % 2 ^ 144) % 2 ^ 144 / 2 ^ 48
      let e : CapRec :=
        { devT := (c.tim.devT - d) / 2 ^ 46 * 2 ^ 46, rising := rising, angleValid := c.anchored, epoch := c.epoch, acc := acc }
      { c with caps := c.caps.put [] x (q ++ [e]) }

/-- A transmit timestamp taken in EPOCH `ep` (R96 to R98): discarded and counted when the queue holds 16, or the hall its share of a shared port's
queue (R341). -/
def Chip.tsqPush (c : Chip) (n hall source id_ t ep : Nat) : Chip :=
  let q := c.tsq.get [] n
  let mine := (q.filter (fun e => decide (e.hall = hall))).length
  if 16 ≤ q.length ∨ (c.shared n ∧ c.get Fd.GLB_QUOTA_W8_TSQ_SHARE hall 0 ≤ mine) then
    let c1 := (c.cntWrap Fd.TIM_TSQ_STATUS_LOST_CNT n 0 1).set Fd.TIM_TSQ_STATUS_LOST n 0 1
    { c1 with tsqLost := c1.tsqLost.put false n true }
  else
    let e : TsRec :=
      { devT := t / 2 ^ 46 * 2 ^ 46, lostBefore := c.tsqLost.get false n, epoch := ep, source := source, hall := hall, id := id_ }
    ({ c with tsq := c.tsq.put [] n (q ++ [e]), tsqLost := c.tsqLost.put false n false }).hallEvent hall

/-- The first entry of a queue that the reader sees: hall `h` through its window only its own, otherwise any (R99). -/
def tsqHead (c : Chip) (n : Nat) (via : Option Nat) : Option TsRec :=
  (c.tsq.get [] n).find? (fun e => match via with
    | none => true
    | some h => decide (e.hall = h))

/-- Remove the first entry that the reader sees. -/
def tsqPop (c : Chip) (n : Nat) (via : Option Nat) : Chip :=
  match tsqHead c n via with
  | none => c
  | some e => { c with tsq := c.tsq.put [] n ((c.tsq.get [] n).erase e) }

def capPop (c : Chip) (x : Nat) : Chip := { c with caps := c.caps.put [] x ((c.caps.get [] x).drop 1) }

/-- The time users at entry to STANDBY (R111, R114): outputs low; the cycle clock holds, with UNLOCK where it followed a
reference. -/
def Chip.timeStandby (c : Chip) : Chip :=
  let c1 := { c with pins := { c.pins with ppsOut := false, tout := 0 }, toutFall := [] }
  if c.cycMode = 1 ∨ c.cycMode = 2 then
    (if c.get Fd.TIM_CYC_STATUS_STATE 0 0 = cyHOLD then c1 else c1.cycHold)
  else c1.set Fd.TIM_CYC_STATUS_STATE 0 0 cyHOLD

/-- The time users at the exit from STANDBY (R95, R96, R111, R114). A stop of TIME ends there as by a RELEASE (DEDUCED, log 57). -/
def Chip.timeStandbyExit (c : Chip) : Chip :=
  let was := if c.servo ≠ svSTOPPED then c.servo else if c.tim.stepped then svTRACK else c.tim.savedState
  let c1 :=
    if was = svTRACK ∨ was = svHOLDOVER then
      { (c.set Fd.TIM_STATUS_SERVO_STATE 0 0 svHOLDOVER).set Fd.TIM_STATUS_STBY_HOLD 0 0 1 with tim := { c.tim with recov := 0 } }
    else c.set Fd.TIM_STATUS_SERVO_STATE 0 0 was
  let c2 := if c.servo = svSTOPPED ∧ c.tim.stepped then
      { (if c1.cycMode = 0 ∨ c1.cycMode = 3 then c1.cycAnchor else c1) with tim := { c1.tim with integ := 0, stepped := false } } else c1
  let c3 := if c2.cycMode = 0 then c2.set Fd.TIM_CYC_STATUS_STATE 0 0 cyNOMINAL
    else if c2.cycMode = 3 then c2.set Fd.TIM_CYC_STATUS_STATE 0 0 cyFREE else c2
  ({ c3 with tim := { c3.tim with ppsIdx := ppsIndex c3 } }).evtReanchor

end Sys2Proof.Machine
end

