-- ==== Sys2Proof/Machine/Cells.lean ====
section
/-! DEFINITION. The atrium's cells, references and queues (R248 to R258): the allocator, the charges, what discarding a copy
or a frame gives back, retired banks, and the counters of a discard. -/

namespace Sys2Proof.Machine

/-! ## Cells and banks (R248 to R253) -/

/-- Bank `b` is retired. -/
def Chip.bankRetired (c : Chip) (b : Nat) : Bool := bitOf (c.get Fd.ATR_BANK_MAP_MAP (b / 32) 0) (b % 32)

/-- Retired banks of group `g`. -/
def Chip.retiredIn (c : Chip) (g : Nat) : Nat := ((List.range 4).filter (fun w => c.bankRetired (4 * g + w))).length

/-- Retired banks (ATR_STATUS.RETIRED). -/
def Chip.banksRetired (c : Chip) : Nat := ((List.range 64).filter c.bankRetired).length

/-- A cell is a donor of its group (R251). -/
def Chip.donor (c : Chip) (cell : Nat) : Bool := decide (4 - c.retiredIn (cell % 16) ≤ cell / 16 % 4)

/-- The bank that holds word `w` of a cell: its own, or where that is retired the stand-in's (R248, R251). -/
def Chip.wordBank (c : Chip) (cell w : Nat) : Nat :=
  let g := cell % 16
  let gone (v : Nat) : Bool := c.bankRetired (4 * g + v)
  if !gone w then 4 * g + w
  else
    let r := c.retiredIn g
    let words (js : List Nat) (keep : Nat → Bool) : List (Nat × Nat) :=
      js.flatMap (fun j => ((List.range 4).filter keep).map (fun v => (j, v)))
    let missing := words (List.range (4 - r)) gone
    let live := words ((List.range r).map (fun j => 4 - r + j)) (fun v => !gone v)
    match (missing.zip live).find? (fun e => decide (e.1 = (cell / 16 % 4, w))) with
    | some e => 4 * g + e.2.2
    | none => 4 * g + w

/-- Every cell that a frame holds. -/
def Chip.cellsHeld (c : Chip) : List Nat := c.atr.frames.flatMap (fun e => e.2.cells)

def Chip.atrFree (c : Chip) : Nat := c.get Fd.ATR_STATUS_FREE 0 0

/-- A free cell of group `g`, `held` being in use: the first row at or after a free value (R249 states no order, log 18). -/
def Chip.freeCellOf (c : Chip) (held : List Nat) (g : Nat) : Option Nat :=
  let used := (held.filter (fun x => decide (x % 16 = g))).map (fun x => x / 16)
  let bad (r : Nat) : Bool := decide (r ∈ used) || c.donor (16 * r + g)
  if c.retiredIn g = 4 then none
  else
    let r0 := Config.freeCell g c.freeCtr % 24576
    ((List.range (4 * (used.length + 1))).map (fun k => (r0 + k) % 24576)).find? (fun r => !bad r) |>.map (fun r => 16 * r + g)

/-- The next cell in rotation (R249): the group after the one that gave the previous cell, empty groups skipped. -/
def Chip.takeCell (c : Chip) (held : List Nat) : Option (Nat × Chip) :=
  (List.range 16).findSome? (fun k =>
    let g := (c.atr.nextGroup + k) % 16
    (c.freeCellOf held g).map (fun x =>
      (x, ({ c with freeCtr := c.freeCtr + 1, atr := { c.atr with nextGroup := (g + 1) % 16 } }).set Fd.ATR_STATUS_FREE 0 0
        (c.atrFree - 1))))

/-- Take `n` cells; fewer when none is free. -/
def Chip.takeCells (held : List Nat) : Nat → Chip → List Nat × Chip
  | 0, c => ([], c)
  | n + 1, c =>
    if c.atrFree = 0 then ([], c)
    else
      match c.takeCell held with
      | none => ([], c)
      | some (x, c1) =>
        let r := Chip.takeCells (x :: held) n c1
        (x :: r.1, r.2)

/-- Return cells to their free lists; a donor joins the retired set instead (R252). -/
def Chip.giveCells (c : Chip) (cells : List Nat) : Chip :=
  c.set Fd.ATR_STATUS_FREE 0 0 (c.atrFree + (cells.filter (fun x => !c.donor x)).length)

/-- Charge `n` cells to a hall and a class, or take them off (R255, R258). -/
def Chip.charge (c : Chip) (hall cls n : Nat) : Chip :=
  let c1 := c.set Fd.ATR_HALL_USE_USE hall 0 (c.get Fd.ATR_HALL_USE_USE hall 0 + n)
  c1.set Fd.ATR_CLASS_USE_USE cls 0 (c1.get Fd.ATR_CLASS_USE_USE cls 0 + n)

def Chip.uncharge (c : Chip) (hall cls n : Nat) : Chip :=
  let c1 := c.set Fd.ATR_HALL_USE_USE hall 0 (c.get Fd.ATR_HALL_USE_USE hall 0 - n)
  c1.set Fd.ATR_CLASS_USE_USE cls 0 (c1.get Fd.ATR_CLASS_USE_USE cls 0 - n)

/-- Class under which a frame is charged: its header's, and 0 for a frame without one. -/
def Frame.cls (f : Frame) : Nat := (f.hdr.map (fun h => h.cls)).getD 0

/-! ## Frames and references -/

/-- A frame of which nothing is left to do leaves the device: no reference, not in a vestibule, not in a pipeline. -/
def Chip.gc (c : Chip) (fid : Nat) : Chip :=
  match c.frame fid with
  | none => c
  | some f =>
    if f.refs ≠ 0 ∨ fid ∈ (c.port f.port).vest ∨ (c.port f.port).rx = some fid ∨ (c.port f.port).rxHeld = some fid ∨ fid ∈ (c.pipe f.pipe).buf then c
    else c.delFrame fid

/-- Give back a frame's cells and charges. -/
def Chip.freeFrameCells (c : Chip) (fid : Nat) (f : Frame) : Chip :=
  let c1 := (c.giveCells f.cells).uncharge f.hall f.cls f.charged
  c1.setFrame fid { f with cells := [], charged := 0, refs := 0 }

/-- One reference of a frame has been read or discarded (R258). -/
def Chip.release (c : Chip) (fid : Nat) : Chip :=
  match c.frame fid with
  | none => c
  | some f =>
    if f.refs ≤ 1 then (c.freeFrameCells fid f).gc fid
    else c.setFrame fid { f with refs := f.refs - 1 }

/-- A new frame record; its number. -/
def Chip.newFrame (c : Chip) (f : Frame) : Nat × Chip :=
  (c.atr.nextFid, ({ c with atr := { c.atr with nextFid := c.atr.nextFid + 1 } }).setFrame c.atr.nextFid f)

/-! ## Queues -/

/-- The queue (port, leaf queue), or (128 + hall, ring) of a host queue. -/
def Chip.queue (c : Chip) (n q : Nat) : List Copy := c.atr.queues.get [] n q
def Chip.setQueue (c : Chip) (n q : Nat) (l : List Copy) : Chip :=
  { c with atr := { c.atr with queues := c.atr.queues.put [] n q l } }

/-- The runtime of session `s`. -/
def Chip.mirRt (c : Chip) (s : Nat) : MirRt := c.atr.mir.get MirRt.init s
def Chip.setMir (c : Chip) (s : Nat) (r : MirRt) : Chip := { c with atr := { c.atr with mir := c.atr.mir.put MirRt.init s r } }

/-- The descriptors that a context goes on holding; it remembers until when it held any (R277). -/
def Rsq.keepHeld (clk : Nat) (keep : Held → Bool) (r : Rsq) : Rsq :=
  { r with held := r.held.filter keep, heldAt := if r.held.isEmpty then r.heldAt else clk }

/-- The leaf queues of port `n` that hold a copy. -/
def Chip.busyQueues (c : Chip) (n : Nat) : List Nat := (c.atr.queues.filter (fun e => decide (e.1.1 = n))).map (fun e => e.1.2)

/-- The descriptors that the resequencer holds for a queue. -/
def Chip.heldFor (c : Chip) (n q : Nat) : List Held :=
  c.atr.rsq.flatMap (fun r => r.held.filter (fun h => decide (h.port = n ∧ h.q = q)))

/-- Cells of a copy: those its frame is charged. -/
def Chip.copyCells (c : Chip) (x : Copy) : Nat := ((c.frame x.fid).map (fun f => f.charged)).getD 0

/-- Q_q of R255, SCH_n_Q_q_DEPTH: the cells charged to a queue, held descriptors included (R278). -/
def Chip.qCells (c : Chip) (n q : Nat) : Nat :=
  ((c.queue n q ++ (c.heldFor n q).map (fun h => h.copy)).map c.copyCells).foldl (· + ·) 0

/-- SCH_n_Q_q_FRAMES: the copies that a queue holds. -/
def Chip.qCopies (c : Chip) (n q : Nat) : Nat := (c.queue n q).length + (c.heldFor n q).length

/-! ## Discards -/

def xRED : Nat := 0
def xDEVFULL : Nat := 1
def xHALL : Nat := 2
def xCLASS : Nat := 3
def xQUEUE : Nat := 4
def xAGEDADMIT : Nat := 5
def xRESTART : Nat := 6
def xOVERRUN : Nat := 7
def xRETIRE : Nat := 8
def xCORR : Nat := 9
def xUNCORR : Nat := 10
def xAGEDHEAD : Nat := 11
def xAGEDSWEEP : Nat := 12
def xSKIPLATE : Nat := 13
def xRSQFULL : Nat := 14
def xNOCTX : Nat := 15
def xRSQTIMEOUT : Nat := 16
def xSMPRANGE : Nat := 17
def xUNANCH : Nat := 18

/-- ATR_CNT_i (R279). -/
def Chip.atrCnt (c : Chip) (i n : Nat) : Chip := c.cntSat Fd.ATR_CNT_COUNT i 0 n

/-- RSQ_SKIP and RSQ_LATE share one counter word, each half saturating. -/
def Chip.rsqSkip (c : Chip) (n : Nat) : Chip :=
  let v := c.get Fd.ATR_CNT_COUNT xSKIPLATE 0
  c.set Fd.ATR_CNT_COUNT xSKIPLATE 0 (min (v / 65536 + n) 65535 * 65536 + v % 65536)
def Chip.rsqLate (c : Chip) (n : Nat) : Chip :=
  let v := c.get Fd.ATR_CNT_COUNT xSKIPLATE 0
  c.set Fd.ATR_CNT_COUNT xSKIPLATE 0 (v / 65536 * 65536 + min (v % 65536 + n) 65535)

/-- PRT_n_DISC_c and the device total: a copy of class `cls` discarded for port `n` at egress (R125). -/
def Chip.disc (c : Chip) (n cls : Nat) : Chip :=
  let c1 := c.discard1
  if n < 96 then c1.cntSat Fd.PRT_DISC_COUNT n cls 1 else c1

/-- Stage 2 counters of a port (R138). -/
def Chip.rxCnt (c : Chip) (n i k : Nat) : Chip := c.cntSat Fd.PRT_RX_CNT_COUNT n i k

/-- An egress copy of port `n` cut short or stomped (TX_ABORT). -/
def Chip.txAbort (c : Chip) (n : Nat) : Chip := c.rxCnt n 11 1

/-- A session copy that is discarded before it is sent is no record: what its header would have told goes to the session's next
one (R273; DEDUCED, log 148). -/
def Chip.unsample (c : Chip) (x : Copy) : Chip :=
  if x.kind ≠ 2 then c
  else
    let r := c.mirRt x.sess
    c.setMir x.sess { r with pool := min (r.pool + x.pool) (2 ^ 32 - 1), lost := min (r.lost + x.lost) (2 ^ 32 - 1) }

/-- Discard a descriptor for port `n`: counted for its class, its reference released. -/
def Chip.dropCopy (c : Chip) (n : Nat) (x : Copy) : Chip := ((c.unsample x).disc n x.cls).release x.fid

/-- Discard every copy of queue (n, q), the held ones included. -/
def Chip.dropQueue (c : Chip) (n q : Nat) : Chip :=
  let xs := c.queue n q ++ (c.heldFor n q).map (fun h => h.copy)
  let c1 := c.setQueue n q []
  let rs := c1.atr.rsq.map (Rsq.keepHeld c1.tim.clk (fun h => decide (¬ (h.port = n ∧ h.q = q))))
  let c2 : Chip := { c1 with atr := { c1.atr with rsq := rs } }
  xs.foldl (fun c x => c.dropCopy n x) c2

/-- The queues of port `n` that hold a copy, or for which the resequencer holds one. -/
def Chip.allQueues (c : Chip) (n : Nat) : List Nat :=
  (c.atr.rsq.flatMap (fun r => (r.held.filter (fun h => decide (h.port = n))).map (fun h => h.q))).foldl
    (fun l q => insNew q l) (c.busyQueues n)

/-- Discard every copy held for port `n`. -/
def Chip.dropPortQueues (c : Chip) (n : Nat) : Chip := (c.allQueues n).foldl (fun c q => c.dropQueue n q) c

/-! ## A frame that fails -/

/-- The transmissions of a frame that are on the wire end stomped (R40). -/
def stompTx (fid : Nat) (t : Option Tx) : Option Tx :=
  t.map (fun x => if x.copy.fid = fid then { x with stomp := true } else x)

/-- Copies of frame `fid` that have not begun are discarded, those on the wire end stomped (R40, R250, R256). -/
def Chip.killFrame (c : Chip) (fid : Nat) : Chip :=
  let qs := (c.atr.queues.filter (fun e => e.2.any (fun x => decide (x.fid = fid)))).map (fun e => e.1)
  let c1 : Chip := qs.foldl (fun (c : Chip) (k : Nat × Nat) =>
    let l := c.queue k.1 k.2
    let gone := l.filter (fun x => decide (x.fid = fid))
    gone.foldl (fun c x => ((c.unsample x).discard1).release x.fid) (c.setQueue k.1 k.2 (l.filter (fun x => decide (x.fid ≠ fid))))) c
  let gone := c1.atr.rsq.flatMap (fun r => r.held.filter (fun h => decide (h.copy.fid = fid)))
  let rs := c1.atr.rsq.map (Rsq.keepHeld c1.tim.clk (fun h => decide (h.copy.fid ≠ fid)))
  let c2 : Chip := { c1 with atr := { c1.atr with rsq := rs } }
  let c3 : Chip := gone.foldl (fun c h => (c.discard1).release h.copy.fid) c2
  { c3 with ports := c3.ports.map (fun e => (e.1, { e.2 with tx := stompTx fid e.2.tx, held := stompTx fid e.2.held })) }

/-- Take a frame out of the vestibule of its port (R140). -/
def Chip.leaveVest (c : Chip) (fid : Nat) : Chip :=
  match c.frame fid with
  | none => c
  | some f =>
    if f.port < 96 then c.setPort f.port { c.port f.port with vest := (c.port f.port).vest.filter (fun i => decide (i ≠ fid)) }
    else c

/-- Vestibule space returns at the later of the frame's end and stage 8 (DEDUCED, log 19). -/
def Chip.settleVest (c : Chip) (fid : Nat) : Chip :=
  match c.frame fid with
  | none => c
  | some f => if f.ended ∧ f.staged then (c.leaveVest fid).gc fid else c

/-- The lengths of a frame on the wire, FCS included: as received, and after stage 3. -/
def Frame.wireLen (f : Frame) : Nat := f.wire.length + 4
def Frame.len (f : Frame) : Nat := f.data.length + 4

/-! ## Bank retirement (R251, R252) -/

/-- Retire bank `b`: the donors that are free leave the free lists, frames with a cell of the group are marked. -/
def Chip.retireBank (c : Chip) (b : Nat) : Chip :=
  if c.bankRetired b then c
  else
    let g := b / 4
    let j := 3 - c.retiredIn g
    let used := c.cellsHeld.filter (fun x => decide (x % 16 = g ∧ x / 16 % 4 = j))
    let c1 := c.set Fd.ATR_BANK_MAP_MAP (b / 32) 0 (setBit (c.get Fd.ATR_BANK_MAP_MAP (b / 32) 0) (b % 32) true)
    let c2 := c1.set Fd.ATR_STATUS_FREE 0 0 (c1.atrFree - (6144 - used.length))
    let hit (f : Frame) : Bool := f.cells.any (fun x => decide (x % 16 = g))
    let fids := (c2.atr.frames.filter (fun e => hit e.2)).map (fun e => e.1)
    let c3 : Chip := { c2 with atr := { c2.atr with frames := c2.atr.frames.map (fun e =>
      (e.1, if hit e.2 then { e.2 with marked := true } else e.2)) } }
    let c4 : Chip := { c3 with ports := c3.ports.map (fun e =>
      (e.1, { e.2 with tx := fids.foldl (fun t i => stompTx i t) e.2.tx, held := fids.foldl (fun t i => stompTx i t) e.2.held })) }
    c4.raise fBANK b

end Sys2Proof.Machine
end

