-- ==== Sys2Proof/Machine/Parse.lean ====
section
/-! DEFINITION. Stage 5: the walk of a header through the parse graph of the image in force (R152 to R161), and the PRP
trailer reader (R162). -/

namespace Sys2Proof.Machine

/-- The walk so far: cursor, node, visits in all and per node, inner crossings, VLAN headers at level 0 with the first TCI, the
first offset of each header identifier, the last Ethertype field, the last header with a length, the header stack, the PTP
header, the parse vector and the profile. -/
structure Walk where
  cur : Nat
  node : Nat
  visits : Nat
  counts : NMap Nat
  tunnel : Nat
  vlans : Nat
  tci : Nat
  firsts : NMap Nat
  etype : Nat
  lenHdr : Option (Nat × Nat)
  stack : List (Nat × Nat × Nat)
  ptp : Option Nat
  pv : List Nat
  profile : Nat

def Walk.start : Walk :=
  { cur := 0, node := 0, visits := 0, counts := [], tunnel := 0, vlans := 0, tci := 0, firsts := [], etype := 0, lenHdr := none,
    stack := [], ptp := none, pv := List.replicate 160 0, profile := 0 }

/-- Write bytes into a list at an offset. -/
def putBytes (l : List Nat) (o : Nat) (bs : List Nat) : List Nat := l.take o ++ bs ++ l.drop (o + bs.length)

/-- A BER length at the byte after the tag at `cur` (R158): the number of length octets and the value; `none` is BER_ERR. -/
def berLen (d : List Nat) (cur : Nat) : Option (Nat × Nat) :=
  let b := d.getD (cur + 1) 0
  if b < 0x80 then some (1, b)
  else if 0x81 ≤ b ∧ b ≤ 0x83 then some (b - 0x7F, beAt d (cur + 2) (b - 0x80))
  else none

/-- The header length of a node (R157): the length, the last byte it reads (one past), and whether BER failed. -/
def nodeLen (d : List Nat) (cur : Nat) (nd : Node) : Nat × Nat × Bool :=
  match nd.lenMode with
  | 0 => (nd.lenFixed, 0, false)
  | 1 =>
    let w := beAt d (cur + nd.lenOff) 2
    (w / 2 ^ nd.lenShift % 2 ^ (nd.lenWidth + 1) * nd.lenMul + nd.lenAdd, cur + nd.lenOff + 2, false)
  | m =>
    match berLen d cur with
    | none => (0, cur + 2, true)
    | some (n, l) => (1 + n + (if m = 2 then l else 0), cur + 1 + n, false)

/-- One extract (R156, R158): destination and bytes, one past the last byte it reads, and whether BER failed. -/
def extractOf (d : List Nat) (cur : Nat) (e : Extract) : Nat × List Nat × Nat × Bool :=
  if e.berval then
    match berLen d cur with
    | none => (e.dst, [], cur + 2, true)
    | some (n, l) =>
      if e.len < l then (e.dst, [], cur + 1 + n + l, true)
      else (e.dst, List.replicate (e.len - l) 0 ++ slice d (cur + 1 + n) l, cur + 1 + n + l, false)
  else
    let s := cur + e.srcOff
    if e.nibble then
      (e.dst, (List.range e.len).map (fun j => d.getD (s + j) 0 % 16 * 16 + d.getD (s + j + 1) 0 / 16), s + e.len + 1, false)
    else (e.dst, slice d s e.len, s + e.len, false)

/-- One past the last selector byte that SEL_MASK keeps (DEDUCED, log 20). -/
def selectorEnd (cur : Nat) (nd : Node) : Nat :=
  (List.range 4).foldl (fun a j => if bits (31 - 8 * j) (24 - 8 * j) nd.selMask ≠ 0 then max a (cur + nd.selOff + j + 1) else a) 0

/-- What follows a visit: the walk goes on, or has ended with an EXC code. -/
inductive Visit where
  | go (w : Walk)
  | done (w : Walk) (exc : Nat)

/-- One visit (R156 to R159): the limits in the order of R159, then the length, the extracts, the selector and the move. -/
def visitNode (nodes : List Node) (galEtype maxVisits : Nat) (whole : Bool) (d : List Nat) (w : Walk) : Visit :=
  match nodes[w.node]? with
  | none => .done w 1
  | some nd =>
    let ln := nodeLen d w.cur nd
    let ex := nd.extracts.map (extractOf d w.cur)
    let hard := ex.foldl (fun a e => max a e.2.2.1) ln.2.1
    let cnt := w.counts.get 0 w.node
    if 256 < max hard (selectorEnd w.cur nd) then .done w 2
    else if whole && decide (d.length < hard) then .done w 3
    else if maxVisits < w.visits + 1 then .done w 4
    else if max 1 nd.maxVisits < cnt + 1 then .done w 5
    else if (nd.record && decide (24 ≤ w.stack.length)) || (nd.inner && decide (2 ≤ w.tunnel)) then .done w 6
    else if ln.2.2 || ex.any (fun e => e.2.2.2) then .done w 7
    else
      let h := nd.hdrId
      let vlan := decide ((h = 2 ∨ h = 3) ∧ w.tunnel = 0)
      let w1 := { w with
        visits := w.visits + 1, counts := w.counts.put 0 w.node (cnt + 1),
        firsts := if 1 ≤ h ∧ h ≤ 13 ∧ (w.firsts.find h).isNone then w.firsts.ins h w.cur else w.firsts,
        vlans := if vlan then w.vlans + 1 else w.vlans,
        tci := if vlan ∧ w.vlans = 0 then beAt d w.cur 2 else w.tci,
        etype := if h = 13 then beAt d w.cur 2 else w.etype,
        lenHdr := if h = 6 ∨ h = 7 ∨ h = 10 ∨ h = 11 then some (h, w.cur) else w.lenHdr,
        stack := if nd.record then w.stack ++ [(h, w.cur, w.tunnel)] else w.stack,
        ptp := if nd.ptp then some w.cur else w.ptp,
        pv := ex.foldl (fun (p : List Nat) (e : Nat × List Nat × Nat × Bool) => putBytes p e.1 e.2.1) w.pv,
        profile := if nd.profile = 0 then w.profile else nd.profile }
      let sel := beAt d (w.cur + nd.selOff) 4 &&& nd.selMask
      let hit := nd.trans.find? (fun t =>
        decide (sel &&& t.mask = (if t.galEtype then galEtype * 65536 + t.value % 65536 else t.value)))
      let mv : Nat × Bool := match hit with
        | some t => (t.next, t.hold)
        | none => (nd.defNext, nd.defHold)
      let w2 := { w1 with cur := if mv.2 then w.cur else w.cur + ln.1, tunnel := if nd.inner then w.tunnel + 1 else w.tunnel }
      if mv.1 = 0x80 then .done w2 0
      else if mv.1 = 0x81 then .done w2 1
      else .go { w2 with node := mv.1 }

/-- The walk ends within 49 visits, for no more than 48 are allowed (R161). -/
def walkFrom (nodes : List Node) (galEtype maxVisits : Nat) (whole : Bool) (d : List Nat) : Nat → Walk → Walk × Nat
  | 0, w => (w, 4)
  | fuel + 1, w =>
    match visitNode nodes galEtype maxVisits whole d w with
    | .done w' exc => (w', exc)
    | .go w' => walkFrom nodes galEtype maxVisits whole d fuel w'

/-- DLEN (R153): the received length, the last length field, or the port's MAX_LEN. A length field beyond byte 255 is outside
the parser's window (DEDUCED, log 20). -/
def dlenOf (whole : Bool) (d : List Nat) (lenHdr : Option (Nat × Nat)) (maxLen : Nat) : Nat :=
  if whole then d.length + 4
  else
    match lenHdr with
    | none => maxLen
    | some (h, off) =>
      let pos := if h = 7 then off + 4 else off + 2
      if 254 < pos then maxLen else beAt d pos 2 + (if h = 7 then 40 else 0) + off + 4

/-- Parse vector bytes 0 to 31 (R152). -/
def metaBytes (port : Nat) (whole : Bool) (w : Walk) (exc dlen : Nat) : List Nat :=
  let first (i : Nat) : Nat := (w.firsts.find i).getD 255 % 256
  [port % 128, exc * 32 + min w.tunnel 3 * 8 + w.vlans % 8,
   w.profile * 16 + (if w.vlans = 0 then 0 else 8) + w.tci / 8192,
   b2n (bitOf w.tci 12) * 128 + b2n whole * 64] ++
  beBytes 2 (w.tci % 4096) ++ beBytes 2 w.etype ++ (List.range 13).map (fun k => first (k + 1)) ++ [0] ++
  beBytes 2 w.cur ++ beBytes 2 dlen ++ List.replicate 6 0

/-- Stage 5 for a frame: the header with the results of stage 6 still at their defaults. -/
def parseFrame (nodes : List Node) (galEtype maxVisits maxLen port : Nat) (whole : Bool) (d : List Nat) : Hdr :=
  let r := walkFrom nodes galEtype maxVisits whole d 49 Walk.start
  let w := r.1
  let dlen := dlenOf whole d w.lenHdr maxLen
  { pv := metaBytes port whole w r.2 dlen ++ w.pv.drop 32, stack := w.stack, ptpOff := w.ptp, lenKnown := w.lenHdr.isSome,
    exc := r.2, dlen := dlen, whole := whole, cls := 0, colour := 0, queue := none, stream := none, ent := [], drop := false,
    trap := 0, noLearn := false, ctDis := false, fwd := 0, target := 0, mirror := 0, hash := 0,
    discard6 := false }

/-- MAX_VISITS of a pipeline, 8 to 48 (R170). -/
def Chip.maxVisits (c : Chip) (p : Nat) : Nat := max 8 (min 48 (c.get Fd.PIP_PARSE_CFG_MAX_VISITS p 0))

/-- MAX_LEN of a port, 64 to 16384 (R137). -/
def Chip.maxLen (c : Chip) (n : Nat) : Nat := max 64 (min 16384 (c.get Fd.PRT_MAC_CTRL_MAX_LEN n 0))

def Chip.galEtype (c : Chip) : Nat := c.get Fd.GAL_ETYPE_ETHERTYPE 0 0

/-- Parse a frame of port `n` on pipeline `p`. -/
def Chip.parse (c : Chip) (p n : Nat) (whole : Bool) (d : List Nat) : Hdr :=
  parseFrame ((c.img.inForce.map (fun im => im.nodes)).getD []) c.galEtype (c.maxVisits p) (c.maxLen n) n whole d

/-! ## The parse vector's fields -/

def Hdr.byte (h : Hdr) (i : Nat) : Nat := h.pv.getD i 0
def Hdr.vid (h : Hdr) : Nat := beAt h.pv 4 2 % 4096
def Hdr.profile (h : Hdr) : Nat := h.byte 2 / 16
def Hdr.tagged (h : Hdr) : Bool := bitOf (h.byte 2) 3
def Hdr.pcp (h : Hdr) : Nat := h.byte 2 % 8
def Hdr.dei (h : Hdr) : Bool := bitOf (h.byte 3) 7
def Hdr.vlanCnt (h : Hdr) : Nat := h.byte 1 % 8
def Hdr.smpCnt (h : Hdr) : Nat := beAt h.pv 46 2

/-- The first header of the stack with identifier `i`: its offset. -/
def Hdr.stacked (h : Hdr) (i : Nat) : Option Nat := (h.stack.find? (fun e => decide (e.1 = i))).map (fun e => e.2.1)

/-- The VLAN headers of tunnel level 0 on the stack (R237). -/
def Hdr.vlanOffs (h : Hdr) : List Nat :=
  (h.stack.filter (fun e => decide ((e.1 = 2 ∨ e.1 = 3) ∧ e.2.2 = 0))).map (fun e => e.2.1)

/-- Destination and source address of a frame's bytes. -/
def daOf (d : List Nat) : Nat := beAt d 0 6
def saOf (d : List Nat) : Nat := beAt d 6 6
def isGroup (mac : Nat) : Bool := bitOf mac 40
def isBroadcast (mac : Nat) : Bool := decide (mac = 2 ^ 48 - 1)

/-! ## The PRP trailer reader (R162) -/

/-- The last six bytes of the decrypted frame as sequence and LanId, when they are a valid trailer. -/
def readTrailer (d : List Nat) (vlanCnt : Nat) : Option (Nat × Nat) :=
  let o := d.length - 6
  let lan := d.getD (o + 2) 0 / 16
  let size := beAt d (o + 2) 2 % 4096
  if 6 ≤ d.length ∧ beAt d (o + 4) 2 = 0x88FB ∧ (lan = 10 ∨ lan = 11) ∧ size + 16 + 4 * vlanCnt = d.length + 4 then
    some (beAt d o 2, lan)
  else none

end Sys2Proof.Machine
end

