-- ==== Sys2Proof/Machine/Tables.lean ====
section
/-! DEFINITION. The lookup pool (chapter 6): entries and their words, the two-choice hash, error correction at a read and at an
update, owners and quotas, FDB entries, and learning. -/

namespace Sys2Proof.Machine

def tFDB : Nat := 0
def tMCAST : Nat := 1
def tSTREAM : Nat := 2
def tPOLICER : Nat := 3
def tHEALTH : Nat := 4
def tDUP : Nat := 5
def tRECOVERY : Nat := 6
def tGROUTE : Nat := 7

/-! ## Words of an entry -/

/-- Bits [hi:lo] of word `i` of an entry. -/
def wb (ws : List Nat) (i hi lo : Nat) : Nat := bits hi lo (ws.getD i 0)

/-- Word `i` with bits [hi:lo] replaced. -/
def wset (ws : List Nat) (i hi lo v : Nat) : List Nat :=
  let w := ws.getD i 0
  ws.set i (w - bits hi lo w * 2 ^ lo + v % 2 ^ (hi - lo + 1) * 2 ^ lo)

/-- A 32-bit saturating counter in word `i`. -/
def wadd (ws : List Nat) (i n : Nat) : List Nat := ws.set i (min (ws.getD i 0 + n) (2 ^ 32 - 1))

/-- Words per entry (01_architecture.md, "Figures that size each stage"). -/
def tblWords (t : Nat) : Nat := match t with
  | 0 => 8 | 1 => 4 | 2 => 16 | 3 => 8 | 4 => 8 | 5 => 8 | 6 => 16 | _ => 16

/-- The valid bit of an entry (R178, R185, R194, R196, R230, R242, R268, R323). -/
def tblValid (t : Nat) (ws : List Nat) : Bool :=
  if t = tMCAST then bitOf (ws.getD 3 0) 31
  else if t = tPOLICER then bitOf (ws.getD 3 0) 8
  else bitOf (ws.getD 0 0) 31

/-- The entry image with its valid bit cleared. -/
def tblInvalid (t : Nat) (ws : List Nat) : List Nat :=
  if t = tMCAST then wset ws 3 31 31 0 else if t = tPOLICER then wset ws 3 8 8 0 else wset ws 0 31 31 0

/-- The bits of each word of an entry that its layout names; the others are reserved and read 0 (R178, R185, R194, R196, R230,
R242, R268, R9). -/
def tblMask (t : Nat) : List Nat :=
  let all := 2 ^ 32 - 1
  match t with
  | 0 => [0xFF800FFF, all, 0xFFFF0000, 0x0107FFFF, 0x80000007, 0x00F00000, 0xFFFF, 0]
  | 1 => [all, all, all, 0xFE000000]
  | 2 => 0xF000FFFF :: List.replicate 12 all ++ [0x80FFFFFF, 0xFF007FFF, 0xC0003FFF]
  | 3 => [all, all, all, 0xFFFF3F00, all, all, all, all]
  | 4 => [0xC000FFFF, all, all, all, all, all, all, 0xFFFF0000]
  | 5 => [0xFF3FFFFF, all, all, all, all, 0x80000003, all, 0]
  | 6 => [0xBF7F001F, 0x1FFFF, 0xFFFF, 0xFFFF] ++ List.replicate 7 all ++ List.replicate 5 0
  | _ => List.replicate 16 all

/-- The words of an entry without its reserved bits. -/
def tblClean (t : Nat) (ws : List Nat) : List Nat := (tblMask t).zipWith (fun m w => m &&& w) (ws ++ List.replicate 16 0)

/-- Entries of an alcove as the image carves it; 0 when it does not (R475). -/
def Chip.tblSize (c : Chip) (t : Nat) : Nat := ((c.img.inForce.map (fun im => im.carve.get 0 t)).getD 0)

def tblHashed (t : Nat) : Bool := decide (t = tFDB ∨ t = tSTREAM)

/-- The valid entry at an index. -/
def Chip.entry (c : Chip) (t i : Nat) : Option (List Nat) := c.tbl.find t i

/-- The hall that owns an entry: a field of the entry, or the hall named when it was inserted (log 21). -/
def Chip.entryHall (c : Chip) (t i : Nat) : Nat :=
  let ws := (c.entry t i).getD []
  if t = tFDB then wb ws 0 27 23
  else if t = tMCAST then wb ws 3 30 26
  else if t = tDUP then wb ws 0 28 24
  else if t = tRECOVERY then wb ws 0 4 0
  else c.tblHall.get 0 t i

/-- The indices of the valid entries of a table, ascending. -/
def Chip.entries (c : Chip) (t : Nat) : List Nat := (c.tbl.filter (fun e => decide (e.1.1 = t))).map (fun e => e.1.2)

/-- Valid entries of hall `h` in a table: what its quota counts (R341). -/
def Chip.tblUse (c : Chip) (t h : Nat) : Nat := ((c.entries t).filter (fun i => decide (c.entryHall t i = h))).length

/-- The quota of hall `h` for a table (R340). -/
def Chip.tblQuota (c : Chip) (t h : Nat) : Nat :=
  match t with
  | 0 => c.get Fd.GLB_QUOTA_W1_FDB h 0
  | 1 => c.get Fd.GLB_QUOTA_W2_MCAST h 0
  | 2 => c.get Fd.GLB_QUOTA_W4_STREAM h 0
  | 3 => c.get Fd.GLB_QUOTA_W5_POLICER h 0
  | 5 => c.get Fd.GLB_QUOTA_W6_DUP h 0
  | 6 => c.get Fd.GLB_QUOTA_W7_RECOVERY h 0
  | _ => 2 ^ 20

/-- Remove an entry. -/
def Chip.delEntry (c : Chip) (t i : Nat) : Chip :=
  { c with tbl := c.tbl.del t i, tblEcc := c.tblEcc.del t i, tblHall := c.tblHall.put 0 t i 0 }

/-- Write an entry whole; an injected error (R436) is stored with it, `flt.eccNext` holding it for the lookup pool. -/
def Chip.putEntry (c : Chip) (t i : Nat) (words : List Nat) : Chip :=
  let ws := tblClean t words
  let e := c.flt.eccNext.get 0 1 t
  let c1 := if e = 0 then { c with tblEcc := c.tblEcc.put 0 t i 0 }
    else { c with tblEcc := c.tblEcc.put 0 t i e, flt := { c.flt with eccNext := c.flt.eccNext.put 0 1 t 0 } }
  if tblValid t ws then { c1 with tbl := c1.tbl.ins t i ws } else c1.delEntry t i

/-! ## Counters of R210 -/

def eLEARNED : Nat := 0
def eMOVES : Nat := 1
def eAGED : Nat := 2
def eFULL : Nat := 3
def eOVF : Nat := 4
def eEXCESS : Nat := 5
def eSTATIC : Nat := 6
def eINVAL : Nat := 7
def eSAME : Nat := 8
def eDSA : Nat := 9
def eDDA : Nat := 10
def eCORR : Nat := 11
def eRECLOST : Nat := 12

/-- TBL_FDB_EVT_k, and the copy of hall `h` in the HALL pool. -/
def Chip.fdbEvt (c : Chip) (k h : Nat) : Chip := (c.cntSat Fd.TBL_FDB_EVT_COUNT k 0 1).stat 3 h k 1

/-! ## Errors of the pool (R192, R193) -/

/-- A fault event with a history entry of its own whatever R425 asks. -/
def Chip.raiseLogged (c : Chip) (f unit : Nat) : Chip :=
  let c1 := c.histEntry f unit 0
  ({ c1 with flt := { c1.flt with lastUnit := c1.flt.lastUnit.put 0 f (unit + 1) } }).latchFault f

/-- A read of an entry by a lookup (R192). -/
def Chip.eccRead (c : Chip) (t i : Nat) : Chip :=
  match c.tblEcc.get 0 t i with
  | 0 => c
  | 1 => ({ c with tblEcc := c.tblEcc.put 0 t i 0 }).fdbEvt eCORR (c.entryHall t i)
  | _ => ((c.fdbEvt eINVAL (c.entryHall t i)).delEntry t i).raise fTABLE t

/-- An update of part of an entry (R193); `none` when an uncorrectable error discards it. -/
def Chip.modify (c : Chip) (t i : Nat) (f : List Nat → List Nat) : Option Chip :=
  match c.entry t i with
  | none => some c
  | some ws =>
    match c.tblEcc.get 0 t i with
    | 0 => some { c with tbl := c.tbl.ins t i (f ws) }
    | 1 => some (({ c with tbl := c.tbl.ins t i (f ws), tblEcc := c.tblEcc.put 0 t i 0 }).fdbEvt eCORR (c.entryHall t i))
    | _ => none

/-- What a discarded update leaves (R193): the entry invalid, the event logged and counted. -/
def Chip.eccDiscard (c : Chip) (t i : Nat) : Chip := ((c.fdbEvt eINVAL (c.entryHall t i)).delEntry t i).raiseLogged fTABLE t

def Chip.update (c : Chip) (t i : Nat) (f : List Nat → List Nat) : Chip := (c.modify t i f).getD (c.eccDiscard t i)

/-- The same, with whether an uncorrectable error has discarded the update: what makes a command answer ECC_ERR. -/
def Chip.updateEcc (c : Chip) (t i : Nat) (f : List Nat → List Nat) : Bool × Chip :=
  ((c.modify t i f).isNone, c.update t i f)

/-! ## Hashed tables (R189 to R191) -/

/-- The candidate buckets of a key in a hashed region of `e` entries. -/
def bucketsOf (e : Nat) (key : List Nat) : Nat × Nat :=
  let m := e / 4 - 1
  (crc32c 0xFFFFFFFF key &&& m, crc32c 0x1B873593 key &&& m)

/-- The indices of both buckets, a bucket once when they coincide. -/
def waysOf (b : Nat × Nat) : List Nat :=
  let w (x : Nat) : List Nat := (List.range 4).map (fun k => 4 * x + k)
  if b.1 = b.2 then w b.1 else w b.1 ++ w b.2

/-- Look a key up: the entries of both buckets are read (R192), the one that matches is answered. -/
def Chip.hashFind (c : Chip) (t e : Nat) (key : List Nat) (hit : List Nat → Bool) : Option Nat × Chip :=
  if e < 4 then (none, c)
  else
    let ways := waysOf (bucketsOf e key)
    let c1 := ways.foldl (fun c i => c.eccRead t i) c
    (ways.find? (fun i => ((c1.entry t i).map hit).getD false), c1)

/-- The place of a new entry: the bucket with fewer valid ways, b0 when equal, its lowest free way (R191). -/
def Chip.hashPlace (c : Chip) (t e : Nat) (key : List Nat) : Option Nat :=
  if e < 4 then none
  else
    let b := bucketsOf e key
    let w (x : Nat) : List Nat := (List.range 4).map (fun k => 4 * x + k)
    let n (x : Nat) : Nat := ((w x).filter (fun i => (c.entry t i).isSome)).length
    let x := if n b.2 < n b.1 then b.2 else b.1
    (w x).find? (fun i => (c.entry t i).isNone)

/-! ## FDB entries (R190, R194) -/

def fdbKey (mac fid hall : Nat) : List Nat := beBytes 6 mac ++ beBytes 2 (fid % 4096) ++ [hall]

def fdbMac (ws : List Nat) : Nat := ws.getD 1 0 * 65536 + wb ws 2 31 16
def fdbFid (ws : List Nat) : Nat := wb ws 0 11 0
def fdbHall (ws : List Nat) : Nat := wb ws 0 27 23
def fdbStatic (ws : List Nat) : Bool := bitOf (ws.getD 0 0) 30
def fdbKind (ws : List Nat) : Nat := wb ws 0 29 28
def fdbTarget (ws : List Nat) : Nat := wb ws 3 18 0
def fdbPair (ws : List Nat) : Bool := bitOf (ws.getD 3 0) 24

def Chip.fdbFind (c : Chip) (mac fid hall : Nat) : Option Nat × Chip :=
  c.hashFind tFDB (c.tblSize tFDB) (fdbKey mac fid hall)
    (fun ws => decide (fdbMac ws = mac ∧ fdbFid ws = fid % 4096 ∧ fdbHall ws = hall))

/-- FID of a frame (R194). -/
def Chip.fidOf (c : Chip) (vid : Nat) : Nat := if c.flag Fd.TBL_FDB_CTRL_SVL 0 0 then 0 else vid

/-! ## Pairs (R225) -/

def Chip.pairActive (c : Chip) (k : Nat) : Bool := c.flag Fd.RED_PAIR_CFG_ACTIVE k 0
def Chip.pairA (c : Chip) (k : Nat) : Nat := c.get Fd.RED_PAIR_CFG_PORT_A k 0
def Chip.pairB (c : Chip) (k : Nat) : Nat := c.get Fd.RED_PAIR_CFG_PORT_B k 0
def Chip.pairRole (c : Chip) (k : Nat) : Nat := c.get Fd.RED_PAIR_CFG_ROLE k 0

/-- The active pairs. -/
def Chip.pairs (c : Chip) : List Nat := (c.idxWith Fd.RED_PAIR_CFG_ACTIVE).filter c.pairActive

/-- The active pair that port `n` belongs to. -/
def Chip.pairOf (c : Chip) (n : Nat) : Option Nat := c.pairs.find? (fun k => decide (c.pairA k = n ∨ c.pairB k = n))

/-- The other port of pair `k`. -/
def Chip.twin (c : Chip) (k n : Nat) : Nat := if c.pairA k = n then c.pairB k else c.pairA k

/-- The hall of a pair: the owner of its first port, or the first slice's hall on a shared port. -/
def Chip.pairHall (c : Chip) (k : Nat) : Nat := if c.shared (c.pairA k) then 0 else c.owner (c.pairA k)

/-- The ports that the target of a KIND 0 entry names: both ports of the pair with PAIR (R197, R207). -/
def Chip.fdbPorts (c : Chip) (ws : List Nat) : List Nat :=
  let n := fdbTarget ws % 128
  if fdbPair ws then
    match c.pairOf n with
    | some k => [n, c.twin k n]
    | none => [n]
  else [n]

/-- LEARN_STATUS.COUNT (R199): the dynamic entries whose target is port `n` or a pair that includes it. -/
def Chip.learnCount (c : Chip) (n : Nat) : Nat :=
  (c.tbl.filter (fun e => decide (e.1.1 = tFDB) && !fdbStatic e.2 && decide (fdbKind e.2 = 0) && decide (n ∈ c.fdbPorts e.2))).length

/-- LEARN_STATUS.AT_LIMIT. -/
def Chip.learnLimit (c : Chip) (n : Nat) : Nat := c.get Fd.PRT_LEARN_CTRL_LIMIT n 0

/-- Per-port limits are enforced (R200). -/
def Chip.limitsEnforced (c : Chip) : Bool :=
  decide (c.get Fd.TBL_FDB_CTRL_LIMIT_MEMBERS 0 0 < c.get Fd.GAL_STATUS_MEMBERS 0 0)

/-! ## Learn records (R211 to R213) -/

/-- Post a learn record, unless it repeats one of the last 64 posted; a full slice loses it. -/
def Chip.learnRec (c : Chip) (r : LrnRec) : Chip :=
  let same (x : LrnRec) : Bool := decide (x.reason = r.reason ∧ x.hall = r.hall ∧ x.fid = r.fid ∧ x.mac = r.mac)
  if c.lrnLast.any same then c
  else if c.get Fd.GLB_QUOTA_W8_LRN_REC r.hall 0 ≤ (c.lrn.filter (fun x => decide (x.hall = r.hall))).length ∨
      4096 ≤ c.lrn.length then c.fdbEvt eRECLOST r.hall
  else
    let last := (c.lrnLast ++ [r])
    ({ c with lrn := c.lrn ++ [r], lrnLast := last.drop (last.length - 64) }).hallEvent r.hall

/-! ## Learning (R199 to R207) -/

/-- The place that a frame is learned against: a port, a pair's lower port, or a gallery logical port (R207, R313). -/
structure Place where
  kind : Nat
  target : Nat
  pair : Bool
  port : Nat

/-- A port as a place. -/
def Chip.portPlace (c : Chip) (n : Nat) : Place :=
  match c.pairOf n with
  | some k => { kind := 0, target := min n (c.twin k n), pair := true, port := n }
  | none => { kind := 0, target := n, pair := false, port := n }

/-- An entry points at a place already: the same target, or for a port a pair that includes it (R202). -/
def Chip.samePlace (c : Chip) (ws : List Nat) (p : Place) : Bool :=
  decide (fdbKind ws = p.kind ∧ (fdbTarget ws = p.target ∨ (p.kind = 0 ∧ p.port ∈ c.fdbPorts ws)))

/-- A new entry or a move would take the port's COUNT above its LIMIT (R202); gallery sources have no port limit. -/
def Chip.excess (c : Chip) (p : Place) : Bool :=
  c.limitsEnforced && decide (p.kind = 0) && decide (c.learnLimit p.port < c.learnCount p.port + 1)

/-- The words of a learned entry. -/
def learnWords (l : Learn) : List Nat :=
  [2 ^ 31 + l.kind * 2 ^ 28 + l.hall % 32 * 2 ^ 23 + l.fid % 4096, l.mac / 65536, l.mac % 65536 * 65536,
   b2n l.pair * 2 ^ 24 + l.target % 2 ^ 19, 2 ^ 31, 0, 0, 0]

/-- The record of a learn that the engine finds overtaken, as hardware mode posts it with NOTIFY (R208, R211). -/
def Chip.learnTold (c : Chip) (l : Learn) (reason old : Nat) : Chip :=
  if c.flag Fd.TBL_FDB_CTRL_NOTIFY 0 0 then
    c.learnRec { reason := reason, hall := l.hall, port := l.port, fid := l.fid, mac := l.mac, oldPort := old, ns := c.nsec }
  else c

/-- The learn engine inserts or moves (R202, R204, R207, R220): the second learn of a key acts on the entry it finds. -/
def Chip.applyLearn (c : Chip) (l : Learn) : Chip :=
  let p : Place := { kind := l.kind, target := l.target, pair := l.pair, port := l.port }
  let f := c.fdbFind l.mac l.fid l.hall
  let c1 := f.2
  match f.1 with
  | some i =>
    let ws := (c1.entry tFDB i).getD []
    let old := fdbTarget ws % 128
    if fdbKind ws = 3 then c1
    else if c1.samePlace ws p then
      c1.update tFDB i (fun ws => if fdbStatic ws then wset ws 4 31 31 1 else wset (wset ws 4 31 31 1) 4 2 0 0)
    else if fdbStatic ws then (c1.fdbEvt eSTATIC l.hall).learnTold l 3 old
    else if c1.excess p then (c1.fdbEvt eEXCESS l.hall).learnTold l 2 old
    else
      match c1.modify tFDB i (fun ws =>
        let w1 := wset (wset (wset ws 0 29 28 l.kind) 3 18 0 l.target) 3 24 24 (b2n l.pair)
        let w2 := wset (wset w1 4 31 31 1) 4 2 0 0
        wset w2 6 15 0 (min (wb w2 6 15 0 + 1) 65535)) with
      | some c2 => if l.told then c2.fdbEvt eMOVES l.hall else (c2.fdbEvt eMOVES l.hall).learnTold l 1 old
      | none => c1.eccDiscard tFDB i
  | none =>
    if c1.excess p then (c1.fdbEvt eEXCESS l.hall).learnTold l 2 0
    else if c1.tblQuota tFDB l.hall ≤ c1.tblUse tFDB l.hall then c1.fdbEvt eFULL l.hall
    else
      match c1.hashPlace tFDB (c1.tblSize tFDB) (fdbKey l.mac l.fid l.hall) with
      | none => c1.fdbEvt eFULL l.hall
      | some i => (c1.putEntry tFDB i (learnWords l)).fdbEvt eLEARNED l.hall

/-- Pass a learn to the queue of pipeline `p` (R205). -/
def Chip.queueLearn (c : Chip) (p : Nat) (l : Learn) : Chip :=
  let r := c.pipe p
  if 64 ≤ r.learnQ.length then c.fdbEvt eOVF l.hall else c.setPipe p { r with learnQ := r.learnQ ++ [l] }

/-- LEARN_INSERT: the learn engine takes the oldest of queue `p`. -/
def learnInsert (p : Nat) (c : Chip) : Chip :=
  let r := c.pipe p
  match r.learnQ with
  | [] => c
  | l :: rest => (c.setPipe p { r with learnQ := rest }).applyLearn l

/-- What the source lookup says of the frame itself (R197 step 3, R202, R203). -/
inductive SrcVerdict where
  | ok | discardSa | staticDrop | excessDrop | excessFlood
  deriving DecidableEq

/-- The source lookup of stage 7 (R201 to R207): what becomes of the frame, the learn it asks for, and the table after HIT
updates, records and counts. -/
def Chip.sourceLookup (c : Chip) (mac fid hall : Nat) (p : Place) (mode : Nat) (cand : Bool) : SrcVerdict × Option Learn × Chip :=
  let f := c.fdbFind mac fid hall
  let c1 := f.2
  let l : Learn := { mac := mac, fid := fid, hall := hall, port := p.port, target := p.target, pair := p.pair, kind := p.kind }
  let rec_ (reason old : Nat) : LrnRec :=
    { reason := reason, hall := hall, port := p.port, fid := fid, mac := mac, oldPort := old, ns := c.nsec }
  let notify := mode = 2 ∨ (mode = 1 ∧ c.flag Fd.TBL_FDB_CTRL_NOTIFY 0 0)
  let exc (old : Nat) : SrcVerdict × Option Learn × Chip :=
    let c2 := c1.fdbEvt eEXCESS hall
    let c3 := if notify then c2.learnRec (rec_ 2 old) else c2
    (if c.get Fd.PRT_LEARN_CTRL_EXCESS p.port 0 = 1 then .excessFlood else .excessDrop, none, c3)
  match f.1 with
  | some i =>
    let ws := (c1.entry tFDB i).getD []
    let old := fdbTarget ws % 128
    if fdbKind ws = 3 then (.discardSa, none, c1)
    else if c1.samePlace ws p then
      (.ok, none, c1.update tFDB i (fun ws => if fdbStatic ws then wset ws 4 31 31 1 else wset (wset ws 4 31 31 1) 4 2 0 0))
    else if fdbStatic ws then
      let c2 := c1.fdbEvt eSTATIC hall
      let c3 := if notify then c2.learnRec (rec_ 3 old) else c2
      (if c.flag Fd.PRT_LEARN_CTRL_STATIC_DROP p.port 0 then .staticDrop else .ok, none, c3)
    else if !cand then (.ok, none, c1)
    else if c1.excess p then exc old
    else if mode = 2 then (.ok, none, c1.learnRec (rec_ 1 old))
    else (.ok, some { l with told := true }, if c.flag Fd.TBL_FDB_CTRL_NOTIFY 0 0 then c1.learnRec (rec_ 1 old) else c1)
  | none =>
    if !cand then (.ok, none, c1)
    else if c1.excess p then exc 0
    else if mode = 2 then (.ok, none, c1.learnRec (rec_ 0 0))
    else (.ok, some l, c1)

/-! ## Multicast groups (R196) -/

/-- The ports of a group and whether it also goes to the gallery; an invalid group has none. -/
def Chip.group (c : Chip) (g : Nat) : List Nat × Bool × Chip :=
  let c1 := c.eccRead tMCAST g
  match (if g < c1.tblSize tMCAST then c1.entry tMCAST g else none) with
  | none => ([], false, c1)
  | some ws => ((List.range 96).filter (fun n => bitOf (ws.getD (n / 32) 0) (n % 32)), bitOf (ws.getD 3 0) 25, c1)

end Sys2Proof.Machine
end

