-- ==== Sys2Proof/Machine/Evc.lean ====
section
/-! DEFINITION. Event counters, sampled records and slot accounting of pipelines and atrium (R445 to R449). An occurrence that
a command makes falls in a CORE_CLK cycle of its own; the lasting conditions are counted by the cycles of a TIME_CLK edge
(DESIGN CHOICE, log 23). -/

namespace Sys2Proof.Machine

def evHDRIN : Nat := 1
def evEXC : Nat := 2
def evTCAM : Nat := 3
def evLEARNFULL : Nat := 5
def evTRAILER : Nat := 6
def evENQFULL : Nat := 7
def evVEST : Nat := 8
def evADMIT : Nat := 17
def evAGED : Nat := 18
def evDIVERT : Nat := 19
def evHEADROOM : Nat := 20

/-- The pipeline has its clock: it is neither fenced nor parked. In the 5 µs between PARK written 0 and its return to service it
has none yet (DESIGN CHOICE, log 133). -/
def Chip.pipeClocked (c : Chip) (p : Nat) : Bool := !c.isFenced 1 p && !c.parked p && !decide (p ∈ c.ctl.unparking)

/-- The pipeline counts: it has its clock, and its block is not frozen. -/
def Chip.evcRuns (c : Chip) (p : Nat) : Bool := c.pipeClocked p && !c.flag Fd.PIP_EVC_CTRL_FREEZE p 0

/-- A sampled record of counter `k` (R449). SKID lies within its bound and is otherwise open: with skid 0 the triggering
header is captured, with another skid a header whose context is free (log 5). -/
def Chip.evcRecord (c : Chip) (p k ev : Nat) (h : Option Hdr) : Chip :=
  let r := c.pipe p
  if 64 ≤ r.recs.length then
    (c.set Fd.PIP_EREC_STATUS_LOST p 0 1).cntWrap Fd.PIP_EREC_STATUS_LOST_CNT p 0 1
  else
    let w := Config.freeWord c.freeCtr
    let skid := w % (if ev ≤ 3 ∨ ev = 8 then 3 else 13)
    let e : ERec := match (if skid = 0 then h else none) with
      | some x => { evc := k, skid := skid, port := x.byte 0 % 128, trig := r.slots.get 0 0 % 2 ^ 32, exc := x.exc,
                    profile := x.profile, dlen := x.dlen, cls := x.cls, stream := x.stream.getD 0xFFFF, ns := c.nsec }
      | none => { evc := k, skid := skid, port := bits 10 4 w, trig := r.slots.get 0 0 % 2 ^ 32, exc := bits 18 16 w,
                  profile := bits 23 20 w, dlen := bits 39 24 w, cls := bits 42 40 w, stream := bits 63 48 w, ns := c.nsec }
    let c1 := { c with freeCtr := c.freeCtr + 1 }
    c1.setPipe p { r with recs := r.recs ++ [e] }

/-- One increment of counter `k`. -/
def Chip.evcIncr (c : Chip) (p k ev : Nat) (h : Option Hdr) : Chip :=
  let r := c.pipe p
  let v := r.evc.get 0 k + 1
  let n := c.get Fd.PIP_EVC_SAMPLE_SAMPLE_N p k
  let since := r.evcSince.get 0 k + 1
  let hit := decide (n ≠ 0 ∧ n ≤ since)
  let c1 := c.setPipe p { r with evc := r.evc.put 0 k (v % 2 ^ 48), evcSince := r.evcSince.put 0 k (if hit then 0 else since) }
  let c2 := if v = 2 ^ 48 then c1.set Fd.PIP_EVC_COUNT_HI_OVF p k 1 else c1
  if hit then c2.evcRecord p k ev h else c2

def Chip.evcIncrs (p k ev : Nat) (h : Option Hdr) : Nat → Chip → Chip
  | 0, c => c
  | n + 1, c => Chip.evcIncrs p k ev h n (c.evcIncr p k ev h)

/-- Event `ev` occurs on pipeline `p`, `n` times in one cycle, and is gone in the next. -/
def Chip.evcPulse (c : Chip) (p ev n : Nat) (h : Option Hdr) : Chip :=
  if !c.evcRuns p || decide (n = 0) then c
  else (List.range 8).foldl (fun c k =>
    if c.flag Fd.PIP_EVC_CFG_EN p k && decide (c.get Fd.PIP_EVC_CFG_EVENT p k = ev) then
      Chip.evcIncrs p k ev h (if c.get Fd.PIP_EVC_CFG_MODE p k = 2 then min n 3 else 1) c
    else c) c

/-- One increment of atrium counter `k`. -/
def Chip.aevcAdd (c : Chip) (k n : Nat) : Chip :=
  let v := c.aevc.get 0 k + n
  let c1 : Chip := { c with aevc := c.aevc.put 0 k (v % 2 ^ 48) }
  if 2 ^ 48 ≤ v then c1.set Fd.ATR_EVC_COUNT_HI_OVF k 0 1 else c1

def Chip.aevcPulse (c : Chip) (ev n : Nat) : Chip :=
  if c.flag Fd.ATR_EVC_CTRL_FREEZE 0 0 || decide (n = 0) then c
  else (List.range 8).foldl (fun c k =>
    if c.flag Fd.ATR_EVC_CFG_EN k 0 && decide (c.get Fd.ATR_EVC_CFG_EVENT k 0 = ev) then
      c.aevcAdd k (if c.get Fd.ATR_EVC_CFG_MODE k 0 = 2 then min n 3 else 1)
    else c) c

/-! ## Slots (R447, R448) -/

/-- Add to slot counter `x`: 0 SLOTS, 1 RETIRED, 2 WASTED, 3 FRONT_STARVED, 4 BACK_STARVED. -/
def Chip.slotAdd (c : Chip) (p x n : Nat) : Chip :=
  if n = 0 then c
  else
    let r := c.pipe p
    let v := r.slots.get 0 x + n
    let c1 := c.setPipe p { r with slots := r.slots.put 0 x (v % 2 ^ 48) }
    if 2 ^ 48 ≤ v then c1.set Fd.PIP_SLOT_HI_OVF p x 1 else c1

/-- A slot of pipeline `p` carried a header at the present edge (R72); what is older than 101 µs is forgotten. -/
def Chip.slotSeen (c : Chip) (p : Nat) : Chip :=
  let r := c.pipe p
  c.setPipe p { r with used := r.used.filter (fun e => decide (c.tim.clk < e.1 + 101000 ∧ e.1 ≠ c.tim.clk)) ++
    [(c.tim.clk, (r.used.filter (fun e => decide (e.1 = c.tim.clk))).foldl (fun a e => a + e.2) 1)] }

/-- A header's slot falls into class `x` (1 or 2). It is taken off the slots that the next cycles offer. -/
def Chip.slotUsed (c : Chip) (p x : Nat) : Chip :=
  if !c.evcRuns p then c.slotSeen p
  else
    let c1 := ((c.slotSeen p).slotAdd p 0 1).slotAdd p x 1
    c1.setPipe p { c1.pipe p with owed := (c1.pipe p).owed + 1 }

/-- A frame in a vestibule of pipeline `p` is ready for handoff (R29). -/
def Chip.readyFrame (c : Chip) (fid : Nat) : Bool :=
  match c.frame fid with
  | none => false
  | some f => !f.handed && (f.ended || (c.flag Fd.PRT_MAC_CTRL_CUT_THRU f.port 0 && decide (256 ≤ f.arrived)))

def Chip.vestReady (c : Chip) (p : Nat) : Bool :=
  c.ports.any (fun e => decide (c.portPipe e.1 = p) && e.2.vest.any c.readyFrame)

/-- A header that waits for its trailer result (R163): its port holds a PRP role, its frame has not ended. -/
def Chip.trailerWait (c : Chip) (p : Nat) : Bool :=
  (c.pipe p).buf.any (fun i => ((c.frame i).map (fun f => !f.ended && decide (f.port < 96) &&
    c.flag Fd.PRT_PARSE_CTRL_TRAILER f.port 0)).getD false)

/-- The level of a lasting pipeline event. LKP_ARB_WAIT and BANK_WAIT are waits of one cycle scale that the model has none of
(timing). -/
def Chip.evLevel (c : Chip) (p ev : Nat) : Bool :=
  if ev = evLEARNFULL then decide (64 ≤ (c.pipe p).learnQ.length)
  else if ev = evTRAILER then c.trailerWait p
  else if ev = evENQFULL then decide (64 ≤ (c.pipe p).buf.length)
  else if ev = evVEST then c.vestReady p
  else false

/-- The cycles of one TIME_CLK edge on pipeline `p`: lasting events, then the slots that carried no header. -/
def Chip.pipeCycles (p n : Nat) (c : Chip) : Chip :=
  if !c.evcRuns p || decide (n = 0) then c
  else
    let c1 := (List.range 8).foldl (fun (c : Chip) k =>
      let ev := c.get Fd.PIP_EVC_CFG_EVENT p k
      if !c.flag Fd.PIP_EVC_CFG_EN p k || decide (ev < evLEARNFULL) then c
      else
        let on := c.evLevel p ev
        let was := decide ((c.pipe p).evcPrev.get 0 k ≠ 0)
        let m := if c.get Fd.PIP_EVC_CFG_MODE p k = 1 then (if on && !was then 1 else 0) else if on then n else 0
        let c2 := Chip.evcIncrs p k ev none m c
        c2.setPipe p { c2.pipe p with evcPrev := (c2.pipe p).evcPrev.put 0 k (b2n on) }) c
    let r := c1.pipe p
    let empty := 3 * n - r.owed
    let c2 := c1.setPipe p { r with owed := r.owed - 3 * n }
    let back := c2.vestReady p && decide (64 ≤ r.buf.length)
    (c2.slotAdd p 0 empty).slotAdd p (if back then 4 else 3) empty

/-- The cycles of one TIME_CLK edge in the atrium. -/
def Chip.atrCycles (n : Nat) (c : Chip) : Chip :=
  if c.flag Fd.ATR_EVC_CTRL_FREEZE 0 0 || decide (n = 0) then c
  else (List.range 8).foldl (fun (c : Chip) k =>
    if !c.flag Fd.ATR_EVC_CFG_EN k 0 || decide (c.get Fd.ATR_EVC_CFG_EVENT k 0 ≠ evHEADROOM) then c
    else
      let on := decide (c.atrFree < c.get Fd.ATR_ADM_CTRL_HEADROOM 0 0)
      let was := decide (c.aevcPrev.get 0 k ≠ 0)
      let m := if c.get Fd.ATR_EVC_CFG_MODE k 0 = 1 then (if on && !was then 1 else 0) else if on then n else 0
      let c1 := c.aevcAdd k m
      { c1 with aevcPrev := c1.aevcPrev.put 0 k (b2n on) }) c

/-- One TIME_CLK edge, as the device idles through it: device time, the cycle clock, and the CORE_CLK cycles that fit. While the
auxiliary rail is off or RESET_N is low, time stands (R457, R461). -/
def Chip.edge (c : Chip) : Chip :=
  let c1 := c.tick
  let n := c1.tim.coreQ / 4 - c.tim.coreQ / 4
  if !c.pins.auxGood || !c.pins.resetN then c
  else if n = 0 ∨ !c.running ∨ c.imageOff then c1
  else Chip.atrCycles n ((List.range 4).foldl (fun c p => Chip.pipeCycles p n c) c1)

end Sys2Proof.Machine
end

