-- ==== Sys2Proof/Machine/GalView.lean ====
section
/-! DEFINITION. A member's view of its gallery, and what a change of the view does (R316 to R318, R327, R328): the part of the
gallery unit that a lost stair link reaches. -/

namespace Sys2Proof.Machine

/-- GAL_CNT (R330). -/
def gcHELLOTX : Nat := 0
def gcHELLORX : Nat := 1
def gcAUTHFAIL : Nat := 2
def gcLOST : Nat := 3
def gcAPPLIED : Nat := 4
def gcPARTIAL : Nat := 5
def gcBAD : Nat := 6
def gcTAKEOVER : Nat := 7
def gcNOROUTE : Nat := 8
def gcHOPS : Nat := 9
def gcSPRAYTX : Nat := 10
def gcNOCNT : Nat := 11
def gcTAGBAD : Nat := 12
def gcSTANDBYLOST : Nat := 13

def Chip.galCnt (c : Chip) (i : Nat) : Chip := c.cntSat Fd.GAL_CNT_COUNT i 0 1

/-- Stair link states (R309). -/
def glDOWN : Nat := 0
def glPROBE : Nat := 1
def glWAIT : Nat := 2
def glUP : Nat := 3
def glFAIL : Nat := 4
def glLOST : Nat := 5

/-- Gallery states (R308). -/
def gsOFF : Nat := 0
def gsDISCOVER : Nat := 1
def gsELECT : Nat := 2
def gsJOINED : Nat := 3
def gsORPHAN : Nat := 4
def gsCONFLICT : Nat := 5

def Chip.stairState (c : Chip) (k : Nat) : Nat := c.get Fd.GAL_LINK_STATUS_STATE k 0
def Chip.setStair (c : Chip) (k s : Nat) : Chip := c.set Fd.GAL_LINK_STATUS_STATE k 0 s
def Chip.stairValid (c : Chip) (k : Nat) : Bool := c.flag Fd.GAL_LINK_CFG_VALID k 0
def Chip.stairPort (c : Chip) (k : Nat) : Nat := c.get Fd.GAL_LINK_CFG_PORT k 0

/-- The valid stair links, and the one on port `n` (R309). -/
def Chip.stairs (c : Chip) : List Nat := (c.idxWith Fd.GAL_LINK_CFG_VALID).filter c.stairValid
def Chip.stairOf (c : Chip) (n : Nat) : Option Nat := c.stairs.find? (fun k => decide (c.stairPort k = n))

/-- The links that carry copies now: UP, and not fenced. -/
def Chip.stairUp (c : Chip) (k : Nat) : Bool := decide (c.stairState k = glUP) && !c.isFenced 4 k

def Chip.galState (c : Chip) : Nat := c.get Fd.GAL_STATUS_STATE 0 0
def Chip.galEnabled (c : Chip) : Bool := c.flag Fd.GAL_CTRL_ENABLE 0 0
def Chip.galAddr (c : Chip) : Nat := c.get Fd.GAL_STATUS_ADDR 0 0
def Chip.galDepth (c : Chip) : Nat := max 1 (c.get Fd.GAL_CTRL_DEPTH 0 0)

/-- The neighbour of link `k`. -/
def Chip.nbr (c : Chip) (k : Nat) : Nat := c.gal.linkNbr.get 0 k

/-- The identity public key as R406 derives it from the scalar; 0 before an identity exists. -/
def Chip.idPub (c : Chip) : Nat × Nat :=
  if c.sec.idScalar = 0 then (0, 0) else (scalarMul p384 c.sec.idScalar (basePoint p384)).getD (0, 0)

/-- SHA-384 of a public key, X then Y. -/
def keyHashOf (x y : Nat) : Nat := beNat (sha384 (beBytes 48 x ++ beBytes 48 y))

/-- The report of this member as its links stand (R317). -/
def Chip.ownReport (c : Chip) : Report :=
  { dev := c.uid, prio := c.get Fd.GAL_CTRL_PRIORITY 0 0, req := c.get Fd.GAL_ADDR_REQ_ADDR 0 0,
    flags := b2n (c.flag Fd.GAL_ADDR_REQ_L1_AUTO 0 0) * 128 + c.galDepth,
    keyHash := if c.sec.idScalar = 0 then 0 else keyHashOf c.idPub.1 c.idPub.2, seq := c.gal.mySeq,
    links := (c.stairs.filter c.stairUp).map (fun k =>
      { localPort := c.stairPort k, nbr := c.nbr k, nbrPort := c.get Fd.GAL_LINK_STATUS_NBR_PORT k 0 % 128 })
    epoch := c.get Fd.GAL_EPOCH_NUMBER 0 0, ack := 0, passTo := c.gal.handedTo }

/-- Two reports name a common link from both ends. -/
def linked (a b : Report) : Bool :=
  a.links.any (fun l => decide (l.nbr = b.dev) &&
    b.links.any (fun r => decide (r.nbr = a.dev ∧ r.localPort = l.nbrPort ∧ r.nbrPort = l.localPort)))

/-- Members reached from those found, one hop further at each round. -/
def viewFrom (all : List Report) : Nat → List Report → List Report
  | 0, found => found
  | n + 1, found => viewFrom all n (found ++ all.filter (fun r =>
      !found.any (fun x => decide (x.dev = r.dev)) && found.any (fun x => linked x r)))

/-- The view of this member: its own report first (R317). -/
def Chip.view (c : Chip) : List Report :=
  let all := (c.gal.reports.map (fun e => e.2)).filter (fun r => decide (r.dev ≠ c.uid ∧ r.dev ∉ c.gal.dropped))
  viewFrom all all.length [c.ownReport]

/-- (PRIORITY, DEVICE_ID) compared (R318). -/
def lowerRank (a b : Report) : Bool := decide (a.prio < b.prio ∨ (a.prio = b.prio ∧ a.dev < b.dev))

/-- The lowest member of a view. -/
def lowest : List Report → Option Report
  | [] => none
  | r :: l =>
    match lowest l with
    | none => some r
    | some x => some (if lowerRank x r then x else r)

/-- The device ID of the lowest member but `not_`; 0 when there is none. -/
def lowestBut (v : List Report) (not_ : Nat) : Nat :=
  ((lowest (v.filter (fun r => decide (r.dev ≠ not_)))).map (fun r => r.dev)).getD 0

def Chip.setRole (c : Chip) : Chip :=
  c.set Fd.GAL_STATUS_ROLE 0 0 (if c.gal.keeper = 0 then 0 else if c.gal.keeper = c.uid then 1 else if c.gal.standbyId = c.uid then 2 else 0)

/-- An epoch that arrives incomplete is discarded (R321). -/
def Chip.dropPartial (c : Chip) : Chip :=
  if c.gal.segs.isEmpty && c.gal.closes.isEmpty then c
  else ({ c with gal := { c.gal with segs := [], closes := [], segNum := 0, segCount := [] } }).galCnt gcPARTIAL

/-- A HANDOVER that waits ends without its role change: the gallery it was issued in is gone. Its STATUS takes its reset value,
as that of an aborted command (R69) does: DESIGN CHOICE, log 152. -/
def Chip.dropHandover (c : Chip) : Chip :=
  if c.gal.handover then ({ c with gal := { c.gal with handover := false } }).set Fd.GAL_CMD_STATUS 0 0 sDONE else c

/-- ORPHAN (R328): not JOINED, so MEMBERS reads 1 (R308). -/
def Chip.orphan (c : Chip) : Chip :=
  let c1 := c.dropPartial.dropHandover
  let c2 := (({ c1 with gal := { c1.gal with
    keeper := 0, standbyId := 0, due := 0, phase := 0, building := none, reissue := false, handedTo := 0 } }).set
    Fd.GAL_STATUS_STATE 0 0 gsORPHAN).set Fd.GAL_STATUS_MEMBERS 0 0 1
  (c2.setRole).raise fKEEPER 0

/-- What is due once the epoch in transfer is given up: a re-issue is still the first of two (R327). -/
def Chip.dueAgain (c : Chip) : Nat := if c.gal.reissue then 2 else max 1 c.gal.due

/-- The epoch in transfer is given up: phase 1 has no standby to go to any more. -/
def Chip.giveUpBuild (c : Chip) : Chip :=
  { c with gal := { c.gal with due := c.dueAgain, building := none, reissue := false, phase := 0, tries := 0 } }

/-- The view has changed (R317, R318, R327, R328): the election's settle time starts again, a new epoch is due at the keeper,
and the loss of the keeper or of the standby is acted on. -/
def Chip.viewChanged (c : Chip) : Chip :=
  let v := c.view
  let has (d : Nat) : Bool := v.any (fun r => decide (r.dev = d))
  let c1 : Chip := { c with gal := { c.gal with viewAt := c.tim.clk } }
  let k := c.gal.keeper
  let sb := c.gal.standbyId
  let keep (c : Chip) (k sb : Nat) (due phase : Nat) : Chip :=
    ({ c with gal := { c.gal with keeper := k, standbyId := sb, due := due, phase := phase } }).setRole
  if c.galState = gsDISCOVER ∧ 1 < v.length then c1.set Fd.GAL_STATUS_STATE 0 0 gsELECT
  else if k = 0 then c1
  else if k = c.uid then
    let sb' := lowestBut v k
    if sb' = sb then keep c1 k sb (max 1 c.gal.due) c.gal.phase
    else keep c1.giveUpBuild k sb' c.dueAgain 0
  else if has k then keep c1 k (lowestBut v k) 0 c.gal.phase
  else if c.gal.phase = 9 then c1.orphan
  else if sb = c.uid then
    let c2 := (c1.dropPartial).galCnt gcTAKEOVER
    keep { c2 with gal := { c2.gal with handedTo := 0 } } c.uid (lowestBut v c.uid) 2 0
  else if !has sb then c1.orphan
  else keep c1.dropPartial sb (lowestBut v sb) 0 9

/-- Run `f`, and act on the view if it has changed. A change of this member's own links makes a new report due (R317). -/
def Chip.withView (c : Chip) (f : Chip → Chip) : Chip :=
  let c1 := f c
  let own := decide (c1.ownReport.links = c.ownReport.links)
  let c2 : Chip := if own then c1 else { c1 with gal := { c1.gal with mySeq := (c1.gal.mySeq + 1) % 2 ^ 32 } }
  let said (v : List Report) : List (Nat × Nat × Nat × Nat × List LinkRep) := v.map (fun r => (r.dev, r.prio, r.req, r.flags, r.links))
  if said c2.view = said c.view then c2 else c2.viewChanged

/-- A stair link enters LOST (R316, R419). -/
def Chip.stairLost (c : Chip) (k : Nat) : Chip :=
  c.withView (fun c => (((c.setStair k glLOST).cntSat Fd.GAL_LINK_LOST_CNT_COUNT k 0 1).galCnt gcLOST).raise fSTAIR k)

/-- Port `n` leaves UP other than into SPARING: its stair link, if UP, is LOST (R316). -/
def Chip.galPortDown (c : Chip) (n : Nat) : Chip :=
  match c.stairOf n with
  | none => c
  | some k => if c.stairState k = glUP then c.stairLost k else c

/-- A fence: one history entry, the fence entry, stands for the fault's raising event (R425). KIND as FLT_FENCE_CMD. -/
def Chip.markFenced (c : Chip) (kind idx : Nat) (fault : Option Nat) : Chip :=
  let c1 : Chip := { c with fenced := insNew (kind, idx) c.fenced }
  let c2 := c1.histEntry (32 + kind) idx 0
  match fault with
  | none => c2
  | some f => ({ c2 with flt := { c2.flt with lastUnit := c2.flt.lastUnit.put 0 f (idx + 1) } }).latchFault f

/-- Return to service (R425). -/
def Chip.markUnfenced (c : Chip) (kind idx : Nat) : Chip :=
  if c.isFenced kind idx then ({ c with fenced := without (kind, idx) c.fenced }).histEntry (40 + kind) idx 0 else c

/-- Fence a stair link (R428, R430): the link goes DOWN. -/
def Chip.fenceStair (c : Chip) (k : Nat) : Chip :=
  if c.safe || c.isFenced 4 k then c
  else c.withView (fun c => (c.setStair k glDOWN).markFenced 4 k (some fSTAIR))

end Sys2Proof.Machine
end

