-- ==== Sys2Proof/Machine/Links.lean ====
section
/-! DEFINITION. The transitions of a port's link and what they do to frames (R124), and a port's fence (R430). -/

namespace Sys2Proof.Machine

/-- The link states of R123. -/
def lDOWN : Nat := 0
def lINTLK : Nat := 1
def lTXON : Nat := 2
def lACQUIRE : Nat := 3
def lALIGN : Nat := 4
def lUP : Nat := 5
def lSPARING : Nat := 6
def lFENCED : Nat := 7

def Chip.isUp (c : Chip) (n : Nat) : Bool := c.link n = lUP

/-- The line rate of a rate code in Mbit/s (R117). -/
def rateMbps (r : Nat) : Nat := match r with
  | 0 => 1000 | 1 => 10000 | 2 => 25000 | 3 => 50000 | 4 => 100000 | _ => 200000

/-- The rate that port `n` was brought up with. -/
def Chip.portMbps (c : Chip) (n : Nat) : Nat := rateMbps (c.port n).rate

/-- The RATE and FEC pairs of R117. -/
def pairListed (rate fec : Nat) : Bool :=
  decide ((rate, fec) ∈ [(0, 0), (1, 0), (2, 0), (2, 1), (3, 2), (4, 2), (5, 2)])

/-- Fields of the lane that carries port `n` (R115, R483). -/
def Chip.setLane (c : Chip) (f : F) (n v : Nat) : Chip := c.set f (n / 12) (n % 12) v
def Chip.modOn (c : Chip) (n : Nat) : Chip := c.setLane Fd.OPT_LANE_STATUS_MOD_ON n 1

/-- Drop the receive locks of a lane. -/
def Chip.dropLocks (c : Chip) (n : Nat) : Chip :=
  (((c.setLane Fd.OPT_LANE_STATUS_CDR_LOCK n 0).setLane Fd.OPT_LANE_STATUS_BLOCK_LOCK n 0).setLane
    Fd.OPT_LANE_STATUS_AM_LOCK n 0).setLane Fd.OPT_LANE_STATUS_FEC_LOCK n 0

/-- The source that lights port `n` (R115, R132). -/
def Chip.slotSource (c : Chip) (e slot : Nat) : Nat :=
  match slot with
  | 0 => c.get Fd.OPT_SPARE_MAP_SLOT0 e 0
  | 1 => c.get Fd.OPT_SPARE_MAP_SLOT1 e 0
  | 2 => c.get Fd.OPT_SPARE_MAP_SLOT2 e 0
  | _ => c.get Fd.OPT_SPARE_MAP_SLOT3 e 0
def slotOf (n : Nat) : Nat := n % 12 / 3

/-- The three ports of a slot. -/
def slotPorts (e slot : Nat) : List Nat := [12 * e + 3 * slot, 12 * e + 3 * slot + 1, 12 * e + 3 * slot + 2]

/-- A frame has failed at or before its end (R40, R138, R145): unparsed, it is gone; on its way through the pipeline, it is
abandoned at stage 8; admitted, its copies are discarded or stomped. One whose header a fence has lost is gone already. -/
def Chip.failFrame (c : Chip) (fid : Nat) : Chip :=
  match c.frame fid with
  | none => c
  | some f =>
    let c1 := c.setFrame fid { f with ended := true, bad := true }
    if f.bad then (c.leaveVest fid).delFrame fid
    else if !f.handed then ((c1.discard1).leaveVest fid).delFrame fid
    else if !f.staged then c1.discard1
    else (c1.killFrame fid).settleVest fid

/-- Reception stops within a frame (the link goes, the port stops receiving): the frame fails, and no check of R138 counts it
(DEDUCED, log 22). -/
def Chip.cutRx (c : Chip) (n : Nat) : Chip :=
  let r := c.port n
  let one (c : Chip) (x : Option Nat) : Chip := match x with
    | none => c
    | some fid => c.failFrame fid
  one (one (c.setPort n { r with rx := none, rxHeld := none }) r.rx) r.rxHeld

/-- Transmission is cut short: each frame on its way counts in TX_ABORT, its reference is released. -/
def Chip.cutTx (c : Chip) (n : Nat) : Chip :=
  let r := c.port n
  let c1 := c.setPort n { r with tx := none, held := none }
  let one (c : Chip) (t : Option Tx) : Chip := match t with
    | none => c
    | some x => (c.txAbort n).release x.copy.fid
  one (one c1 r.tx) r.held

/-- Port `n` leaves UP; `lost` when other than by TAKE_DOWN or SPARING (R123). -/
def Chip.leaveUp (c : Chip) (n : Nat) (lost : Bool) : Chip :=
  if c.link n ≠ lUP then c
  else
    let c1 := if lost then c.set Fd.PRT_LINK_STATUS_LINK_LOST n 0 1 else c
    ((c1.cutRx n).set Fd.PRT_LINK_STATUS_STATE n 0 lACQUIRE).galPortDown n

/-- Enter a link state. -/
def Chip.enterLink (c : Chip) (n s : Nat) : Chip :=
  (c.set Fd.PRT_LINK_STATUS_AN_NO_FD n 0 0).set Fd.PRT_LINK_STATUS_STATE n 0 s

/-- The modulator goes dark: what is on the wire is cut short, the locks go. -/
def Chip.goDark (c : Chip) (n s : Nat) (lost : Bool) : Chip :=
  let c1 := c.leaveUp n lost
  let c2 := if c.link n = lSPARING then c1.cutRx n else c1
  ((((c2.setLane Fd.OPT_LANE_STATUS_MOD_ON n 0).cutTx n).dropLocks n).enterLink n s)

/-- Back to ACQUIRE: a lock lost, or RETRAIN. -/
def Chip.reacquire (c : Chip) (n : Nat) : Chip := ((c.leaveUp n true).dropLocks n).enterLink n lACQUIRE

/-- A port is fenced (R124, R428, R430): its stair link with it. -/
def Chip.fencePort (c : Chip) (n : Nat) : Chip :=
  if c.safe || c.isFenced 0 n then c
  else
    let c1 := (c.markFenced 0 n (some fPORT)).goDark n lFENCED true
    match c1.stairOf n with
    | none => c1
    | some k => c1.fenceStair k

end Sys2Proof.Machine
end

