-- ==== Sys2Proof/Machine/Faults.lean ====
section
/-! DEFINITION. What the fault collector does with an error (R428 to R431): fences of pipelines, TCAM banks and DMA engines,
windows of errors, bank retirement; and the fault conditions of R419. -/

namespace Sys2Proof.Machine

/-- SEC_FI_GATE.OPEN (R417): FACTORY, and the TEST_MODE ball high. -/
def Chip.fiOpen (c : Chip) : Bool := c.pins.testMode && decide (c.lifecycle = 1)

/-- Every injected condition that has not yet shown itself goes (R417, R436): the errors to store with the next word of a
target, and those stored and not yet read. -/
def Chip.injectClear (c : Chip) : Chip :=
  { c with tblEcc := [], tcam := c.tcam.map (fun e => (e.1, { e.2 with err := 0 })),
           atr := { c.atr with frames := c.atr.frames.map (fun e => (e.1, { e.2 with ecc := [] })) },
           flt := { c.flt with eccNext := [] } }

/-- Count an event in the 1 s window of `k` (R421): a window starts at the first event after the last one ended. -/
def winAdd (w : NMap (Nat × Nat)) (k now : Nat) : Nat × NMap (Nat × Nat) :=
  match w.find k with
  | none => (1, w.ins k (now, 1))
  | some e => if e.1 + 10 ^ 9 * 2 ^ 48 ≤ now then (1, w.ins k (now, 1)) else (e.2 + 1, w.ins k (e.1, e.2 + 1))

/-- A header that its pipeline loses (R36, R430). A frame that still arrives is dropped when it has ended. -/
def Chip.loseHeader (c : Chip) (p fid : Nat) : Chip :=
  match c.frame fid with
  | none => c
  | some f =>
    let c1 := (c.discard1).cntSat Fd.PIP_LOST_ON_FENCE_COUNT p 0 1
    if f.ended then (c1.leaveVest fid).delFrame fid
    else c1.setFrame fid { f with bad := true, handed := true }

/-- Fence pipeline `p`: its headers are lost as wasted slots, its ports wait for their remap (R35, R36). -/
def Chip.fencePipe (c : Chip) (p : Nat) : Chip :=
  if c.safe || c.isFenced 1 p then c
  else
    let held := (c.pipe p).buf
    let c0 := held.foldl (fun c _ => c.slotUsed p 2) c
    let c1 := c0.markFenced 1 p (some fPIPE)
    let c2 := c1.setPipe p { c1.pipe p with buf := [], owed := 0 }
    let c3 := held.foldl (fun c i => c.loseHeader p i) c2
    (List.range 96).foldl (fun c n => if c.portPipe n = p then c.setPort n { c.port n with remapping := true } else c) c3

/-- Fence a TCAM bank: its lookups miss (R174). -/
def Chip.fenceTcam (c : Chip) (b : Nat) : Chip := if c.safe || c.isFenced 2 b then c else c.markFenced 2 b none

/-- Fence a DMA engine: its rings move under R350; what it had begun, `Chip.dmaMoves` completes (R431). -/
def Chip.fenceDma (c : Chip) (e : Nat) : Chip := if c.safe || c.isFenced 3 e then c else c.markFenced 3 e (some fDMA)

/-- A pipeline's error line (R428). -/
def Chip.pipeError (c : Chip) (p : Nat) : Chip :=
  if c.isFenced 1 p then c else if c.get Fd.FLT_REACT_PIPE 0 0 = 1 then c.raise fPIPEERR p else c.fencePipe p

/-- A DMA engine's error line (R428). -/
def Chip.dmaError (c : Chip) (e : Nat) : Chip :=
  if c.isFenced 3 e then c else if c.get Fd.FLT_REACT_DMA 0 0 = 1 then c.raise fDMAERR e else c.fenceDma e

/-- A TCAM_ERR event of bank `b` (R173, R428). -/
def Chip.tcamError (c : Chip) (b : Nat) : Chip :=
  let c1 := c.raise fTCAM b
  let w := winAdd c1.flt.tcamWin b c1.tim.devT
  let c2 : Chip := { c1 with flt := { c1.flt with tcamWin := w.2 } }
  if c.get Fd.FLT_REACT_TCAM 0 0 = 1 ∧ c.get Fd.FLT_REACT_TCAM_LIMIT 0 0 < w.1 then c2.fenceTcam b else c2

/-- The collector retires a bank whose errors exceed `limit`, 0 for none, while fewer than MAX_AUTO are retired (R428). -/
def Chip.bankPolicy (c : Chip) (b n limit : Nat) : Chip :=
  if !c.safe && decide (limit ≠ 0 ∧ limit < n ∧ c.banksRetired < c.get Fd.FLT_BANK_POLICY_MAX_AUTO 0 0) then c.retireBank b else c

/-- A read of an atrium word meets an error (R250, R428). -/
def Chip.bankError (c : Chip) (b : Nat) (uncorr : Bool) (fid : Option Nat) : Chip :=
  if uncorr then
    let c1 := (c.atrCnt xUNCORR 1).raise fATRIUM b
    let c2 := match fid with
      | none => c1
      | some i => c1.killFrame i
    let w := winAdd c2.flt.bankWin b c2.tim.devT
    let c3 : Chip := { c2 with flt := { c2.flt with bankWin := w.2 } }
    c3.bankPolicy b w.1 (c.get Fd.FLT_BANK_POLICY_UNCORR_LIMIT 0 0)
  else
    let c1 := c.atrCnt xCORR 1
    let w := winAdd c1.flt.bankCorrWin b c1.tim.devT
    let c2 : Chip := { c1 with flt := { c1.flt with bankCorrWin := w.2 } }
    c2.bankPolicy b w.1 (c.get Fd.FLT_BANK_POLICY_CORR_LIMIT 0 0)

/-- A row of a TCAM bank with a parity error is met: it becomes invalid, the error is reported (R173). -/
def Chip.tcamParity (c : Chip) (p row : Nat) : Chip :=
  let c1 : Chip := match c.tcam.find p row with
    | none => c
    | some r => { c with tcam := c.tcam.ins p row { r with valid := false, err := max 2 r.err } }
  c1.tcamError p

/-- UNIT_ERROR (R428, R192). -/
def unitError (l : ErrLine) (c : Chip) : Chip :=
  match l with
  | .pipe p => if p < 4 then c.pipeError p else c
  | .dma e => if e < 4 then c.dmaError e else c
  | .tcam b row => if b < 4 then c.tcamParity b row else c
  | .bank b u fid => if b < 64 then c.bankError b u fid else c
  | .table t i => if (c.entry t i).isSome then ({ c with tblEcc := c.tblEcc.put 0 t i 2 }).eccRead t i else c
  | .tableCorr t i => if (c.entry t i).isSome then ({ c with tblEcc := c.tblEcc.put 0 t i 1 }).eccRead t i else c

/-- PIPE_SLOT_TIMEOUT: a header slot not retired within 840 CORE_CLK (R428). It needs a header in the pipeline. -/
def pipeSlotTimeout (p : Nat) (c : Chip) : Chip := if p < 4 ∧ (c.pipe p).buf ≠ [] then c.pipeError p else c

end Sys2Proof.Machine
end

