-- ==== Sys2Proof/Machine/Classify.lean ====
section
/-! DEFINITION. Stage 6 (chapter 5): the hall of a frame, the TCAM lookups and their merged action, stream identification,
stream gates and flow meters, the hash, and the handoff of a header to its pipeline. -/

namespace Sys2Proof.Machine

/-! ## The hall of a frame (R194, R337) -/

/-- VLAN slice of a VID: its hall. -/
def Chip.sliceHall (c : Chip) (vid : Nat) : Option Nat :=
  if c.flag Fd.GLB_VSLICE_VALID vid 0 then some (c.get Fd.GLB_VSLICE_HALL vid 0) else none

/-- The hall that owns the ingress port, or the VID's slice on a shared port; `none` is SLICE_MISS. -/
def Chip.frameHall (c : Chip) (n vid : Nat) : Option Nat :=
  if c.shared n then
    match c.sliceHall vid with
    | some h => if (c.localOf h n).isSome then some h else none
    | none => none
  else some (c.owner n)

/-- The hall of port `n` itself, for what concerns no VID: hall 0 on a shared port. -/
def Chip.portHall (c : Chip) (n : Nat) : Nat := if c.shared n then 0 else c.owner n

/-! ## The gallery tag as received (R310) -/

/-- The tag directly after the source address, with its VER. -/
def readGalTag (etype : Nat) (d : List Nat) : Option (Nat × GalTag) :=
  if 28 ≤ d.length ∧ beAt d 12 2 = etype then
    let b (i : Nat) : Nat := d.getD (12 + i) 0
    some (b 2 / 16, { typ := b 2 % 16, cls := b 3 / 32, colour := bits 4 3 (b 3), mcast := bitOf (b 3) 2, noLearn := bitOf (b 3) 1,
                      warm := bitOf (b 3) 0, hops := b 4 / 16, src := beAt d 17 3 % 2 ^ 19, dst := beAt d 20 3 % 2 ^ 19,
                      flow := beAt d 24 2, seq := beAt d 26 2 })
  else none

/-- The tag of a frame of port `n`, when the port is a stair link. -/
def Chip.stairTag (c : Chip) (n : Nat) (d : List Nat) : Option GalTag :=
  if (c.stairOf n).isSome then (readGalTag c.galEtype d).map (fun e => e.2) else none

/-! ## TCAM (R169 to R177) -/

/-- A merged action; `trapHall` the hall that owns the row with TRAP (R175). -/
structure Act where
  drop : Bool
  trap : Bool
  trapHall : Nat
  noLearn : Bool
  ctDis : Bool
  mirror : Nat
  tc : Option Nat
  colour : Option Nat
  queue : Option Nat
  stream : Option Nat
  pol : Option Nat
  fwd : Nat
  target : Nat
  hash : Option Nat
  hits : List Nat

def Act.none_ : Act :=
  { drop := false, trap := false, trapHall := 0, noLearn := false, ctDis := false, mirror := 0, tc := none, colour := none, queue := none,
    stream := none, pol := none, fwd := 0, target := 0, hash := none, hits := [] }

/-- An action word (R175). -/
def actOf (ws : List Nat) : Act :=
  let fl (i b : Nat) : Bool := bitOf (ws.getD i 0) b
  let opt (b : Bool) (v : Nat) : Option Nat := if b then some v else none
  { drop := fl 0 31, trap := fl 0 30, trapHall := wb ws 7 4 0, noLearn := fl 0 29, ctDis := fl 0 28, mirror := wb ws 0 27 24,
    tc := opt (fl 0 23) (wb ws 0 22 20), colour := opt (fl 0 19) (wb ws 0 18 17), queue := opt (fl 0 16) (wb ws 0 15 8),
    stream := opt (fl 1 31) (wb ws 1 15 0), pol := opt (fl 2 31) (wb ws 2 15 0), fwd := wb ws 3 31 30,
    target := wb ws 3 23 0, hash := opt (fl 4 31) (wb ws 4 27 24), hits := [wb ws 4 15 0] }

/-- LKP1 over LKP0 (R176). -/
def mergeAct (a b : Act) : Act :=
  { drop := a.drop || b.drop, trap := a.trap || b.trap, trapHall := if b.trap then b.trapHall else a.trapHall, noLearn := a.noLearn || b.noLearn, ctDis := a.ctDis || b.ctDis,
    mirror := if b.mirror = 0 then a.mirror else b.mirror, tc := b.tc.orElse (fun _ => a.tc),
    colour := b.colour.orElse (fun _ => a.colour), queue := b.queue.orElse (fun _ => a.queue),
    stream := b.stream.orElse (fun _ => a.stream), pol := b.pol.orElse (fun _ => a.pol),
    fwd := if b.fwd = 0 then a.fwd else b.fwd, target := if b.fwd = 0 then a.target else b.target,
    hash := b.hash.orElse (fun _ => a.hash), hits := a.hits ++ b.hits }

/-- The rows of bank `p`, in row order. -/
def Chip.bankRows (c : Chip) (p : Nat) : List (Nat × TcamRow) :=
  (c.tcam.filter (fun e => decide (e.1.1 = p))).map (fun e => (e.1.2, e.2))

/-- The first row that matches; a row with a parity error counts as not matching, becomes invalid and is reported (R173). -/
def tcamScan (p layout key : Nat) (hall : Option Nat) : List (Nat × TcamRow) → Chip → Option (List Nat) × Chip
  | [], c => (none, c)
  | e :: rest, c =>
    let r := e.2
    if r.valid && decide (r.layout = layout) && (decide (r.owner = 0) || decide (hall = some r.owner)) &&
        decide (key &&& r.mask = r.value &&& r.mask) then
      if r.err = 0 then (some r.action, c) else tcamScan p layout key hall rest (c.tcamParity p e.1)
    else tcamScan p layout key hall rest c

/-- The key of a layout, 640 bits (R476). -/
def keyOf (pv layout : List Nat) : Nat := beNat (layout.map (fun i => pv.getD i 0)) * 2 ^ (8 * (80 - layout.length))

/-- Lookup `l` (0 LKP0, 1 LKP1) of a header on bank `p` (R169, R174). -/
def Chip.tcamLookup (c : Chip) (p l : Nat) (h : Hdr) (hall : Option Nat) : Act × Chip :=
  match c.img.inForce with
  | none => (Act.none_, c)
  | some im =>
    let sel := im.lkp.getD (32 * p + 2 * h.profile + l) 0
    if !bitOf sel 7 || c.isFenced 2 p then (Act.none_, c)
    else
      let layout := sel % 8
      let r := tcamScan p layout (keyOf h.pv (im.layouts.get [] p layout)) hall (c.bankRows p) c
      match r.1 with
      | none => (Act.none_, r.2)
      | some ws => (actOf ws, r.2.evcPulse p evTCAM 1 (some h))

/-! ## Stream identification (R178, R179) -/

def streamKey (method : Nat) (h : Hdr) : List Nat :=
  let pv (o n : Nat) : List Nat := slice h.pv o n
  let vid := beBytes 2 h.vid
  let k := match method with
    | 0 => pv 32 6 ++ vid
    | 1 => pv 38 6 ++ vid
    | 2 => pv 32 6 ++ vid ++ pv 60 16 ++ pv 76 16 ++ pv 92 1 ++ pv 59 1 ++ pv 94 4
    | _ => pv 32 6 ++ vid ++ pv 6 2 ++ pv 44 2
  k ++ List.replicate (48 - k.length) 0

/-- The KEY bytes of a stream entry. -/
def streamKeyOf (ws : List Nat) : List Nat := ((ws.drop 1).take 12).flatMap (beBytes 4)

def Chip.streamFind (c : Chip) (method : Nat) (key : List Nat) : Option Nat × Chip :=
  c.hashFind tSTREAM (c.tblSize tSTREAM) (method :: key)
    (fun ws => decide (wb ws 0 30 28 = method) && decide (streamKeyOf ws = key))

/-- The methods of a profile that are enabled, in order. -/
def Chip.sidMethods (c : Chip) (profile : Nat) : List Nat :=
  (if c.flag Fd.TBL_SID_PROF_EN0 profile 0 then [c.get Fd.TBL_SID_PROF_M0 profile 0] else []) ++
  (if c.flag Fd.TBL_SID_PROF_EN1 profile 0 then [c.get Fd.TBL_SID_PROF_M1 profile 0] else []) ++
  (if c.flag Fd.TBL_SID_PROF_EN2 profile 0 then [c.get Fd.TBL_SID_PROF_M2 profile 0] else [])

/-- The first method that finds an entry: its words. Methods 4 to 7 find none. -/
def sidScan (h : Hdr) : List Nat → Chip → Option (List Nat) × Chip
  | [], c => (none, c)
  | m :: ms, c =>
    if 4 ≤ m then sidScan h ms c
    else
      let r := c.streamFind m (streamKey m h)
      match r.1 with
      | some i => (r.2.entry tSTREAM i, r.2)
      | none => sidScan h ms r.2

/-! ## Stream gates (R181 to R183) -/

/-- The list entry of gate `g` in force at time `t` of its base (ns or cu), by walking the cycle that contains it. -/
def sgAt (c : Chip) (p : GclP) (off : Nat) : Nat → Nat → Nat
  | 0, k => k
  | fuel + 1, k =>
    if p.len ≤ k + 1 then k
    else
      let w := c.get Fd.TBL_SGLIST_W1_INTERVAL ((p.start + k) % 4096) 0
      if off < w then k else sgAt c p (off - w) fuel (k + 1)

/-- What gate `g` says of a frame whose ingress timestamp is `t` (2^-48 ns): its list entry, `none` while it waits closed. A
gate that is not armed closes nothing (DEDUCED, log 24). -/
def Chip.sgEntryAt (c : Chip) (g t : Nat) : Option Nat :=
  let p := sgP c g
  let r : SGateRt := Sys2Proof.Machine.sgate c g
  let back := c.tim.devT - t
  let now := if p.cu then ((c.cyc.accX + 2 ^ 144 - incOf c.cyc.freq * back % 2 ^ 144) % 2 ^ 144) / 2 ^ 80 else t / 2 ^ 48
  if r.waiting || (p.cu && !c.anchored) then none
  else
    let per := sgPeriod p
    let off := if r.start ≤ now then now - r.start else (per - (r.start - now) % per) % per
    some ((p.start + sgAt c p (if per = 0 then 0 else off % per) 64 0) % 4096)

/-- The stream counters of R437. -/
def Chip.streamCnt (c : Chip) (handle i n : Nat) : Chip := c.stat 2 handle i n

/-- R180 steps 2 and 3: whether the gate lets the frame pass, its IPV, and its octets charged (R181). -/
def Chip.gateFilter (c : Chip) (g handle dlen t : Nat) (whole : Bool) : Bool × Option Nat × Chip :=
  let closed (c : Chip) : Bool × Option Nat × Chip := (false, none, c.streamCnt handle 2 1)
  let inv (c : Chip) (f : F) : Chip := if c.flag f g 0 then c.set Fd.TBL_SGATE_STATUS_CLOSED_INV g 0 1 else c
  if c.flag Fd.TBL_SGATE_STATUS_CLOSED_INV g 0 then closed c
  else if !c.flag Fd.TBL_SGATE_CTRL_ENABLE g 0 then (true, none, c)
  else
    match c.sgEntryAt g t with
    | none => closed (inv c Fd.TBL_SGATE_CTRL_CLOSE_INV_RX)
    | some i =>
      if !c.flag Fd.TBL_SGLIST_W0_OPEN i 0 then closed (inv c Fd.TBL_SGATE_CTRL_CLOSE_INV_RX)
      else
        let ipv := if c.flag Fd.TBL_SGLIST_W0_IPV_EN i 0 then some (c.get Fd.TBL_SGLIST_W0_IPV i 0) else none
        let lim := c.get Fd.TBL_SGLIST_W0_OCTET_MAX i 0
        let r : SGateRt := Sys2Proof.Machine.sgate c g
        let first := min dlen 256
        if lim ≠ 0 ∧ lim < r.octets + first then
          (false, none, (inv c Fd.TBL_SGATE_CTRL_CLOSE_INV_OCT).streamCnt handle 3 1)
        else (true, ipv, setSgate c g { r with octets := r.octets + (if whole then dlen else first) })

/-! ## Flow meters (R185) -/

def cGREEN : Nat := 0
def cYELLOW : Nat := 1
def cRED : Nat := 2

/-- The meter: the colour, and the entry after it. Time before LAST (after a step back) is no elapsed time, and refills are
floored to 2^-16 bytes (DEDUCED, log 25). -/
def meter (ws : List Nat) (dlen colour t : Nat) : Nat × List Nat :=
  let w (i : Nat) : Nat := ws.getD i 0
  let cbs := w 2 / 256
  let ebs := w 2 % 256 * 65536 + w 3 / 65536
  let fl := wb ws 3 15 8
  let dt := t - (w 6 * 2 ^ 32 + w 7)
  let raw := w 4 + w 0 * dt * 65536 / 8000000
  let spill := if bitOf fl 2 then raw - cbs * 65536 else 0
  let ct := min (min (cbs * 65536) raw) (2 ^ 32 - 1)
  let et := min (min (ebs * 65536) (w 5 + w 1 * dt * 65536 / 8000000 + spill)) (2 ^ 32 - 1)
  let d := dlen * 65536
  let out : Nat × Nat × Nat :=
    if bitOf fl 5 then (cRED, ct, et)
    else if (colour = cGREEN ∨ !bitOf fl 1) ∧ d ≤ ct then (cGREEN, ct - d, et)
    else if colour ≠ cRED ∧ d ≤ et then (cYELLOW, ct, et - d)
    else (cRED, ct, et)
  let fl1 := if out.1 = cRED ∧ bitOf fl 4 then setBit fl 5 true else fl
  (out.1, (((((ws.set 4 out.2.1).set 5 out.2.2).set 6 (t / 2 ^ 32 % 2 ^ 32)).set 7 (t % 2 ^ 32)).set 3
    (w 3 - wb ws 3 15 8 * 256 + fl1 * 256)))

/-- R180 steps 4 and 5 with policer `pol`: whether the frame passes, and its colour. -/
def Chip.meterFilter (c : Chip) (pol handle dlen colour t : Nat) : Bool × Nat × Chip :=
  if pol = 0xFFFF ∨ c.tblSize tPOLICER ≤ pol then (true, colour, c)
  else
    let c0 := c.eccRead tPOLICER pol
    match c0.entry tPOLICER pol with
    | none => (true, colour, c0)
    | some ws =>
      let r := meter ws dlen colour t
      let c1 := c0.update tPOLICER pol (fun _ => r.2)
      if r.1 = cRED then (false, r.1, c1.streamCnt handle 4 1)
      else if r.1 = cYELLOW ∧ bitOf (wb ws 3 15 8) 3 then (false, r.1, c1.streamCnt handle 5 1)
      else (true, r.1, c1)

/-! ## The bits of an action word (R175) -/

/-- The bits of each word of an action that R175 names; the others are reserved and read 0. -/
def actMask : List Nat := [0xFFFFFF00, 0x8000FFFF, 0x8000FFFF, 0xC0FFFFFF, 0x8F00FFFF, 0, 0, 0x1F]

/-- An action without its reserved bits. -/
def actClean (ws : List Nat) : List Nat := actMask.zipWith (fun m w => m &&& w) (ws ++ List.replicate 8 0)

/-! ## The hash (R187) -/

def Chip.hashOf (c : Chip) (p prof : Nat) (pv : List Nat) : Nat :=
  let sel := (List.range 5).map (fun k => c.get Fd.PIP_HASH_SEL p (5 * prof + k))
  crc32c (c.get Fd.TBL_HASH_SEED_SEED 0 0)
    (((List.range 160).filter (fun i => bitOf (sel.getD (i / 32) 0) (i % 32))).map (fun i => pv.getD i 0))

/-! ## Stage 6 -/

/-- Class and colour when nothing sets them (R168). -/
def Chip.defaultClass (c : Chip) (n : Nat) (h : Hdr) : Nat :=
  if h.tagged then
    match h.pcp with
    | 0 => c.get Fd.PRT_PCP_MAP_CLASS0 n 0
    | 1 => c.get Fd.PRT_PCP_MAP_CLASS1 n 0
    | 2 => c.get Fd.PRT_PCP_MAP_CLASS2 n 0
    | 3 => c.get Fd.PRT_PCP_MAP_CLASS3 n 0
    | 4 => c.get Fd.PRT_PCP_MAP_CLASS4 n 0
    | 5 => c.get Fd.PRT_PCP_MAP_CLASS5 n 0
    | 6 => c.get Fd.PRT_PCP_MAP_CLASS6 n 0
    | _ => c.get Fd.PRT_PCP_MAP_CLASS7 n 0
  else c.get Fd.PRT_PARSE_CTRL_DEF_TC n 0

def defaultColour (h : Hdr) : Nat := if h.dei then cYELLOW else cGREEN

/-- The gate of a stream entry as R181 charges frames that have not ended: the gate and the octets charged at the handoff. -/
def Chip.gateCharge (c : Chip) (g dlen : Nat) (whole : Bool) : Option (Nat × Nat) :=
  if !whole && c.flag Fd.TBL_SGATE_CTRL_ENABLE g 0 then some (g, min dlen 256) else none

/-- Stage 6 for a frame of port `n` on pipeline `p` with ingress timestamp `t` (2^-48 ns). A frame with a gallery tag takes its
class and colour from it, and skips the TCAM, the stream gates and the policers alone (R312); trapped by UNK_STREAM it keeps
them (DEDUCED, log 149). -/
def Chip.classify (c : Chip) (p n : Nat) (d : List Nat) (t : Nat) (h : Hdr) : Hdr × Chip :=
  let h0 := { h with cls := c.defaultClass n h, colour := defaultColour h }
  let tag := c.stairTag n d
  if h.exc ≠ 0 then
    let act := c.get Fd.PRT_PARSE_CTRL_FAIL_ACT n 0
    let tc := c.get Fd.PRT_PARSE_CTRL_FAIL_TC n 0
    let h1 := { h0 with hash := c.hashOf p h.profile h.pv, noLearn := true }
    if act = 1 then ({ h1 with cls := tc, colour := cGREEN }, c)
    else if act = 2 then ({ h1 with cls := tc, trap := 2, trapHall := c.portHall n }, c)
    else ({ h1 with drop := true }, c)
  else
    let hall := c.frameHall n h.vid
    let l0 : Act × Chip := if tag.isSome then (Act.none_, c) else c.tcamLookup p 0 h hall
    let l1 : Act × Chip := if tag.isSome then (Act.none_, l0.2) else l0.2.tcamLookup p 1 h hall
    let a := mergeAct l0.1 l1.1
    let c1 : Chip := a.hits.foldl (fun (c : Chip) i => if i = 0 then c else (c.stat 4 i 0 1).stat 4 i 1 h.dlen) l1.2
    let methods := c1.sidMethods h.profile
    let sid := sidScan h methods c1
    let c2 := sid.2
    let ent : List Nat := if a.stream.isSome then [] else sid.1.getD []
    let handle : Option Nat := match a.stream with
      | some x => some x
      | none => sid.1.map (fun ws => wb ws 0 15 0)
    let cls1 := if !ent.isEmpty ∧ bitOf (ent.getD 14 0) 31 then wb ent 14 30 28 else h0.cls
    let cls2 := a.tc.getD cls1
    let col := match a.colour with
      | none => h0.colour
      | some x => if x < 3 then x else cGREEN
    let pol := a.pol.getD (if ent.isEmpty then 0xFFFF else wb ent 13 15 0)
    let base0 := { h0 with
      cls := cls2, colour := col, queue := a.queue, stream := handle, ent := ent, drop := a.drop,
      trap := if a.trap then 1 else 0, trapHall := a.trapHall, noLearn := a.noLearn, ctDis := a.ctDis, fwd := a.fwd, target := a.target,
      mirror := a.mirror, hash := c2.hashOf p (a.hash.getD h.profile) h.pv }
    let base := match tag with
      | some g => { base0 with cls := g.cls, colour := g.colour }
      | none => base0
    match handle with
    | none =>
      let unk := c2.get Fd.PRT_PARSE_CTRL_UNK_STREAM n 0
      if methods.isEmpty ∨ unk = 0 ∨ unk = 3 then (base, c2)
      else if unk = 1 then ({ base with discard6 := true }, c2)
      else if a.trap then (base, c2)
      else
        ({ base with trap := 3, trapHall := c2.portHall n
                     cls := if tag.isSome then base.cls else c2.get Fd.PRT_PARSE_CTRL_FAIL_TC n 0 }, c2)
    | some x =>
      let c3 := (c2.streamCnt x 0 1).streamCnt x 7 h.dlen
      let sdu := wb ent 14 14 0
      if sdu ≠ 0 ∧ sdu < h.dlen then ({ base with discard6 := true }, c3.streamCnt x 1 1)
      else if tag.isSome then (base, c3)
      else
        let gated := bitOf (ent.getD 13 0) 31
        let gi := wb ent 13 23 16
        let g : Bool × Option Nat × Chip := if gated then c3.gateFilter gi x h.dlen t h.whole else (true, none, c3)
        let h1 := { base with cls := g.2.1.getD base.cls }
        if !g.1 then ({ h1 with discard6 := true }, g.2.2)
        else
          let m := g.2.2.meterFilter pol x h.dlen col (t / 2 ^ 48)
          ({ h1 with colour := m.2.1, discard6 := !m.1, sgate := if gated then c3.gateCharge gi h.dlen h.whole else none }, m.2.2)

/-! ## HEADER_HANDOFF (R29) -/

/-- The highest vestibule level since it was read (R140), in 64-byte units. -/
def Chip.vestPeak (c : Chip) (n : Nat) : Chip :=
  let l := cdiv (c.vestLevel n) 64
  if c.get Fd.PRT_VEST_STATUS_PEAK n 0 < l then c.set Fd.PRT_VEST_STATUS_PEAK n 0 l else c

/-- Stages 5 and 6 of frame `fid` of port `n` on pipeline `p`. A frame is WHOLE once its RX_FRAME_END has run, and a count of VLAN
tags above 7 wraps in its field (DESIGN CHOICE, log 146). -/
def Chip.takeHeader (c : Chip) (p n fid : Nat) (f : Frame) : Chip :=
  let h := c.parse p n f.ended f.data
  let c1 := c.evcPulse p evHDRIN 1 (some h)
  let c2 := if h.exc = 0 then c1 else (c1.cntSat Fd.PIP_PARSE_EXC_COUNT p h.exc 1).evcPulse p evEXC 1 (some h)
  let r := c2.classify p n f.data f.devT h
  let c3 := r.2.setFrame fid { f with handed := true, pipe := p, gen := (c.port n).moves, hdr := some r.1 }
  c3.setPipe p { c3.pipe p with buf := (c3.pipe p).buf ++ [fid] }

/-- HEADER_HANDOFF: `arrived` bytes of the oldest frame of port `n` not yet handed off are in the vestibule. -/
def headerHandoff (p n arrived : Nat) (c : Chip) : Chip :=
  match (c.port n).vest.find? (fun i => ((c.frame i).map (fun f => !f.handed)).getD false) with
  | none => c
  | some fid =>
    match c.frame fid with
    | none => c
    | some f =>
      let got := if f.ended then f.wireLen else max f.arrived (min arrived f.wireLen)
      let c1 := (c.setFrame fid { f with arrived := got }).vestPeak n
      if !c.running || !c.pipeUp p || decide (c.portPipe n ≠ p) || (c.port n).remapping || c.stopping 1 p ||
          decide (64 ≤ (c.pipe p).buf.length) || !c1.readyFrame fid then c1
      else c1.takeHeader p n fid { f with arrived := got }

end Sys2Proof.Machine
end

