-- ==== Sys2Proof/Machine/Redundancy.lean ====
section
/-! DEFINITION. Stage 7's redundancy engine (chapter 7): the duplicate-discard table, the judgement of a sequence, sequence
generators, PRP and HSR reception, and 802.1CB recovery. -/

namespace Sys2Proof.Machine

/-! ## The duplicate-discard table (R228 to R233) -/

def rcRXA : Nat := 0
def rcUNTAGGED : Nat := 2
def rcWRONGLAN : Nat := 4
def rcDUP : Nat := 6
def rcWINDOW : Nat := 7
def rcORDER : Nat := 8
def rcOWN : Nat := 9
def rcTXGEN : Nat := 10
def rcSRCFULL : Nat := 11
def rcGENFULL : Nat := 12
def rcFORGOTTEN : Nat := 13
def rcSUPTX : Nat := 14
def rcSUPRX : Nat := 15

/-- RED_PAIR_k counter `i` (R246). -/
def Chip.pairCnt (c : Chip) (k i : Nat) : Chip := c.cntSat Fd.RED_PAIR_CNT_COUNT k i 1

/-- The size of the source region (R228). -/
def Chip.srcRegion (c : Chip) : Nat :=
  2 ^ min (max 10 (min 17 (c.get Fd.RED_DUP_CTRL_SRC_LOG2 0 0))) (Nat.log2 (c.tblSize tDUP))

def Chip.forgetMs (c : Chip) : Nat := max 20 (min 10000 (c.get Fd.RED_DUP_CTRL_FORGET_MS 0 0))
def Chip.genAgeMs (c : Chip) : Nat := 1000 * max 1 (min 60 (c.get Fd.RED_DUP_CTRL_GEN_AGE_S 0 0))

/-- Device time in ms modulo 65 536. -/
def Chip.dupMs (c : Chip) : Nat := c.ns / 10 ^ 6 % 65536

def dupKind (ws : List Nat) : Nat := wb ws 0 30 29
def dupPair (ws : List Nat) : Nat := wb ws 0 21 16
def dupMac (ws : List Nat) : Nat := ws.getD 1 0 * 65536 + wb ws 2 31 16

def kSOURCE : Nat := 0
def kGENERATOR : Nat := 1
def kCBWINDOW : Nat := 2

/-- The key of R229. -/
def dupKey (mac k hall kind : Nat) : List Nat := beBytes 6 mac ++ [k, hall, kind]

/-- The SOURCE or GENERATOR entry for (mac, pair, hall). -/
def Chip.dupFind (c : Chip) (kind mac k hall : Nat) : Option Nat × Chip :=
  c.hashFind tDUP c.srcRegion (dupKey mac k hall kind)
    (fun ws => decide (dupKind ws = kind ∧ dupMac ws = mac ∧ dupPair ws = k ∧ wb ws 0 28 24 = hall))

/-- The words of an entry that a frame creates. -/
def dupWords (kind mac k hall seq ms seen : Nat) : List Nat :=
  [2 ^ 31 + kind * 2 ^ 29 + hall % 32 * 2 ^ 24 + k % 64 * 2 ^ 16 + seq % 65536, mac / 65536, mac % 65536 * 65536 + ms % 65536,
   0, 1, seen % 4, 0, 0]

/-- Create an entry; `none` under the conditions of R233. -/
def Chip.dupCreate (c : Chip) (kind mac k hall seq seen : Nat) : Option Chip :=
  if c.tblQuota tDUP hall ≤ c.tblUse tDUP hall then none
  else (c.hashPlace tDUP c.srcRegion (dupKey mac k hall kind)).map (fun i =>
    c.putEntry tDUP i (dupWords kind mac k hall seq c.dupMs seen))

/-- What R231 says of a sequence: accepted or not, a duplicate, out of order, at or beyond H; the numbers skipped over; the
entry's window after it. -/
structure Judged where
  accept : Bool
  dup : Bool
  order : Bool
  far : Bool
  skipped : Nat
  ws : List Nat
  deriving DecidableEq, Repr

/-- LAST_SEQ and BITMAP of an entry replaced. -/
def setWindow (ws : List Nat) (seq bm : Nat) : List Nat :=
  ((wset ws 0 15 0 seq).set 3 (bm / 2 ^ 32 % 2 ^ 32)).set 4 (bm % 2 ^ 32)

/-- The judgement of R231 for a SOURCE window (`cb` false) or a CB_WINDOW with history `hist`. -/
def judgeSeq (cb : Bool) (hist s : Nat) (ws : List Nat) : Judged :=
  let last := wb ws 0 15 0
  let d : Int := signed 16 ((s + 65536 - last) % 65536)
  let bm := ws.getD 3 0 * 2 ^ 32 + ws.getD 4 0
  let no : Judged := { accept := false, dup := false, order := false, far := false, skipped := 0, ws := ws }
  if bitOf (ws.getD 5 0) 31 then { no with accept := true, ws := wset (setWindow ws s 1) 5 31 31 0 }
  else if d = 0 then { no with dup := true }
  else if 0 < d ∧ d < hist then
    { no with accept := true, skipped := d.toNat - 1, ws := setWindow ws s (bm * 2 ^ d.toNat % 2 ^ 64 + 1) }
  else if d < 0 ∧ -d < hist then
    if bitOf bm (-d).toNat then { no with dup := true }
    else { no with accept := true, order := true, ws := setWindow ws last (bm + 2 ^ (-d).toNat) }
  else if cb then { no with far := true }
  else { no with accept := true, far := true, ws := setWindow ws s 1 }

/-- After the judgement: SEEN_MS and the SEEN bit of the port on acceptance, DUP_CNT on a duplicate (R231). -/
def judgedWords (j : Judged) (ms : Nat) (seen : Nat) : List Nat :=
  if j.accept then wset (wset j.ws 2 15 0 ms) 5 1 0 (wb j.ws 5 1 0 ||| seen)
  else if j.dup then wadd j.ws 6 1 else j.ws

/-- A frame of (mac, hall) with sequence `s` arrives on side `side` (0 A, 1 B) of pair `k`: the source window judges it. -/
def Chip.sourceWindow (c : Chip) (k side mac hall s : Nat) : Bool × Chip :=
  let f := c.dupFind kSOURCE mac k hall
  let c1 := f.2
  let seen := 2 ^ side
  match f.1 with
  | none =>
    match c1.dupCreate kSOURCE mac k hall s seen with
    | some c2 => (true, c2)
    | none => (true, c1.pairCnt k rcSRCFULL)
  | some i =>
    let j := judgeSeq false 64 s ((c1.entry tDUP i).getD [])
    let c2 := c1.update tDUP i (fun ws => judgedWords (judgeSeq false 64 s ws) c1.dupMs seen)
    let c3 := if j.dup then c2.pairCnt k rcDUP else if j.order then c2.pairCnt k rcORDER
      else if j.far then c2.pairCnt k rcWINDOW else c2
    (j.accept, c3)

/-- The sequence of a frame sent into pair `k` that keeps none (R234). -/
def Chip.nextSeq (c : Chip) (k mac hall : Nat) : Nat × Chip :=
  let f := c.dupFind kGENERATOR mac k hall
  let c1 := f.2.pairCnt k rcTXGEN
  match f.1 with
  | some i =>
    let s := (wb ((c1.entry tDUP i).getD []) 0 15 0 + 1) % 65536
    (s, c1.update tDUP i (fun ws => wset (wset ws 0 15 0 s) 2 15 0 c1.dupMs))
  | none =>
    match c1.dupCreate kGENERATOR mac k hall 0 0 with
    | some c2 => (0, c2)
    | none =>
      let s := (c1.get Fd.RED_PAIR_FALLBACK_SEQ k 0 + 1) % 65536
      (s, (c1.set Fd.RED_PAIR_FALLBACK_SEQ k 0 s).pairCnt k rcGENFULL)

/-! ## Reception on a pair (R235, R236, R241) -/

/-- The MAC of pair `k` (R225). -/
def Chip.pairMac (c : Chip) (k : Nat) : Nat := c.get Fd.RED_PAIR_MAC_HI_MAC k 0 * 2 ^ 32 + c.get Fd.RED_PAIR_MAC_LO_MAC k 0

/-- A frame has an HSR tag on its header stack. -/
def Hdr.hsr (h : Hdr) : Bool := (h.stacked 4).isSome

/-- A supervision frame (R240): its destination and its last Ethertype. -/
def isSupervision (d : List Nat) (h : Hdr) : Bool := decide (beAt d 0 5 = 0x01154E0001 ∧ beAt h.pv 6 2 = 0x88FB)

/-- What stage 7 makes of a frame's arrival on a pair: whether it goes on, whether a window accepted it, the sequence of a
valid tag or trailer. -/
structure RedIn where
  pass : Bool
  accepted : Bool
  seq : Option Nat
  deriving DecidableEq, Repr

/-- The judgement of a frame of port `n`, hall `hall`, on pair `k` with trailer result `tr`. -/
def Chip.redIn (c : Chip) (k n hall : Nat) (d : List Nat) (h : Hdr) (tr : Option (Nat × Nat)) : RedIn × Chip :=
  let side := if c.pairA k = n then 0 else 1
  let sa := saOf d
  let judge (c : Chip) (s : Nat) : RedIn × Chip :=
    let j := c.sourceWindow k side sa hall s
    if j.1 then
      let c1 := j.2.pairCnt k (rcRXA + side)
      ({ pass := true, accepted := true, seq := some s }, if isSupervision d h then c1.pairCnt k rcSUPRX else c1)
    else ({ pass := false, accepted := false, seq := some s }, j.2)
  let plain : RedIn × Chip := ({ pass := true, accepted := false, seq := none }, c.pairCnt k (rcUNTAGGED + side))
  if c.pairRole k = 1 then
    match tr with
    | none => plain
    | some (s, lan) => judge (if lan = 10 + side then c else c.pairCnt k (rcWRONGLAN + side)) s
  else if !h.hsr then plain
  else
    let own := c.dupFind kGENERATOR sa k hall
    let s := beAt h.pv 100 2
    if sa = c.pairMac k ∨ own.1.isSome then ({ pass := false, accepted := false, seq := some s }, own.2.pairCnt k rcOWN)
    else judge own.2 s

/-- The sequence recorded in the peer pair's SOURCE window as accepted (R236): one that the window already marks is no discarded
duplicate, and sets SEEN_MS alone. -/
def Chip.peerRecord (c : Chip) (peer mac hall s : Nat) : Chip :=
  let f := c.dupFind kSOURCE mac peer hall
  match f.1 with
  | none => (f.2.dupCreate kSOURCE mac peer hall s 0).getD (f.2.pairCnt peer rcSRCFULL)
  | some i => f.2.update tDUP i (fun ws => wset (judgeSeq false 64 s ws).ws 2 15 0 f.2.dupMs)

/-! ## 802.1CB (R242 to R245) -/

/-- The encodings of R245, and where a sequence for recovery was found. -/
def enRTAG : Nat := 0
def enHSR : Nat := 1
def enPRP : Nat := 2

/-- The sequence of a frame for recovery and its source (R243). -/
def Chip.cbSeq (c : Chip) (h : Hdr) (tr : Option (Nat × Nat)) : Option (Nat × Nat) :=
  let id := c.get Fd.RED_CB_CTRL_RTAG_HDR_ID 0 0
  if id ≠ 0 ∧ (h.stacked id).isSome then some (beAt h.pv (c.get Fd.RED_CB_CTRL_RTAG_PV 0 0) 2, enRTAG)
  else if h.hsr then some (beAt h.pv 100 2, enHSR)
  else tr.map (fun t => (t.1, enPRP))

/-- The recovery function that a stream entry names, when it is valid. -/
def Chip.redFn (c : Chip) (h : Hdr) : Option (Nat × List Nat) :=
  let i := wb h.ent 15 13 0
  (c.entry tRECOVERY i).map (fun ws => (i, ws))

def fnHistory (ws : List Nat) : Nat := max 2 (min 64 (wb ws 0 22 16))

/-- Recovery of a frame whose stream entry has RCV_EN (R244): whether it passes, and the encoding that STRIP removes. -/
def Chip.cbRecover (c : Chip) (h : Hdr) (tr : Option (Nat × Nat)) : Bool × Option Nat × Chip :=
  if !bitOf (h.ent.getD 15 0) 31 then (true, none, c)
  else
    let c0 := c.eccRead tRECOVERY (wb h.ent 15 13 0)
    match c0.redFn h with
    | none => (true, none, c0)
    | some (fi, fn) =>
      let bump (c : Chip) (w n : Nat) : Chip := c.update tRECOVERY fi (fun ws => wadd ws w n)
      match c0.cbSeq h tr with
      | none => (wb fn 0 27 27 = 1, none, bump (bump c0 9 1) (if wb fn 0 27 27 = 1 then 4 else 5) 1)
      | some (s, enc) =>
        let di := wb fn 1 16 0
        let c1 := c0.eccRead tDUP di
        let strip := if wb fn 0 24 24 = 1 then some enc else none
        match (if c1.srcRegion ≤ di then c1.entry tDUP di else none) with
        | none => (true, none, c1.raise fTABLE tRECOVERY)
        | some ws =>
          if dupKind ws ≠ kCBWINDOW then (true, none, c1.raise fTABLE tRECOVERY)
          else if wb fn 0 29 28 = 1 then
            let ok := bitOf (ws.getD 5 0) 31 || decide (wb ws 0 15 0 ≠ s)
            let c2 := c1.update tDUP di (fun ws =>
              if ok then wset (wset (wset ws 0 15 0 s) 5 31 31 0) 2 15 0 c1.dupMs else wadd ws 6 1)
            (ok, strip, bump c2 (if ok then 4 else 5) 1)
          else
            let hist := fnHistory fn
            let j := judgeSeq true hist s ws
            let c2 := c1.update tDUP di (fun ws => judgedWords (judgeSeq true hist s ws) c1.dupMs 0)
            let c3 := bump c2 (if j.accept then 4 else 5) 1
            let c4 := if j.far then bump c3 6 1 else if j.order then bump c3 7 1 else c3
            (j.accept, strip, if j.skipped = 0 then c4 else bump c4 8 j.skipped)

/-- The sequence that SEQGEN gives a frame, with its ENCODE (R245). -/
def Chip.cbGenerate (c : Chip) (h : Hdr) : Option (Nat × Nat) × Chip :=
  if !bitOf (h.ent.getD 15 0) 30 then (none, c)
  else
    let c0 := c.eccRead tRECOVERY (wb h.ent 15 13 0)
    match c0.redFn h with
    | none => (none, c0)
    | some (fi, fn) =>
      let s := wb fn 3 15 0
      (some (s, wb fn 0 26 25), c0.update tRECOVERY fi (fun ws => wset ws 3 15 0 (s + 1)))

/-! ## Sweeping (R232) -/

/-- A sweeper pass: every entry is visited once. -/
def dupSweepPass (c : Chip) : Chip :=
  if !c.flag Fd.RED_DUP_CTRL_SWEEP_EN 0 0 || !c.running then c
  else
    let idle (c : Chip) (ws : List Nat) : Nat := (c.dupMs + 65536 - wb ws 2 15 0) % 65536
    let c1 := (c.entries tDUP).foldl (fun (c : Chip) i =>
      let ws := (c.entry tDUP i).getD []
      if dupKind ws = kSOURCE then
        if c.forgetMs < idle c ws then (c.delEntry tDUP i).pairCnt (dupPair ws) rcFORGOTTEN else c
      else if dupKind ws = kGENERATOR then if c.genAgeMs < idle c ws then c.delEntry tDUP i else c
      else c) c
    (c1.entries tRECOVERY).foldl (fun (c : Chip) fi =>
      let fn := (c.entry tRECOVERY fi).getD []
      let di := wb fn 1 16 0
      match (if c.srcRegion ≤ di then c.entry tDUP di else none) with
      | none => c
      | some ws =>
        if dupKind ws = kCBWINDOW ∧ !bitOf (ws.getD 5 0) 31 ∧ max 1 (min 60000 (wb fn 2 15 0)) < idle c ws then
          (c.update tDUP di (fun ws => wset ws 5 31 31 1)).update tRECOVERY fi (fun ws => wadd ws 10 1)
        else c) c1

end Sys2Proof.Machine
end

