-- ==== Sys2Proof/Machine/Deadline.lean ====
section
/-! DEFINITION. Deadlines (R260 to R266), stream health records (R268, R269), the admission of a frame and its copies
(R254 to R258), and the sessions that sample it (R270, R271). -/

namespace Sys2Proof.Machine

/-! ## Deadlines -/

/-- The ingress timestamp of a frame (2^-48 ns), with the accumulator (2^-32 cu) and the frequency in use at that instant. -/
structure InRef where
  t : Nat
  acc : Nat
  freq : Nat

def Frame.inRef (f : Frame) : InRef := { t := f.devT, acc := f.accIn, freq := f.freqIn }

/-- The accumulator (2^-32 cu) at instant `t` (2^-48 ns) not after now, at the frequency in use. -/
def Chip.accAt (c : Chip) (t : Nat) : Nat :=
  (c.cyc.accX + 2 ^ 144 - incOf c.cyc.freq * (c.tim.devT - t) % 2 ^ 144) % 2 ^ 144 / 2 ^ 48

/-- The deadline has been reached. -/
def Chip.dlPassed (c : Chip) (d : Option Deadline) : Bool :=
  match d with
  | none => false
  | some (.ns t) => c.nsReached t
  | some (.cu a) => decide ((c.cycAcc + 2 ^ 96 - a % 2 ^ 96) % 2 ^ 96 < 2 ^ 95)

/-- How a frame's deadline is reckoned: the DL_KIND that applies, and the lag t_in − T_ref as a fraction of a ns. -/
structure DlRef where
  kind : Nat
  num : Nat
  den : Nat
  deriving DecidableEq, Repr

/-- DL_KIND of a frame (R178, R260). -/
def Hdr.dlKind (h : Hdr) : Nat := if h.stream.isNone ∨ 4 < wb h.ent 14 27 25 then 0 else wb h.ent 14 27 25

/-- The reference instant for a frame that arrived at `i` (R260 to R262), and the counter of a sample that has none. -/
def Chip.dlRef (c : Chip) (h : Hdr) (i : InRef) : DlRef × Option Nat :=
  let t := i.t
  let k := h.dlKind
  let s := h.smpCnt
  if k = 1 ∨ k = 2 then
    let r := if k = 1 then 4800 else 14400
    if r ≤ s then ({ kind := 0, num := 0, den := 1 }, some xSMPRANGE)
    else
      let sec := t / 2 ^ 48 / 10 ^ 9
      let inst := (sec * 10 ^ 9 * r + s * 10 ^ 9) * 2 ^ 48
      let now := if t * r < inst then t * r + 10 ^ 9 * r * 2 ^ 48 else t * r
      ({ kind := k, num := now - inst, den := r * 2 ^ 48 }, none)
  else if k = 3 then
    if !c.anchored then ({ kind := 0, num := 0, den := 1 }, some xUNANCH)
    else
      let p := if c.flag Fd.ATR_AGE_CTRL_TRK_SPC 0 0 then 256 else 80
      let d := (i.acc / 2 ^ 32 + 2 ^ 32 - s % p * 2 ^ 32 / p) % 2 ^ 32
      ({ kind := 3, num := d * 2 ^ 32, den := max 1 (incOf i.freq) }, none)
  else ({ kind := k, num := 0, den := 1 }, none)

/-- T_ref plus a budget of `num / den` ns, rounded up. -/
def nsDeadline (t : Nat) (r : DlRef) (num den : Nat) : Deadline :=
  .ns (cdiv (t * r.den * den + num * 2 ^ 48 * r.den - r.num * 2 ^ 48 * den) (2 ^ 48 * r.den * den))

/-- T_ref plus a budget of `v` cu (R264): the way back to T_ref is rounded to whole cu. -/
def Chip.cuDeadline (c : Chip) (i : InRef) (r : DlRef) (v : Nat) : Deadline :=
  if c.anchored then
    let back := (roundDiv ((incOf i.freq * r.num : Nat) : Int) (r.den * 2 ^ 32)).toNat * 2 ^ 32
    .cu ((i.acc + 2 ^ 96 - back % 2 ^ 96 + v * 2 ^ 32) % 2 ^ 96)
  else nsDeadline i.t r (v * 2 ^ 32) (max 1 (incOf (c.get Fd.TIM_CYC_NOM_FREQ_UHZ 0 0)))

/-- The deadline of a frame of class `cls` (R260, R263). -/
def Chip.deadline (c : Chip) (h : Hdr) (r : DlRef) (i : InRef) (cls : Nat) : Deadline :=
  let t := i.t
  if r.kind = 1 ∨ r.kind = 2 ∨ r.kind = 3 then
    let v := c.get Fd.ATR_AGE_SV_VALUE 0 0
    if c.flag Fd.ATR_AGE_CTRL_SV_BASE 0 0 then c.cuDeadline i r v else nsDeadline t r v 1
  else if r.kind = 4 then
    let tal := beAt h.pv 48 4
    let v := c.get Fd.ATR_AGE_GOOSE_CAP_VALUE 0 0
    if c.flag Fd.ATR_AGE_CTRL_GOOSE_BASE 0 0 then
      let inc := incOf (if c.anchored then i.freq else c.get Fd.TIM_CYC_NOM_FREQ_UHZ 0 0)
      if tal ≠ 0 ∧ tal * 10 ^ 6 * inc ≤ v * 2 ^ 32 then nsDeadline t r (tal * 10 ^ 6) 1 else c.cuDeadline i r v
    else nsDeadline t r (if tal = 0 then v else min (tal * 10 ^ 6) v) 1
  else
    let v := c.get Fd.ATR_AGE_CLASS_VALUE cls 0
    if c.flag Fd.ATR_AGE_CLASS_BASE cls 0 then c.cuDeadline i r v else nsDeadline t r v 1

/-! ## Health records -/

/-- The health update of stage 7 (R269). -/
def Chip.health (c : Chip) (h : Hdr) (r : DlRef) : Chip :=
  match h.stream with
  | none => c
  | some x =>
    if !bitOf (h.ent.getD 14 0) 24 then c
    else
      let late := c.get Fd.ATR_HEALTH_CTRL_LATE_NS 0 0
      (c.eccRead tHEALTH x).update tHEALTH x (fun ws =>
        let w1 := wadd ws 1 1
        if r.kind = 1 ∨ r.kind = 2 ∨ r.kind = 3 then
          let roll := if r.kind = 1 then 4800 else if r.kind = 2 then 14400
            else if wb ws 7 31 16 = 0 then 65536 else wb ws 7 31 16
          let s := h.smpCnt
          let g := (((s : Int) - (wb ws 0 15 0 : Nat) - 1) % (roll : Int)).toNat
          let w2 := if bitOf (ws.getD 0 0) 30 then wset (wset w1 0 15 0 s) 0 30 30 0
            else if g = roll - 1 ∨ roll ≤ 2 * g then wadd w1 5 1
            else wset (wadd w1 2 g) 0 15 0 s
          let w3 := w2.set 6 (min (max (w2.getD 6 0) (r.num / r.den)) (2 ^ 32 - 1))
          if late * r.den < r.num then wadd w3 3 1 else w3
        else w1)

/-- The class, hall, stream and health counters of an aged copy (R266); `q` names its leaf queue. -/
def Chip.aged (c : Chip) (cls hall point : Nat) (h : Option Hdr) (nq : Option (Nat × Nat)) : Chip :=
  let c1 := (((c.cntSat Fd.ATR_AGED_COUNT cls 0 1).atrCnt point 1).stat 3 hall 18 1).aevcPulse evAGED 1
  let c2 := match nq with
    | some (n, q) => if n < 96 then c1.stat 1 (256 * n + q) 3 1 else c1
    | none => c1
  match h.bind (fun h => h.stream.map (fun x => (h, x))) with
  | none => c2
  | some (h, x) =>
    let c3 := c2.streamCnt x 6 1
    if bitOf (h.ent.getD 14 0) 24 then c3.update tHEALTH x (fun ws => wadd ws 4 1) else c3

/-! ## Admission -/

/-- A copy that stage 7 asks for: its queue (port, or 128 + hall for a host queue), and its descriptor. -/
structure Want where
  n : Nat
  q : Nat
  copy : Copy
  deriving DecidableEq, Repr

/-- SCH_n_CLASS_MAP_h of a class (R284): the owner's map on an exclusive port. -/
def Chip.classQueue (c : Chip) (n hall cls : Nat) : Nat :=
  let j := 2 * (if c.shared n then hall else c.owner n) + cls / 4
  match cls % 4 with
  | 0 => c.get Fd.SCH_CLASS_MAP_Q0 n j
  | 1 => c.get Fd.SCH_CLASS_MAP_Q1 n j
  | 2 => c.get Fd.SCH_CLASS_MAP_Q2 n j
  | _ => c.get Fd.SCH_CLASS_MAP_Q3 n j

/-- F of R254. -/
def Chip.freeCells (c : Chip) : Nat := c.atrFree - c.get Fd.ATR_ADM_CTRL_HEADROOM 0 0

/-- The limit of a leaf queue for a copy (R255). -/
def Chip.queueLimit (c : Chip) (free cls colour : Nat) : Nat :=
  let green := max (c.get Fd.ATR_CLASS_CFG_QMIN cls 0) (2 ^ c.get Fd.ATR_CLASS_CFG_ALPHA cls 0 * free / 8)
  if colour = cYELLOW then green / 2 ^ c.get Fd.ATR_CLASS_CFG_YSHIFT cls 0 else green

/-- The first frame check of R254 that fails, by its order number. -/
def Chip.frameCheck (c : Chip) (hall cls colour n : Nat) (dl : Deadline) : Option Nat :=
  firstFail [
    (decide (colour = cRED), 1),
    (c.dlPassed (some dl), 2),
    (decide (c.atrFree < n) || (!bitOf (c.get Fd.ATR_ADM_CTRL_HR_CLASSES 0 0) cls && decide (c.freeCells < n)), 3),
    (decide (c.get Fd.GLB_QUOTA_W0_CELLS hall 0 < c.get Fd.ATR_HALL_USE_USE hall 0 + n), 4),
    (decide (c.get Fd.ATR_CLASS_MAX_MAX cls 0 < c.get Fd.ATR_CLASS_USE_USE cls 0 + n), 5)]

/-- What a failing frame check counts. -/
def Chip.countCheck (c : Chip) (k cls hall : Nat) (h : Hdr) : Chip :=
  if k = 2 then (c.aged cls hall xAGEDADMIT (some h) none).discard1
  else
    let i := if k = 1 then xRED else if k = 3 then xDEVFULL else if k = 4 then xHALL else xCLASS
    (((c.atrCnt i 1).stat 3 hall (13 + i) 1).aevcPulse evADMIT 1).discard1

/-- Errors stored with the words of cells as they are written (R436): injected ones of `flt.eccNext`, by bank. -/
def Chip.storeEcc (c : Chip) (cells : List Nat) (len : Nat) : List (Nat × Nat) × Chip :=
  let banks := (List.range cells.length).flatMap (fun i =>
    ((List.range 4).filter (fun w => decide (64 * (4 * i + w) < len))).map (c.wordBank (cells.getD i 0)))
  banks.foldl (fun (a : List (Nat × Nat) × Chip) b =>
    let e := a.2.flt.eccNext.get 0 0 b
    if e = 0 then a
    else (a.1 ++ [(b, e)], { a.2 with flt := { a.2.flt with eccNext := a.2.flt.eccNext.put 0 0 b 0 } })) ([], c)

/-- A session's copy of a frame is admitted: the next record counts from here (R273), and the frame gives the session no other
(R271). -/
def Chip.sampled (c : Chip) (x : Copy) : Chip :=
  if x.kind ≠ 2 then c
  else
    let c1 := c.setMir x.sess { c.mirRt x.sess with pool := 0, lost := 0 }
    match c1.frame x.fid with
    | none => c1
    | some f => c1.setFrame x.fid { f with mirrored := insNew x.sess f.mirrored }

/-- Enqueue an admitted copy (R255). -/
def Chip.enqueue (c : Chip) (w : Want) (dlen : Nat) : Chip :=
  let c1 := (c.sampled w.copy).setQueue w.n w.q (c.queue w.n w.q ++ [w.copy])
  if w.n < 96 then (c1.stat 1 (256 * w.n + w.q) 0 1).stat 1 (256 * w.n + w.q) 1 dlen else c1

/-- A copy that R255 does not let in. -/
def Chip.refuseCopy (c : Chip) (w : Want) (hall : Nat) : Chip :=
  if w.copy.kind = 2 then
    let r := c.mirRt w.copy.sess
    (c.setMir w.copy.sess { r with lost := min (r.lost + 1) (2 ^ 32 - 1) }).cntSat Fd.ATR_MIR_DROPS_DROPS (w.copy.sess - 1) 0 1
  else
    let c1 := (((c.atrCnt xQUEUE 1).stat 3 hall 17 1).aevcPulse evADMIT 1).discard1
    if w.n < 96 then c1.stat 1 (256 * w.n + w.q) 2 1 else c1

/-- Correct a frame's charges to its actual length once it has ended (R256). -/
def Chip.settleLen (c : Chip) (fid : Nat) : Chip :=
  match c.frame fid with
  | none => c
  | some f =>
    let n := cdiv f.len 256
    if !f.ended || !f.staged || f.refs = 0 || n = f.charged then c
    else if n < f.charged then
      let c1 := ((c.giveCells (f.cells.drop n)).uncharge f.hall f.cls (f.charged - n))
      c1.setFrame fid { f with cells := f.cells.take n, charged := n }
    else
      let got := Chip.takeCells c.cellsHeld (n - f.charged) c
      let more := got.1
      let c1 := (got.2.charge f.hall f.cls more.length).setFrame fid
        { f with cells := f.cells ++ more, charged := f.charged + more.length }
      if more.length < n - f.charged then (c1.atrCnt xOVERRUN 1).killFrame fid else c1

/-- Admission (R254, R255, R258): the frame's checks, then each copy's. `wants` are its copies, `sess` its session copies.
Answers whether a copy was admitted. -/
def Chip.admission (c : Chip) (fid : Nat) (f : Frame) (h : Hdr) (hall cls : Nat) (dl : Deadline) (wants sess : List Want) :
    Bool × Chip :=
  let n := cdiv h.dlen 256
  match c.frameCheck hall cls h.colour n dl with
  | some k => (false, c.countCheck k cls hall h)
  | none =>
    let free := c.freeCells
    let fits (w : Want) : Bool := decide (c.qCells w.n w.q + n ≤ c.queueLimit free w.copy.cls h.colour)
    let ok := wants.filter fits
    let okS := sess.filter fits
    let c1 := ((wants ++ sess).filter (fun w => !fits w)).foldl (fun c w => c.refuseCopy w hall) c
    if ok.isEmpty ∧ okS.isEmpty then (false, c1.setFrame fid { f with hall := hall })
    else
      let got := Chip.takeCells c1.cellsHeld n c1
      let e := got.2.storeEcc got.1 h.dlen
      let c2 := (e.2.charge hall cls n).setFrame fid
        { f with hall := hall, hdr := some { h with cls := cls }, cells := got.1, charged := n,
                 refs := ok.length + okS.length, ecc := e.1 }
      let c3 := (ok ++ okS).foldl (fun c w => c.enqueue w h.dlen) c2
      (!ok.isEmpty, c3.settleLen fid)

/-! ## Sessions (R270, R271) -/

/-- One step of a session's 32-bit LFSR, taps 32, 22, 2 and 1 (DEDUCED, log 26). -/
def lfsrStep (x : Nat) : Nat :=
  x * 2 % 2 ^ 32 + (b2n (bitOf x 31) + b2n (bitOf x 21) + b2n (bitOf x 1) + b2n (bitOf x 0)) % 2

/-- A candidate of session `s`: taken or not. -/
def Chip.candidate (c : Chip) (s : Nat) : Bool × Chip :=
  let r := c.mirRt s
  let n := c.get Fd.ATR_MIR_SEL_N (s - 1) 0
  let pool := min (r.pool + 1) (2 ^ 32 - 1)
  if c.flag Fd.ATR_MIR_SEL_RANDOM (s - 1) 0 then
    let x := lfsrStep r.lfsr
    (decide (n ≤ 1) || decide (x % 2 ^ 24 < 2 ^ 24 / n), c.setMir s { r with pool := pool, lfsr := x })
  else if n ≤ r.cand + 1 then (true, c.setMir s { r with pool := pool, cand := 0 })
  else (false, c.setMir s { r with pool := pool, cand := r.cand + 1 })

/-- The destination queue of session `s` for a frame of hall `hall`, and its copy (R270, R272). -/
def Chip.sessionWant (c : Chip) (s fid hall : Nat) (h : Option Hdr) (dl : Option Deadline) (out : Nat) : Want :=
  let i := s - 1
  let r := c.mirRt s
  let tc := c.get Fd.ATR_MIR_CTRL_TC i 0
  let copy : Copy :=
    { fid := fid, kind := 2, reason := 6, cls := tc, colour := (h.map (fun h => h.colour)).getD 0, dl := dl,
      edit := Edit.plain, sess := s, out := out, pool := r.pool, lost := r.lost, seqDone := false }
  if c.flag Fd.ATR_MIR_CTRL_DEST_KIND i 0 then
    { n := 128 + c.get Fd.ATR_MIR_CTRL_HALL i 0, q := c.get Fd.ATR_MIR_CTRL_RING i 0, copy := copy }
  else
    let n := c.get Fd.ATR_MIR_CTRL_DEST_PORT i 0
    { n := n, q := c.classQueue n hall tc, copy := copy }

/-- A session samples to a destination that exists. -/
def Want.exists_ (w : Want) : Bool := decide (w.n < 96 ∨ 128 ≤ w.n)

/-- The session copies of a frame at stage 8 (R271). -/
def Chip.sessionsOf (c : Chip) (fid n hall : Nat) (h : Hdr) (dl : Deadline) : List Want × Chip :=
  ((c.idxWith Fd.ATR_MIR_CTRL_ENABLE).map (fun i => i + 1)).foldl (fun (a : List Want × Chip) s =>
    let i := s - 1
    let src := a.2.get Fd.ATR_MIR_CTRL_SRC i 0
    let sel := decide (src = 0 ∧ h.mirror = s) || decide (src = 1 ∧ a.2.get Fd.ATR_MIR_SOURCE_SRC_PORT i 0 = n) ||
      decide (src = 3 ∧ h.stream = some (a.2.get Fd.ATR_MIR_SOURCE_SRC_STREAM i 0))
    if !sel then a
    else
      let t := a.2.candidate s
      let w := t.2.sessionWant s fid hall (some h) (some dl) 0xFF
      if t.1 && w.exists_ then (a.1 ++ [w], t.2) else (a.1, t.2)) ([], c)

end Sys2Proof.Machine
end

