-- ==== Sys2Proof/Machine/Forward.lean ====
section
/-! DEFINITION. Stages 7 and 8 (R29, R194 to R207, R223 to R245, R254 to R273, R307 to R313, R324, R325): the egress set of a
frame, the copies it becomes, and STAGE8_COMPLETE and LEARN_INSERT. -/

namespace Sys2Proof.Machine

/-! ## What stage 7 knows of a frame -/

/-- A frame at stage 7: ingress port (127 for none), hall, bytes, t_in with what it binds, header, trailer result, gallery tag, the active pair it
arrived on with what the pair's engine found, the encoding that recovery strips, a generated sequence with its encoding, the
local port that a tag inserted here names. -/
structure St7 where
  n : Nat
  hall : Nat
  d : List Nat
  t : InRef
  h : Hdr
  tr : Option (Nat × Nat)
  tag : Option GalTag
  pair : Option Nat
  red : RedIn
  strip : Option Nat
  gen : Option (Nat × Nat)
  glocal : Nat

/-- A copy of the hall may use port `n` for the frame's VID (R198, R337). -/
def Chip.mayUse (c : Chip) (hall n vid : Nat) : Bool :=
  if c.shared n then decide (c.sliceHall vid = some hall) && (c.localOf hall n).isSome else decide (c.owner n = hall)

/-- A port that the egress set may keep, whoever owns it: not the ingress port, no port of the pair that the frame arrived on
(R198, R235, R236). -/
def Chip.awayPort (c : Chip) (x : St7) (n : Nat) : Bool :=
  decide (n < 96 ∧ n ≠ x.n) && (match x.pair with
    | some k => decide (n ≠ c.pairA k ∧ n ≠ c.pairB k)
    | none => true)

/-- The ports of a set that stay after R198; whether a shared port has dropped the copy, and the counts of that (R337). `direct`
for a host frame whose target R353 has checked. -/
def Chip.keepPorts (c : Chip) (x : St7) (cls : Nat) (direct : Bool) (ps : List Nat) : List Nat × Bool × Chip :=
  let away := ps.filter (c.awayPort x)
  let stay (n : Nat) : Bool := direct || c.mayUse x.hall n x.h.vid
  let barred := away.filter (fun n => c.shared n && !stay n)
  (away.filter stay, !barred.isEmpty, barred.foldl (fun c n => c.disc n cls) c)

/-- Every port of a hall (R197). -/
def Chip.hallPorts (c : Chip) (hall vid : Nat) : List Nat := (List.range 96).filter (fun n => c.mayUse hall n vid)

/-- An egress set: ports, gallery logical ports, a group sent across the gallery; the class that the FDB sets; the ports of this
member that a unicast hit names. -/
structure ESet where
  ports : List Nat
  gals : List Nat
  mc : Option Nat
  tc : Option Nat
  uni : Option (List Nat)
  deriving DecidableEq, Repr

def ESet.none_ : ESet := { ports := [], gals := [], mc := none, tc := none, uni := none }

/-- A group as an egress set (R196, R324). -/
def Chip.groupSet (c : Chip) (g : Nat) : ESet × Chip :=
  let r := c.group g
  ({ ESet.none_ with ports := r.1, mc := if r.2.1 then some g else none }, r.2.2)

/-- Steps 4, 6 and 7 of R197. -/
def Chip.floodSet (c : Chip) (hall vid grp : Nat) : ESet × Chip :=
  if c.flag Fd.TBL_VLAN_W0_VALID vid 0 then c.groupSet grp else ({ ESet.none_ with ports := c.hallPorts hall vid }, c)

/-- The entry of a hash group that serves (R188): from `k` on, the first valid one. -/
def Chip.hashEntry (c : Chip) (p base size k : Nat) : Option Nat :=
  ((List.range size).map (fun j => base + (k + j) % size)).find? (fun i => c.flag Fd.TBL_HASHIND_VALID p (i % 16384))

/-- Step 2 of R197. -/
def Chip.actionSet (c : Chip) (p : Nat) (h : Hdr) : ESet × Chip :=
  let at_ (kind target : Nat) : ESet × Chip :=
    match kind with
    | 0 => ({ ESet.none_ with ports := [target % 128] }, c)
    | 1 => c.groupSet (target % 65536)
    | _ => ({ ESet.none_ with gals := [target % 2 ^ 19] }, c)
  match h.fwd with
  | 1 => at_ 0 h.target
  | 2 => at_ 1 h.target
  | 4 => at_ 2 h.target
  | _ =>
    let size := 2 ^ min 8 (bits 23 20 h.target)
    match c.hashEntry p (h.target % 16384) size (h.hash % size) with
    | none => (ESet.none_, c)
    | some i =>
      let j := i % 16384
      at_ (c.get Fd.TBL_HASHIND_KIND p j) (c.get Fd.TBL_HASHIND_TARGET p j)

/-- The egress set of R197 after the source lookup's verdict. -/
def Chip.egressSet (c : Chip) (p : Nat) (x : St7) (v : SrcVerdict) : ESet × Chip :=
  let vid := x.h.vid
  let da := daOf x.d
  let umc := c.get Fd.TBL_VLAN_W1_UMC_GRP vid 0
  if x.h.fwd ≠ 0 then c.actionSet p x.h
  else if v = .discardSa then (ESet.none_, c.fdbEvt eDSA x.hall)
  else if v = .excessFlood then
    c.floodSet x.hall vid (if isGroup da then umc else c.get Fd.TBL_VLAN_W0_UUC_GRP vid 0)
  else if isBroadcast da then c.floodSet x.hall vid (c.get Fd.TBL_VLAN_W1_BC_GRP vid 0)
  else
    let f := c.fdbFind da (c.fidOf vid) x.hall
    let c1 := f.2
    match f.1 with
    | none => c1.floodSet x.hall vid (if isGroup da then umc else c1.get Fd.TBL_VLAN_W0_UUC_GRP vid 0)
    | some i =>
      let ws := (c1.entry tFDB i).getD []
      let tc := if bitOf (ws.getD 5 0) 23 then some (wb ws 5 22 20) else none
      match fdbKind ws with
      | 0 =>
        let ps := c1.fdbPorts ws
        ({ ESet.none_ with ports := ps, tc := tc, uni := if isGroup da then none else some ps }, c1)
      | 1 => let g := c1.groupSet (fdbTarget ws % 65536); ({ g.1 with tc := tc }, g.2)
      | 2 =>
        let here := decide (fdbTarget ws / 128 = c1.galAddr ∧ c1.galState ≠ gsCONFLICT ∧ fdbTarget ws % 128 < 96)
        ({ ESet.none_ with gals := [fdbTarget ws], tc := tc
                           uni := if isGroup da then none else some (if here then [fdbTarget ws % 128] else []) }, c1)
      | _ => (ESet.none_, c1.fdbEvt eDDA x.hall)

/-! ## Copies -/

/-- The encodings that a copy loses on its way to a port outside every pair (R235, R236, R244, R311). -/
def Chip.localEdit (c : Chip) (x : St7) : Edit :=
  let role := (x.pair.map c.pairRole).getD 0
  let gen := x.gen.map (fun g => (g.2, if g.2 = enPRP then 10 else 0, g.1))
  { Edit.plain with
    rmHsr := (decide (role = 2) && x.h.hsr) || decide (x.strip = some enHSR) ||
      (decide (gen.map (fun g => g.1) = some enHSR) && x.h.hsr),
    rmPrp := (decide (role = 1) && x.tr.isSome) || decide (x.strip = some enPRP) ||
      (decide (gen.map (fun g => g.1) = some enPRP) && x.tr.isSome),
    rmR := decide (x.strip = some enRTAG), rmGal := x.tag.isSome, add := gen }

/-- The edit of a copy that leaves on side `side` of pair `k` under sequence `seq` (R237). -/
def Chip.pairEdit (c : Chip) (x : St7) (k side seq : Nat) : Edit :=
  let e := c.localEdit x
  { e with
    rmHsr := e.rmHsr || x.h.hsr, rmPrp := e.rmPrp || x.tr.isSome,
    add := some (if c.pairRole k = 1 then (2, 10 + side, seq) else (1, c.get Fd.RED_PAIR_CFG_NET_ID k 0 * 2 + side, seq)) }

/-- The sequence of a frame sent into pair `k` (R234, R245). -/
def Chip.pairSeq (c : Chip) (x : St7) (k : Nat) : Nat × Chip :=
  match x.gen with
  | some g => (g.1, c)
  | none =>
    if c.flag Fd.RED_PAIR_CFG_PASS_SEQ k 0 && x.pair.isSome && x.red.accepted then (x.red.seq.getD 0, c)
    else c.nextSeq k (saOf x.d) x.hall

/-- A data copy to port `n`. -/
def Chip.portWant (c : Chip) (fid : Nat) (x : St7) (cls : Nat) (n : Nat) (e : Edit) : Want :=
  { n := n, q := x.h.queue.getD (c.classQueue n x.hall cls),
    copy := { fid := fid, kind := 0, reason := 0, cls := cls, colour := x.h.colour, dl := none, edit := e, sess := 0, out := 0, seqDone := false } }

/-- A copy to the host of hall `hall` (R354): `reason` 0 through the ring of its class, otherwise the exception ring. Of the
encodings of R245 an R-TAG alone reaches a host. -/
def Chip.hostWant (c : Chip) (fid : Nat) (x : St7) (cls hall reason : Nat) : Want :=
  let ring := if reason = 0 then c.get Fd.HAL_RX_MAP_MAP hall 0 / 2 ^ (4 * cls) % 16
    else c.get Fd.HAL_RX_CFG_EXC_RING hall 0
  let e := c.localEdit x
  let edit := { e with
    rmHsr := x.h.hsr, rmPrp := x.tr.isSome, rmGal := x.tag.isSome
    add := if x.gen.map (fun g => g.2) = some enRTAG then e.add else none }
  { n := 128 + hall, q := ring,
    copy := { fid := fid, kind := if reason = 0 then 0 else 1, reason := reason, cls := cls, colour := x.h.colour, dl := none,
              edit := edit, sess := 0, out := 0, seqDone := false } }

/-- The tag inserted here (R310, R311). -/
def Chip.newTag (c : Chip) (x : St7) (cls dst : Nat) (mcast : Bool) : GalTag :=
  { typ := 0, cls := cls, colour := x.h.colour, mcast := mcast, noLearn := x.h.noLearn, warm := false,
    hops := max 1 (c.get Fd.GAL_CTRL_MAX_HOPS 0 0), src := c.galAddr * 128 + x.glocal, dst := dst, flow := 0, seq := 0 }

/-- What stage 11 does to a copy to port `n` that no gallery route has sent there: on a stair link it keeps its tag, a hop less, or
gets one; the destination of that tag is free (R311, log 150). -/
def Chip.portEdit (c : Chip) (fid : Nat) (x : St7) (cls n : Nat) : Edit :=
  let e := c.localEdit x
  if (c.stairOf n).isNone then e
  else if x.tag.isSome then { e with rmGal := false, hop := true }
  else { e with gal := some (c.newTag x cls (Config.freeDst fid n % 2 ^ 19) false) }

/-- Copies to ports: a port of an active pair, not the one the frame arrived on, stands for both ports of its pair (R237). -/
def Chip.portWants (c : Chip) (fid : Nat) (x : St7) (cls : Nat) (ports : List Nat) : List Want × Chip :=
  let ps := ports.foldl (fun l n => insNew n l) []
  let pairs := (ps.filterMap c.pairOf).foldl (fun l k => insNew k l) []
  let single := ps.filter (fun n => (c.pairOf n).isNone)
  let plain := single.map (fun n => c.portWant fid x cls n (c.portEdit fid x cls n))
  pairs.foldl (fun (a : List Want × Chip) k =>
    let s := a.2.pairSeq x k
    (a.1 ++ [s.2.portWant fid x cls (s.2.pairA k) (s.2.pairEdit x k 0 s.1),
             s.2.portWant fid x cls (s.2.pairB k) (s.2.pairEdit x k 1 s.1)], s.2)) (plain, c)

/-! ## Across the gallery (R324, R325) -/

/-- The links of `mask` that carry copies now, ascending. -/
def Chip.liveLinks (c : Chip) (mask : Nat) : List Nat := (bitsOf 32 mask).filter (fun k => c.stairValid k && c.stairUp k)

/-- A copy on stair link `k`: with a new tag, or the tag it came with. -/
def Chip.stairWant (c : Chip) (fid : Nat) (x : St7) (cls k : Nat) (tag : Option GalTag) : Want :=
  let e := { c.localEdit x with rmGal := false, gal := tag, hop := tag.isNone }
  c.portWant fid x cls (c.stairPort k) e

/-- A spray sequence entry's use (R325): the entry before, if there is one or room for one, and the link's place. -/
def Chip.sprayUse (c : Chip) (dst flow : Nat) : Option SprayEnt :=
  match c.gal.spray.find dst flow with
  | some e => some e
  | none => if 16384 ≤ c.gal.spray.length then none
    else some { seq := 0, born := c.tim.clk, copies := 0, last := c.tim.clk, rr := 0 }

/-- A unicast copy to gallery logical port `g` (R324, R325). `none`: no route. -/
def Chip.galWant (c : Chip) (fid : Nat) (x : St7) (cls g : Nat) : Option Want × Chip :=
  let m := g / 128
  let loc := g % 128
  if 96 ≤ loc ∧ loc ≤ 126 then (none, c.galCnt gcNOROUTE)
  else
    let c0 := c.eccRead tGROUTE m
    match c0.entry tGROUTE m with
    | none => (none, c0.galCnt gcNOROUTE)
    | some ws =>
      let links := c0.liveLinks (ws.getD 1 0)
      if wb ws 0 30 29 ≠ 2 ∨ links = [] then (none, c0.galCnt gcNOROUTE)
      else
        let k := links.getD (x.h.hash % links.length) 0
        if x.tag.isSome then (some (c0.stairWant fid x cls k none), c0)
        else
          let data := (some (c0.stairWant fid x cls k (some (c0.newTag x cls g false))), c0)
          if !c0.flag Fd.GAL_SPRAY_CTRL_ENABLE 0 0 || !bitOf (c0.get Fd.GAL_SPRAY_CTRL_CLASS_MASK 0 0) cls ||
            (c0.stopping 4 0 && (c0.gal.spray.find g (cls * 8192 + x.h.hash % 8192)).isNone) then data
          else
            let flow := cls * 8192 + x.h.hash % 8192
            match c0.sprayUse g flow with
            | none => (data.1, c0.galCnt gcNOCNT)
            | some e =>
              let warm := decide (c0.tim.clk < e.born + 1000 * max 1 (c0.get Fd.GAL_SPRAY_CTRL_WARM_US 0 0) ∨ e.copies < 16)
              let kk := if warm then k else links.getD (e.rr % links.length) 0
              let tag : GalTag := { c0.newTag x cls g false with typ := 1, warm := warm, flow := flow, seq := e.seq }
              let e' : SprayEnt := { seq := (e.seq + 1) % 65536, born := e.born, copies := e.copies + 1, last := c0.tim.clk,
                                     rr := if warm then e.rr else e.rr + 1 }
              let c1 : Chip := { c0 with gal := { c0.gal with spray := c0.gal.spray.ins g flow e' } }
              (some (c1.stairWant fid x cls kk (some tag)), c1.galCnt gcSPRAYTX)

/-- Copies to gallery logical ports: of this member, its ports as R198 keeps them and its host (a member in CONFLICT has no address,
R319); of another, over a stair link. Answers the copies, and whether one that had no route or no slice is counted already. -/
def Chip.galWants (c : Chip) (fid : Nat) (x : St7) (cls : Nat) (gs : List Nat) : List Want × Bool × Chip :=
  gs.foldl (fun (a : List Want × Bool × Chip) g =>
    let c := a.2.2
    let here := decide (g / 128 = c.galAddr ∧ c.galState ≠ gsCONFLICT)
    if here ∧ g % 128 < 96 then
      let k := c.keepPorts x cls false [g % 128]
      let r := k.2.2.portWants fid x cls k.1
      (a.1 ++ r.1, a.2.1 || k.2.1, r.2)
    else if here ∧ g % 128 = 127 then (a.1 ++ [c.hostWant fid x cls x.hall 0], a.2.1, c)
    else
      let r := c.galWant fid x cls g
      match r.1 with
      | some w => (a.1 ++ [w], a.2.1, r.2)
      | none => (a.1, true, r.2.discard1)) ([], false, c)

/-- The copies of a group on the tree of member `m`'s entry (R324). -/
def Chip.treeWants (c : Chip) (fid : Nat) (x : St7) (cls m : Nat) (tag : Option GalTag) : List Want × Chip :=
  let c0 := c.eccRead tGROUTE m
  match c0.entry tGROUTE m with
  | none => ([], c0)
  | some ws =>
    (((c0.liveLinks (ws.getD 2 0)).filter (fun k => decide (c0.stairPort k ≠ x.n))).map (fun k => c0.stairWant fid x cls k tag), c0)

/-! ## Stage 7 and 8 of one frame -/

/-- A copy of a hall leaves a shared port only with a VID of the hall's slice (R337). -/
def Chip.sliceBar (c : Chip) (x : St7) (w : Want) : Bool :=
  decide (w.n < 96) && c.shared w.n && !c.mayUse x.hall w.n x.h.vid

/-- Admission of a frame with its copies, and the copies that sample it. -/
def Chip.stage8 (c : Chip) (fid : Nat) (f : Frame) (x : St7) (cls : Nat) (r : DlRef × Option Nat) (wants : List Want)
    (counted : Bool) : Bool × Chip :=
  let barred := wants.filter (c.sliceBar x)
  let c0 := barred.foldl (fun c w => c.disc w.n w.copy.cls) c
  let ws := wants.filter (fun w => !c0.sliceBar x w)
  if ws = [] then (false, if counted || !barred.isEmpty then c0 else c0.discard1)
  else
    let c1 := match r.2 with
      | none => c0
      | some i => c0.atrCnt i 1
    let dl := c1.deadline x.h r.1 x.t cls
    let put (w : Want) : Want := { w with copy := { w.copy with dl := some dl } }
    let s := c1.sessionsOf fid x.n x.hall x.h dl
    s.2.admission fid f x.h x.hall cls dl (ws.map put) s.1

/-- Queue or hold back the learn that a source lookup asked for (R205, R206). -/
def Chip.giveLearn (c : Chip) (p fid : Nat) (l : Option Learn) : Chip :=
  match l with
  | none => c
  | some l =>
    match c.frame fid with
    | none => c
    | some f => if f.ended then c.queueLearn p l else c.setFrame fid { f with learn := some l }

/-- A frame is a learning candidate (R201, R312). -/
def Chip.candidateOf (c : Chip) (n : Nat) (h : Hdr) (tag : Option GalTag) : Bool :=
  let mode := c.get Fd.PRT_LEARN_CTRL_MODE n 0
  decide (mode = 1 ∨ mode = 2) && c.flag Fd.TBL_FDB_CTRL_LEARN_EN 0 0 && !c.flag Fd.TBL_VLAN_W0_LEARN_DIS h.vid 0 &&
    decide (h.exc = 0) && !h.drop && !h.noLearn && !h.discard6 && !((tag.map (fun g => g.noLearn)).getD false)

/-- Where a frame's source is learned (R207, R313). -/
def Chip.placeOf (c : Chip) (n : Nat) (tag : Option GalTag) : Place :=
  match tag with
  | some g => { kind := 2, target := g.src, pair := false, port := n }
  | none => c.portPlace n

/-- The copies of an HSR frame that its pair's engine accepted (R236): the ring copy, and the copies into the peer ring. -/
def Chip.ringWants (c : Chip) (fid : Nat) (x : St7) (cls : Nat) (uni : Option (List Nat)) : List Want × Chip :=
  match x.pair with
  | none => ([], c)
  | some k =>
    if c.pairRole k ≠ 2 ∨ !x.red.accepted then ([], c)
    else
      let away := match uni with
        | some ps => ps.all (fun n => decide (n ≠ c.pairA k ∧ n ≠ c.pairB k))
        | none => false
      let modeH := !c.flag Fd.RED_PAIR_CFG_HSR_MODE k 0
      let keep := modeH && (decide (daOf x.d = c.pairMac k) || away)
      let ring := if keep then [] else [c.portWant fid x cls (c.twin k x.n) Edit.plain]
      let peer := c.get Fd.RED_PAIR_CFG_QUAD_PEER k 0
      if c.flag Fd.RED_PAIR_CFG_QUAD_EN k 0 && c.pairActive peer then
        let net := 2 * c.get Fd.RED_PAIR_CFG_NET_ID peer 0
        (ring ++ [c.portWant fid x cls (c.pairA peer) { Edit.plain with ring := some net },
                  c.portWant fid x cls (c.pairB peer) { Edit.plain with ring := some (net + 1) }],
         c.peerRecord peer (saOf x.d) x.hall (x.red.seq.getD 0))
      else (ring, c)

/-- The source lookup of a frame (R202), its learn queued or held back. -/
def Chip.sourceStep (c : Chip) (p fid : Nat) (x : St7) (cand : Bool) : SrcVerdict × Chip :=
  let s := c.sourceLookup (saOf x.d) (c.fidOf x.h.vid) x.hall (c.placeOf x.n x.tag) (c.get Fd.PRT_LEARN_CTRL_MODE x.n 0) cand
  (s.1, s.2.2.giveLearn p fid s.2.1)

/-- Stage 7 behind the redundancy engine and recovery, then stage 8. `direct` replaces the egress set of a host frame in DIRECT
mode. A trapped frame, and one forwarded under FAIL_ACT L2, keep the class of stage 6 (R166). -/
def Chip.forward (c : Chip) (p fid : Nat) (f : Frame) (x : St7) (cand : Bool) (direct : Option ESet) : Bool × Chip :=
  let h := x.h
  let r := c.dlRef h x.t
  let c1 := if h.discard6 then c else c.health h r.1
  let s : SrcVerdict × Chip := if direct.isSome then (.ok, c1) else c1.sourceStep p fid x cand
  let c2 := s.2
  let f1 := (c2.frame fid).getD f
  if h.drop || h.discard6 || decide (s.1 = .staticDrop ∨ s.1 = .excessDrop) then (false, c2.discard1)
  else
    match x.tag with
    | some g =>
      let c3 := c2
      if s.1 = .discardSa then (false, (c3.fdbEvt eDSA x.hall).discard1)
      else if h.trap ≠ 0 then c3.stage8 fid f1 x h.cls r [c3.hostWant fid x h.cls h.trapHall h.trap] false
      else if g.mcast then
        let grp := c3.groupSet (g.dst % 65536)
        let k := grp.2.keepPorts x h.cls false grp.1.ports
        let ps := k.2.2.portWants fid x h.cls k.1
        let tree := if g.hops = 0 then ([], ps.2) else ps.2.treeWants fid x h.cls (g.src / 128) none
        tree.2.stage8 fid f1 x h.cls r (ps.1 ++ tree.1) k.2.1
      else
        let w := c3.galWants fid x h.cls [g.dst]
        w.2.2.stage8 fid f1 x h.cls r w.1 w.2.1
    | none =>
      let e : ESet × Chip := match direct with
        | some e => (e, c2)
        | none => c2.egressSet p x s.1
      let cls := if h.trap ≠ 0 ∨ h.exc ≠ 0 then h.cls else e.1.tc.getD h.cls
      let ring := e.2.ringWants fid x cls e.1.uni
      let sup := match x.pair with
        | some k => isSupervision x.d h && x.red.accepted && e.2.flag Fd.RED_PAIR_CFG_SUP_TRAP k 0
        | none => false
      if sup then ring.2.stage8 fid f1 x cls r (ring.2.hostWant fid x cls x.hall 4 :: ring.1) false
      else if h.trap ≠ 0 then ring.2.stage8 fid f1 x cls r (ring.2.hostWant fid x cls h.trapHall h.trap :: ring.1) false
      else
        let k := ring.2.keepPorts x cls direct.isSome e.1.ports
        let same := match e.1.uni with
          | some us => decide (k.1 = [] ∧ x.n ∈ us)
          | none => false
        let c4 := if same then k.2.2.fdbEvt eSAME x.hall else k.2.2
        let a := c4.portWants fid x cls k.1
        let b := a.2.galWants fid x cls e.1.gals
        let t := match e.1.mc with
          | some g => b.2.2.treeWants fid x cls b.2.2.galAddr (some (b.2.2.newTag x cls g true))
          | none => ([], b.2.2)
        t.2.stage8 fid f1 x cls r (ring.1 ++ a.1 ++ b.1 ++ t.1) (k.2.1 || b.2.1)

/-- The rules of R312 for a frame of a stair link: `some c` where it goes no further. -/
def Chip.stairBar (c : Chip) (n : Nat) (d : List Nat) : Option Chip :=
  match c.stairOf n with
  | none => none
  | some k =>
    match readGalTag c.galEtype d with
    | none => some (c.galCnt gcTAGBAD).discard1
    | some (ver, g) =>
      if ver ≠ 1 ∨ 4 < g.typ ∨ (c.stairState k ≠ glUP ∧ g.typ ≠ 2) then some (c.galCnt gcTAGBAD).discard1
      else if 2 ≤ g.typ then some c
      else if g.hops = 0 ∧ !g.mcast ∧ g.dst / 128 ≠ c.galAddr then some (c.galCnt gcHOPS).discard1
      else none

/-- The designated SV stream steers the cycle clock (R103). -/
def Chip.svReference (c : Chip) (h : Hdr) (t : Nat) : Chip :=
  if c.cycMode = 2 && decide (h.stream = some (c.get Fd.TIM_CYC_SV_STREAM_STREAM 0 0)) then
    let spc := if c.flag Fd.TIM_CYC_CTRL_SPC 0 0 then 256 else 80
    c.cycRef (t - c.get Fd.TIM_CYC_SV_DELAY_NS 0 0 * 2 ^ 48) (h.smpCnt % spc * 2 ^ 32 / spc)
  else c

/-- Duplicate discard would let a frame pass that stage 6 has discarded (R103 takes its references before policing; DEDUCED,
log 147). -/
def Chip.passesDup (c : Chip) (n hall : Nat) (d : List Nat) (h : Hdr) (tr : Option (Nat × Nat)) (pair : Option Nat) : Bool :=
  let red : RedIn × Chip := match pair with
    | some k => c.redIn k n hall d h tr
    | none => ({ pass := true, accepted := false, seq := none }, c)
  red.1.pass && (red.2.cbRecover h tr).1

/-- Stage 7 from the rules of stair links on, for a frame of hall `hall` that port `n` received, or that its host sent as if
(R353): `pair` is the active pair that it arrived on, `learn` whether it may be learned. Duplicates are discarded with their
source looked up, as every frame's (R202). Answers whether a copy was admitted. -/
def Chip.stage7In (c : Chip) (p fid n : Nat) (f : Frame) (h : Hdr) (hall : Nat) (pair : Option Nat) (learn : Bool) : Bool × Chip :=
  let d := f.data
  match c.stairBar n d with
  | some c1 => (false, c1)
  | none =>
    let tr := if c.flag Fd.PRT_PARSE_CTRL_TRAILER n 0 then readTrailer d h.vlanCnt else none
    let early := h.discard6 || (h.drop && decide (h.exc ≠ 0))
    let tag := c.stairTag n d
    let cand := learn && c.candidateOf n h tag
    let x0 : St7 := { n := n, hall := hall, d := d, t := f.inRef, h := h, tr := tr, tag := tag, pair := pair,
                      red := { pass := true, accepted := false, seq := none }, strip := none, gen := none, glocal := n }
    let gone (c : Chip) : Bool × Chip := (false, ((c.sourceStep p fid x0 cand).2).discard1)
    let red : RedIn × Chip := match (if early then none else pair) with
      | some k => c.redIn k n hall d h tr
      | none => ({ pass := true, accepted := false, seq := none }, c)
    if !red.1.pass then gone red.2
    else
      let cb : Bool × Option Nat × Chip := if early then (true, none, red.2) else red.2.cbRecover h tr
      if !cb.1 then gone cb.2.2
      else
        let g : Option (Nat × Nat) × Chip := if early || h.drop then (none, cb.2.2) else cb.2.2.cbGenerate h
        let c1 := if early && !c.passesDup n hall d h tr pair then g.2 else g.2.svReference h f.devT
        c1.forward p fid f { x0 with red := red.1, strip := cb.2.1, gen := g.1 } cand none

/-- Stage 7 from its start, for a frame received on port `n`. -/
def Chip.stage7 (c : Chip) (p fid n : Nat) (f : Frame) (h : Hdr) : Chip :=
  match c.frameHall n h.vid with
  | none =>
    let c1 := (c.stat 0 n 13 1).discard1
    match c.sliceHall h.vid with
    | some hall => c1.stat 3 hall 19 1
    | none => c1
  | some hall =>
    if c.hallState hall = 3 then ((c.stat 0 n 14 1).stat 3 hall 20 1).discard1
    else (c.stage7In p fid n f h hall (c.pairOf n) true).2

/-- STAGE8_COMPLETE (R29): the header at the head of the completion buffer of pipeline `p`. -/
def stage8Complete (p : Nat) (c : Chip) : Chip :=
  match (c.pipe p).buf with
  | [] => c
  | fid :: rest =>
    let pop (c : Chip) : Chip := c.setPipe p { c.pipe p with buf := rest }
    match c.frame fid with
    | none => pop c
    | some f =>
      if !c.running then c
      else if f.bad then (((pop c).slotUsed p 2).leaveVest fid).delFrame fid
      else if c.flag Fd.PRT_PARSE_CTRL_TRAILER f.port 0 && !f.ended then c
      else
        match f.hdr with
        | none => pop c
        | some h =>
          let f1 := { f with staged := true }
          let c1 := ((pop c).slotUsed p 1).setFrame fid f1
          let c2 := if h.cls < 8 then c1.stat 0 f.port (24 + h.cls) 1 else c1
          (c2.stage7 p fid f.port f1 h).settleVest fid

/-! ## Execution -/

def execHeaderHandoff (p n arrived : Nat) (s : State) : Host.Outcome State Fault Refusal :=
  .next (s.onChip (headerHandoff p n arrived))

def execStage8Complete (p : Nat) (s : State) : Host.Outcome State Fault Refusal := .next (s.onChip (stage8Complete p))

def execLearnInsert (p : Nat) (s : State) : Host.Outcome State Fault Refusal := .next (s.onChip (learnInsert p))

end Sys2Proof.Machine
end

