-- ==== Sys2Proof/Machine/Macsec.lean ====
section
/-! DEFINITION. MACsec (R141 to R145): the SecTAG, the selection of an SC and an SA, validation and decryption of a received
frame, encryption of a transmitted one. -/

namespace Sys2Proof.Machine

/-- The SecY of port `n` is in service (R5, R141). -/
def Chip.macsecOn (c : Chip) (n : Nat) : Bool := decide (c.sku = 0) && c.flag Fd.PRT_MACSEC_CTRL_ENABLE n 0

def Chip.msCipher (c : Chip) (n : Nat) : Nat := c.get Fd.PRT_MACSEC_CTRL_CIPHER n 0
def Chip.msXpn (c : Chip) (n : Nat) : Bool := decide (2 ≤ c.msCipher n)
/-- Key length in bytes of a cipher code. -/
def cipherKeyLen (cipher : Nat) : Nat := if cipher % 2 = 1 then 32 else 16
/-- Bytes left in clear (R141); XPN ciphers use no offset. -/
def Chip.msOffset (c : Chip) (n : Nat) : Nat :=
  if c.msXpn n then 0 else match c.get Fd.PRT_MACSEC_CTRL_CONF_OFFSET n 0 with | 1 => 30 | 2 => 50 | _ => 0

/-- Where an SA's key is held: transmit SA `a`, or receive SA `a` of SC `sc`. -/
def saIdx (dir sc a : Nat) : Nat := 8 * dir + 2 * sc + a

/-- The key of an SA as bytes of its cipher's length. -/
def Chip.saKeyBytes (c : Chip) (n dir sc a : Nat) : List Nat :=
  beBytes (cipherKeyLen (c.msCipher n)) (c.sec.saKey.get 0 n (saIdx dir sc a))

/-- The IV (802.1AE): SCI and packet number; with XPN the salt (word 0 its most significant: DEDUCED, log 28) with SSCI and
the 64-bit packet number. -/
def msIv (xpn : Bool) (sci ssci pn salt : Nat) : List Nat :=
  if xpn then beBytes 12 (salt ^^^ (ssci * 2 ^ 64 + pn)) else beBytes 8 sci ++ beBytes 4 pn

/-- A SecTAG (802.1AE clause 9). -/
structure SecTag where
  tci : Nat
  sl : Nat
  pn : Nat
  sci : Option Nat
  len : Nat
  deriving DecidableEq, Repr

def SecTag.an (t : SecTag) : Nat := t.tci % 4
def SecTag.es (t : SecTag) : Bool := bitOf t.tci 6
def SecTag.scBit (t : SecTag) : Bool := bitOf t.tci 5
def SecTag.scb (t : SecTag) : Bool := bitOf t.tci 4
def SecTag.enc (t : SecTag) : Bool := bitOf t.tci 3
def SecTag.changed (t : SecTag) : Bool := bitOf t.tci 2

/-- The SecTAG after the addresses; `none` for a frame without one. -/
def readSecTag (d : List Nat) : Option SecTag :=
  if beAt d 12 2 ≠ 0x88E5 then none
  else
    let tci := d.getD 14 0
    let sc := bitOf tci 5
    some { tci := tci, sl := d.getD 15 0, pn := beAt d 16 4, sci := if sc then some (beAt d 20 8) else none,
           len := if sc then 16 else 8 }

/-- The tag is well formed: version 0, no SCI beside ES or SCB, SL below 48, and the frame long enough for SL and the ICV. -/
def secTagOk (xpn : Bool) (d : List Nat) (t : SecTag) : Bool :=
  let room := d.length - 12 - t.len
  !bitOf t.tci 7 && !(t.scBit && (t.es || t.scb)) && decide (t.sl < 48) && (xpn || decide (t.pn ≠ 0)) &&
    decide (12 + t.len + 16 ≤ d.length) && (if t.sl = 0 then decide (64 ≤ room) else decide (t.sl + 16 ≤ room))

/-- The verdict of R145 on a received frame: it goes on; its ICV failed; its bytes without SecTAG and ICV; the SA (2·SC + SA)
and packet number it used. -/
structure MsRx where
  pass : Bool
  icv : Bool
  data : List Nat
  sa : Option (Nat × Nat)
  deriving DecidableEq, Repr

/-- A 64-bit register pair held in two word fields. -/
def Chip.pair64 (c : Chip) (lo hi : F) (i j : Nat) : Nat := c.get hi i j * 2 ^ 32 + c.get lo i j

/-- The packet number that a 32-bit one stands for under XPN: the nearest not below LOWEST_PN's half range. -/
def recoverPn (lowest pn : Nat) : Nat :=
  let hi := lowest / 2 ^ 32
  if bitOf lowest 31 && !bitOf pn 31 then (hi + 1) * 2 ^ 32 + pn else hi * 2 ^ 32 + pn

/-- The salt of receive SA `j` (2·SC + SA). -/
def Chip.rxSalt (c : Chip) (n j : Nat) : Nat :=
  c.get Fd.PRT_MACSEC_RX_SA_SALT0_SALT n j * 2 ^ 64 + c.get Fd.PRT_MACSEC_RX_SA_SALT1_SALT n j * 2 ^ 32 +
    c.get Fd.PRT_MACSEC_RX_SA_SALT2_SALT n j

def Chip.rxSci (c : Chip) (n sc : Nat) : Nat :=
  c.get Fd.PRT_MACSEC_RX_SC_SCI_SCI n (2 * sc + 1) * 2 ^ 32 + c.get Fd.PRT_MACSEC_RX_SC_SCI_SCI n (2 * sc)

/-- Validation of a received frame under VALIDATE and LOWEST_PN (R145, 802.1AE clause 10.6). Frames of MKA (0x888E) pass the
uncontrolled port. A failed ICV discards the frame under check too: R145's own words (log 58). With VALIDATE 0 neither ICV nor
LOWEST_PN is looked at (DEDUCED, log 143). -/
def Chip.msReceive (c : Chip) (n : Nat) (d : List Nat) : MsRx :=
  let validate := c.get Fd.PRT_MACSEC_CTRL_VALIDATE n 0
  let strict := decide (2 ≤ validate)
  let asIs (p : Bool) : MsRx := { pass := p, icv := false, data := d, sa := none }
  if !c.macsecOn n || decide (beAt d 12 2 = 0x888E) then asIs true
  else
    match readSecTag d with
    | none => asIs (!strict)
    | some t =>
      let xpn := c.msXpn n
      if !secTagOk xpn d t then asIs false
      else
        let n0 := 12 + t.len
        let userLen := if t.sl = 0 then d.length - n0 - 16 else t.sl
        let user := slice d n0 userLen
        let icv := slice d (n0 + userLen) 16
        let bare : List Nat := d.take 12 ++ user
        let sci := t.sci.getD (saOf d * 65536 + 1)
        let drop := strict || t.changed
        match (List.range 4).find? (fun sc => c.flag Fd.PRT_MACSEC_RX_SC_CTRL_VALID n sc && decide (c.rxSci n sc = sci)) with
        | none => { asIs (!drop) with data := bare }
        | some sc =>
          match (List.range 2).find? (fun a => c.flag Fd.PRT_MACSEC_RX_SA_CTRL_VALID n (2 * sc + a) &&
              c.flag Fd.PRT_MACSEC_RX_SA_CTRL_KEY_LOADED n (2 * sc + a) &&
              decide (c.get Fd.PRT_MACSEC_RX_SA_CTRL_AN n (2 * sc + a) = t.an)) with
          | none => { asIs (!drop) with data := bare }
          | some a =>
            let j := 2 * sc + a
            let lowest := c.pair64 Fd.PRT_MACSEC_RX_SA_LOWEST_PN_LO_PN Fd.PRT_MACSEC_RX_SA_LOWEST_PN_HI_PN n j
            let pn := if xpn then recoverPn lowest t.pn else t.pn
            let late := c.flag Fd.PRT_MACSEC_CTRL_REPLAY_PROTECT n 0 && decide (pn < lowest)
            if validate = 0 then { pass := !t.changed, icv := false, data := bare, sa := some (j, pn) }
            else if late then { pass := false, icv := false, data := bare, sa := none }
            else
              let key := c.saKeyBytes n 1 sc a
              let iv := msIv xpn sci (c.get Fd.PRT_MACSEC_RX_SA_SSCI_SSCI n j) pn (c.rxSalt n j)
              let off := if t.enc then c.msOffset n else userLen
              let aad := d.take n0 ++ user.take off
              let ct := user.drop off
              let ks := aesKeys key
              let ok := decide (gcmTag ks iv aad ct = icv)
              let clear := d.take 12 ++ user.take off ++ gcmCtr ks iv ct
              if ok then { pass := true, icv := false, data := clear, sa := some (j, pn) }
              else { pass := false, icv := true, data := clear, sa := none }

/-- NEXT_PN and LOWEST_PN after a frame that passed (802.1AE clause 10.6.5). -/
def Chip.msAdvance (c : Chip) (n : Nat) (r : MsRx) : Chip :=
  match r.sa with
  | none => c
  | some (j, pn) =>
    let next := c.pair64 Fd.PRT_MACSEC_RX_SA_NEXT_PN_LO_PN Fd.PRT_MACSEC_RX_SA_NEXT_PN_HI_PN n j
    let lowest := c.pair64 Fd.PRT_MACSEC_RX_SA_LOWEST_PN_LO_PN Fd.PRT_MACSEC_RX_SA_LOWEST_PN_HI_PN n j
    let next' := max next (pn + 1)
    let low' := max lowest (next' - c.get Fd.PRT_MACSEC_REPLAY_WINDOW_WINDOW n 0)
    let put (c : Chip) (lo hi : F) (v : Nat) : Chip := (c.set lo n j (v % 2 ^ 32)).set hi n j (v / 2 ^ 32)
    put (put c Fd.PRT_MACSEC_RX_SA_NEXT_PN_LO_PN Fd.PRT_MACSEC_RX_SA_NEXT_PN_HI_PN next')
      Fd.PRT_MACSEC_RX_SA_LOWEST_PN_LO_PN Fd.PRT_MACSEC_RX_SA_LOWEST_PN_HI_PN low'

/-! ## Transmit (R144) -/

def Chip.encSa (c : Chip) (n : Nat) : Nat := c.get Fd.PRT_MACSEC_TX_SA_SEL_ENC_SA n 0
def Chip.txPn (c : Chip) (n a : Nat) : Nat :=
  c.get Fd.PRT_MACSEC_TX_SA_NEXT_PN_PN n (2 * a + 1) * 2 ^ 32 + c.get Fd.PRT_MACSEC_TX_SA_NEXT_PN_PN n (2 * a)

/-- Frames leave port `n` protected. -/
def Chip.msProtects (c : Chip) (n : Nat) : Bool := c.macsecOn n && c.flag Fd.PRT_MACSEC_CTRL_PROTECT n 0

/-- The bytes that MACsec adds to a copy (R288). -/
def Chip.msExpansion (c : Chip) (n : Nat) (d : List Nat) : Nat :=
  if !c.msProtects n || decide (beAt d 12 2 = 0x888E) then 0
  else if c.flag Fd.PRT_MACSEC_CTRL_INCLUDE_SCI n 0 then 32 else 24

/-- The greatest packet number of the cipher in use. -/
def Chip.lastPn (c : Chip) (n : Nat) : Nat := if c.msXpn n then 2 ^ 64 - 1 else 2 ^ 32 - 1

/-- Encrypt a copy; `none` when the packet numbers are exhausted, or the SA in use is not valid and loaded. In the second case
PN_EXHAUSTED is left as it is: R144 sets it for exhausted numbers only (DEDUCED, log 142). -/
def Chip.msTransmit (c : Chip) (n : Nat) (d : List Nat) : Option (List Nat) × Chip :=
  if c.msExpansion n d = 0 then (some d, c)
  else
    let a := c.encSa n
    let xpn := c.msXpn n
    let pn := c.txPn n a
    if !c.flag Fd.PRT_MACSEC_TX_SA_CTRL_VALID n a || !c.flag Fd.PRT_MACSEC_TX_SA_CTRL_KEY_LOADED n a then (none, c)
    else if c.lastPn n ≤ (if xpn then pn else pn % 2 ^ 32) then (none, c.set Fd.PRT_MACSEC_TX_SA_SEL_PN_EXHAUSTED n 0 1)
    else
      let inc := c.flag Fd.PRT_MACSEC_CTRL_INCLUDE_SCI n 0
      let es := c.flag Fd.PRT_MACSEC_CTRL_USE_ES n 0 && !inc
      let sci := c.get Fd.PRT_MACSEC_TX_SCI_SCI n 1 * 2 ^ 32 + c.get Fd.PRT_MACSEC_TX_SCI_SCI n 0
      let user := d.drop 12
      let tag := [0x88, 0xE5, b2n es * 64 + b2n inc * 32 + 12 + c.get Fd.PRT_MACSEC_TX_SA_CTRL_AN n a,
                  if user.length < 48 then user.length else 0] ++ beBytes 4 (pn % 2 ^ 32) ++ (if inc then beBytes 8 sci else [])
      let salt := c.get Fd.PRT_MACSEC_TX_SA_SALT_SALT n (3 * a) * 2 ^ 64 +
        c.get Fd.PRT_MACSEC_TX_SA_SALT_SALT n (3 * a + 1) * 2 ^ 32 + c.get Fd.PRT_MACSEC_TX_SA_SALT_SALT n (3 * a + 2)
      let iv := msIv xpn sci (c.get Fd.PRT_MACSEC_TX_SA_SSCI_SSCI n a) (if xpn then pn else pn % 2 ^ 32) salt
      let off := c.msOffset n
      let e := gcmSeal (c.saKeyBytes n 0 0 a) iv (d.take 12 ++ tag ++ user.take off) (user.drop off)
      let next := pn + 1
      let c1 := (c.set Fd.PRT_MACSEC_TX_SA_NEXT_PN_PN n (2 * a) (next % 2 ^ 32)).set Fd.PRT_MACSEC_TX_SA_NEXT_PN_PN n (2 * a + 1)
        (next / 2 ^ 32)
      let thresh := c.get Fd.PRT_MACSEC_TX_PN_THRESH_THRESH n 1 * 2 ^ 32 + c.get Fd.PRT_MACSEC_TX_PN_THRESH_THRESH n 0
      let reach := if xpn then decide (next = thresh) else decide (next % 2 ^ 32 = thresh % 2 ^ 32)
      let c2 := if reach then
        (c1.set Fd.PRT_MACSEC_TX_SA_SEL_PN_THRESH n 0 1).irq 0 (34 + Config.freeVector 2 % 30) else c1
      (some (d.take 12 ++ tag ++ user.take off ++ e.1 ++ e.2), c2)

end Sys2Proof.Machine
end

