-- ==== Sys2Proof/Machine/Ports.lean ====
section
/-! DEFINITION. The optical ports (chapter 4): link commands and events (R121 to R124), error budgets (R149, R150), preemption
verification (R147), laser sources, swaps and the interlock (R126 to R136). -/

namespace Sys2Proof.Machine

/-! ## Error budgets (R149, R150) -/

/-- The budget is exceeded: EXCEEDED, the fault, the interrupt to hall 0 and the reaction. The interrupt's vector is open
(log 13). DOWN acts as RETRAIN does, and so only on a port that is UP (DEDUCED, log 145). -/
def Chip.budgetExceeded (c : Chip) (n : Nat) : Chip :=
  let c1 := (c.set Fd.PRT_ERR_REACT_EXCEEDED n 0 1).raise fLINKBUDGET n
  let c2 := if c.flag Fd.PRT_ERR_REACT_IRQ n 0 then c1.irq 0 (34 + Config.freeVector 1 % 30) else c1
  match c.get Fd.PRT_ERR_REACT_REACTION n 0 with
  | 1 => c2.fencePort n
  | 2 => if c2.isUp n then c2.reacquire n else c2
  | _ => c2

/-- An event of the budget's bit `b` on port `n`. -/
def Chip.budgetEvent (c : Chip) (n b : Nat) : Chip :=
  if c.get Fd.PRT_ERR_BUDGET_WINDOW_MS n 0 = 0 ∨ !bitOf (c.get Fd.PRT_ERR_BUDGET_EVENTS n 0) b then c
  else
    let r := c.port n
    let c1 := c.setPort n { r with winCnt := r.winCnt + 1 }
    if r.winCnt = c.get Fd.PRT_ERR_BUDGET_LIMIT n 0 then c1.budgetExceeded n else c1

/-- ERR_BUDGET_WINDOW: a window ends and the next begins. -/
def errBudgetWindow (n : Nat) (c : Chip) : Chip :=
  if c.get Fd.PRT_ERR_BUDGET_WINDOW_MS n 0 = 0 then c else c.setPort n { c.port n with winCnt := 0 }

/-- ERR_BUDGET_WRITE: the write that sets a non-zero WINDOW_MS starts the first window. -/
def errBudgetWrite (m n v : Nat) (c : Chip) : Chip :=
  let c1 := c.plainWrite m false .PRT_ERR_BUDGET n 0 v
  let w := c1.get Fd.PRT_ERR_BUDGET_WINDOW_MS n 0
  if w ≠ 0 ∧ w ≠ c.get Fd.PRT_ERR_BUDGET_WINDOW_MS n 0 then c1.setPort n { c1.port n with winCnt := 0 } else c1

/-! ## Link events (R118, R124) -/

def Chip.rxSignal (c : Chip) (n : Nat) : Bool := c.flag Fd.PRT_LINK_STATUS_RX_SIGNAL n 0

/-- INTLK_N is high. -/
def Chip.intlk (c : Chip) : Bool := c.pins.intlkN

/-- The modulator goes on; with light on the fibre clock recovery starts at once. -/
def Chip.lightUp (c : Chip) (n : Nat) : Chip := (c.modOn n).enterLink n (if c.rxSignal n then lACQUIRE else lTXON)

/-- A port is UP again or for the first time: the stair link on it, if DOWN, starts its hellos (R316). -/
def Chip.galPortUp (c : Chip) (n : Nat) : Chip :=
  match c.stairOf n with
  | none => c
  | some k => if c.galEnabled && decide (c.stairState k = glDOWN) && !c.isFenced 4 k then c.setStair k glPROBE else c

/-- BRING_UP (R120, R124). -/
def Chip.bringUp (c : Chip) (n : Nat) : Chip :=
  let c1 := c.setPort n { c.port n with
    rate := c.get Fd.PRT_LINK_CFG_RATE n 0, fec := c.get Fd.PRT_LINK_CFG_FEC n 0, an := c.flag Fd.PRT_LINK_CFG_AN_EN n 0,
    anDone := false }
  if c.intlk then c1.enterLink n lINTLK else c1.lightUp n

/-- A write of PRT_n_LINK_CMD (R121, R122): 1 BRING_UP, 2 TAKE_DOWN, 3 RETRAIN. -/
def linkCmd (m op n : Nat) (c : Chip) : Chip :=
  let st := Fd.PRT_LINK_CMD_STATUS
  let done (c : Chip) : Chip := c.set st n 0 sDONE
  let run (checks : List (Bool × Nat)) (go : Chip → Chip) : Chip :=
    c.command st n 0 m (addrOf .PRT_LINK_CMD n 0) id ((c.isFenced 0 n, sFENCED) :: checks) (fun c => done (go c))
  if op = 1 then
    run [(decide (c.link n ≠ lDOWN), sSTATE),
         (!pairListed (c.get Fd.PRT_LINK_CFG_RATE n 0) (c.get Fd.PRT_LINK_CFG_FEC n 0), sARG)] (fun c => c.bringUp n)
  else if op = 2 then run [] (fun c => if c.link n = lDOWN then c else c.goDark n lDOWN false)
  else if op = 3 then run [(!c.isUp n, sSTATE)] (fun c => c.reacquire n)
  else run [(true, sARG)] id

/-- RX_SIGNAL_DETECT: light on the receive fibre. -/
def rxSignalDetect (n : Nat) (c : Chip) : Chip :=
  if 96 ≤ n then c
  else
    let c1 := c.set Fd.PRT_LINK_STATUS_RX_SIGNAL n 0 1
    if c.link n = lTXON then c1.enterLink n lACQUIRE else c1

/-- CLOCK_RECOVERED: the locks of the port type follow. Alignment markers exist at 50 Gbit/s and above (log 27). -/
def clockRecovered (n : Nat) (c : Chip) : Chip :=
  if c.link n ≠ lACQUIRE ∨ !c.rxSignal n then c
  else
    let r := c.port n
    let c1 := (c.setLane Fd.OPT_LANE_STATUS_CDR_LOCK n 1).setLane Fd.OPT_LANE_STATUS_BLOCK_LOCK n 1
    let c2 := if 3 ≤ r.rate then c1.setLane Fd.OPT_LANE_STATUS_AM_LOCK n 1 else c1
    let c3 := if r.fec ≠ 0 then c2.setLane Fd.OPT_LANE_STATUS_FEC_LOCK n 1 else c2
    (c3.setPort n { r with anDone := false }).enterLink n lALIGN

/-- Clause 37 runs on the port (R118). -/
def PortRt.negotiates (r : PortRt) : Bool := decide (r.rate = 0) && r.an

/-- AN_COMPLETE (R118). -/
def anComplete (n : Nat) (full : Bool) (c : Chip) : Chip :=
  let r := c.port n
  if c.link n ≠ lALIGN ∨ !r.negotiates then c
  else (c.set Fd.PRT_LINK_STATUS_AN_NO_FD n 0 (b2n (!full))).setPort n { r with anDone := full }

/-- LINK_UP: all locks held for 1 ms. Verification of preemption restarts (R147). -/
def linkUp (n : Nat) (c : Chip) : Chip :=
  let r := c.port n
  if c.link n ≠ lALIGN ∨ (r.negotiates && !r.anDone) then c
  else ((c.setPort n { r with verify := 0 }).enterLink n lUP).galPortUp n

/-- LOCK_LOST: RX_SIGNAL gone (`dark`), or a lock lost for 10 µs. -/
def lockLost (n : Nat) (dark : Bool) (c : Chip) : Chip :=
  if 96 ≤ n then c
  else
    let s := c.link n
    let had := c.rxSignal n
    let c1 := if dark then c.set Fd.PRT_LINK_STATUS_RX_SIGNAL n 0 0 else c
    if s = lALIGN ∨ s = lUP ∨ (s = lACQUIRE ∧ dark ∧ had) then ((c1.reacquire n).rxCnt n 6 1).budgetEvent n 3 else c1

/-! ## Preemption (R146, R147) -/

/-- VERIFY_STATE: 0 DISABLED, 1 INITIAL, 2 VERIFYING, 3 SUCCEEDED, 4 FAILED. -/
def Chip.verifyState (c : Chip) (n : Nat) : Nat :=
  if !c.flag Fd.PRT_PMAC_CTRL_EN n 0 || c.flag Fd.PRT_PMAC_CTRL_VERIFY_DIS n 0 then 0
  else match (c.port n).verify with
    | 0 => 1
    | 254 => 4
    | 255 => 3
    | _ => 2

/-- Preemption is in use on port `n` (R147). -/
def Chip.pmacActive (c : Chip) (n : Nat) : Bool :=
  c.flag Fd.PRT_PMAC_CTRL_EN n 0 && c.isUp n && (decide (c.verifyState n = 3) || c.flag Fd.PRT_PMAC_CTRL_VERIFY_DIS n 0)

/-- PMAC_VERIFY: an attempt ends with the partner's response, or without one; VERIFY_LIMIT attempts without one fail. -/
def pmacVerify (n : Nat) (response : Bool) (c : Chip) : Chip :=
  let r := c.port n
  let s := c.verifyState n
  if !c.isUp n || decide (s = 0 ∨ 3 ≤ s) then c
  else if response then c.setPort n { r with verify := 255 }
  else c.setPort n { r with verify := if max 1 (c.get Fd.PRT_PMAC_CTRL_VERIFY_LIMIT n 0) ≤ r.verify + 1 then 254 else r.verify + 1 }

/-- A write of PRT_n_PMAC_CTRL: verification that is disabled starts anew when it is enabled. -/
def pmacCtrlWrite (m n v : Nat) (c : Chip) : Chip :=
  let c1 := c.plainWrite m false .PRT_PMAC_CTRL n 0 v
  if c1.verifyState n = 0 then c1.setPort n { c1.port n with verify := 0 } else c1

/-! ## The SecY's registers (R4, R5, R82, R141 to R143, R413) -/

/-- Both keys of a transmit or receive SA are gone. -/
def Chip.dropSaKeys (c : Chip) (n : Nat) : Chip :=
  let c1 : Chip := { c with sec := { c.sec with saKey := c.sec.saKey.filter (fun e => decide (e.1.1 ≠ n)) } }
  let c2 := (List.range 2).foldl (fun c a => c.set Fd.PRT_MACSEC_TX_SA_CTRL_KEY_LOADED n a 0) c1
  (List.range 8).foldl (fun c j => c.set Fd.PRT_MACSEC_RX_SA_CTRL_KEY_LOADED n j 0) c2

/-- A write of PRT_n_MACSEC_CTRL: a CIPHER that changes the key length clears the keys of the port (R413). -/
def macsecCtrlWrite (m : Nat) (kg : Bool) (n v : Nat) (c : Chip) : Chip :=
  if c.sku ≠ 0 then c.refuse m .PRT_MACSEC_CTRL n 0
  else
    let c1 := c.plainWrite m kg .PRT_MACSEC_CTRL n 0 v
    if cipherKeyLen (c1.msCipher n) ≠ cipherKeyLen (c.msCipher n) then c1.dropSaKeys n else c1

/-! ## Laser sources and swaps (R126 to R134) -/

def srcACTIVE : Nat := 0
def srcSPARE : Nat := 1
def srcDEGRADED : Nat := 2
def srcFAILED : Nat := 3
def srcRETIRED : Nat := 4
def srcOFF : Nat := 5

/-- OPT_e_SRC_s_STATUS.STATE as kept; a source whose three lanes are dark reads OFF (R125, R131). -/
def Chip.srcState (c : Chip) (e s : Nat) : Nat := c.get Fd.OPT_SRC_STATUS_STATE e s
def Chip.setSrc (c : Chip) (e s v : Nat) : Chip := c.set Fd.OPT_SRC_STATUS_STATE e s v
def Chip.sparesLeft (c : Chip) (e : Nat) : Nat := c.get Fd.OPT_SPARE_MAP_SPARES_LEFT e 0

def Chip.setSlotSource (c : Chip) (e slot v : Nat) : Chip :=
  match slot with
  | 0 => c.set Fd.OPT_SPARE_MAP_SLOT0 e 0 v
  | 1 => c.set Fd.OPT_SPARE_MAP_SLOT1 e 0 v
  | 2 => c.set Fd.OPT_SPARE_MAP_SLOT2 e 0 v
  | _ => c.set Fd.OPT_SPARE_MAP_SLOT3 e 0 v

/-- The slot that source `s` of engine `e` lights. -/
def Chip.slotLit (c : Chip) (e s : Nat) : Option Nat := (List.range 4).find? (fun k => decide (c.slotSource e k = s))

/-- No spare is left for source `s` of a slot: a degraded source keeps running, a failed one takes its ports with it (R130). -/
def Chip.noSpare (c : Chip) (e slot s : Nat) : Chip :=
  if c.srcState e s = srcFAILED then
    (slotPorts e slot).foldl (fun c n => c.fencePort n) (c.raise fLFAILED (4 * e + slot))
  else if c.srcState e s = srcDEGRADED then c.raise fLDEGRADED (4 * e + slot)
  else c

/-- Step 1 of a swap (R127). -/
def Chip.beginSwap (c : Chip) (e : Nat) (w : SwapRt) : Chip :=
  let c1 := c.setEng e { c.eng e with cur := some { w with new := 6 - c.sparesLeft e, phase := 1 } }
  let c2 := (slotPorts e w.slot).foldl (fun c n => if c.isUp n then c.set Fd.PRT_LINK_STATUS_STATE n 0 lSPARING else c) c1
  if w.emerg then (slotPorts e w.slot).foldl (fun c n => c.cutTx n) c2 else c2

/-- The outcome of a manual SWAP (R133). -/
def Chip.swapOutcome (c : Chip) (e : Nat) (w : SwapRt) (code : Nat) : Chip :=
  if w.manual then c.set Fd.OPT_SPARE_CMD_STATUS e 0 code else c

/-- The ports of a slot after its swap: SPARING ends in UP, and ports that waited for it in INTLK are lit. -/
def Chip.slotBack (c : Chip) (e slot : Nat) : Chip :=
  (slotPorts e slot).foldl (fun c n =>
    if c.link n = lSPARING then (c.set Fd.PRT_LINK_STATUS_STATE n 0 lUP).galPortUp n
    else if c.link n = lINTLK ∧ !c.intlk then c.lightUp n
    else c) c

/-- Start the next swap that waits in engine `e`. A request whose source lights its slot no more is void, and one that finds no
spare left ends; the ports of its slot that waited for it in INTLK are lit, but for those that R130 fences. -/
def Chip.nextSwap (e : Nat) : List SwapRt → Chip → Chip
  | [], c => c.setEng e { c.eng e with waiting := [] }
  | w :: rest, c =>
    if c.slotSource e w.slot ≠ w.old then Chip.nextSwap e rest ((c.swapOutcome e w sDONE).slotBack e w.slot)
    else if c.sparesLeft e = 0 then Chip.nextSwap e rest (((c.noSpare e w.slot w.old).swapOutcome e w sNOSPACE).slotBack e w.slot)
    else (c.setEng e { c.eng e with waiting := rest }).beginSwap e w

/-- A swap is asked for: at once, after the one that runs, or pending while INTLK_N is high. -/
def Chip.requestSwap (c : Chip) (e slot : Nat) (emerg manual : Bool) : Chip :=
  let w : SwapRt := { slot := slot, old := c.slotSource e slot, new := 0, emerg := emerg, phase := 0, manual := manual }
  let r := c.eng e
  if c.intlk then c.setEng e { r with pendingSwap := r.pendingSwap ++ [w] }
  else if r.cur.isSome then c.setEng e { r with waiting := r.waiting ++ [w] }
  else c.beginSwap e w

/-- The spare record of R129 and the row of the OTP array that takes it. Records are burnt in ascending order. -/
def Chip.spareRecord (c : Chip) (e : Nat) (w : SwapRt) : Nat × Nat :=
  let j := ((List.range 8).map (fun x => 2 - c.sparesLeft x)).foldl (· + ·) 0
  let rec_ := e * 2 ^ 13 + w.slot * 2 ^ 11 + (w.new - 4) * 2 ^ 10 + b2n w.emerg * 2 ^ 9
  (128 + 56 + j / 2, if j % 2 = 0 then rec_ * 65536 else rec_)

/-- Burn bits of one row of the OTP array. -/
def Otp.burn (o : Otp) (row v : Nat) : Otp := o.put 0 row (o.get 0 row ||| v)

/-- Step 5 of a swap, but for the ports (R127, R129, R130). -/
def Chip.swapBooks (c : Chip) (e : Nat) (w : SwapRt) : Chip :=
  let left := c.sparesLeft e - 1
  let c1 := ((c.setSrc e w.old srcRETIRED).setSlotSource e w.slot w.new).set Fd.OPT_SPARE_MAP_SPARES_LEFT e 0 left
  let c2 := if c1.srcState e w.new = srcSPARE then c1.setSrc e w.new srcACTIVE else c1
  let c3 := ((c2.setEng e { c2.eng e with cur := none }).swapOutcome e w sDONE).raise fLSWAP (4 * e + w.slot)
  if left = 0 then c3.raise fLSPARELOW e else c3

/-- The books of a swap with its record: burnt in every lifecycle state but RETIRED (R398), and read back. -/
def swapFinish (e : Nat) (w : SwapRt) (s : State) : State :=
  let b := s.chip.spareRecord e w
  let c := s.chip.swapBooks e w
  if s.chip.lifecycle = 3 then { s with chip := c }
  else
    let o := Otp.burn s.otp b.1 b.2
    let v := o.get 0 b.1
    { s with chip := { c with sec := { c.sec with shown := c.sec.shown.put 0 b.1 v, sensed := c.sec.sensed.put 0 b.1 v } }, otp := o }

/-- A source that lights a slot is DEGRADED, or FAILED: the swap of R126 starts, or with no spare left R130 acts. -/
def Chip.sourceActs (c : Chip) (e slot s : Nat) : Chip :=
  if c.srcState e s = srcFAILED then
    if c.sparesLeft e = 0 then c.noSpare e slot s
    else
      let busy := ((c.eng e).cur.map (fun w => w.slot)) = some slot
      (if busy then (slotPorts e slot).foldl (fun c n => c.cutTx n) c else c).requestSwap e slot true false
  else if c.srcState e s = srcDEGRADED then
    if c.sparesLeft e = 0 then c.noSpare e slot s
    else if c.flag Fd.OPT_SPARE_CTRL_AUTO e 0 then c.requestSwap e slot false false
    else c
  else c

/-- SOURCE_DEGRADED: a bias of `bias` percent for 10 s. A spare takes the STATE; a source that lights a slot acts (log 29). -/
def sourceDegraded (e s bias : Nat) (c : Chip) : Chip :=
  if 8 ≤ e ∨ 6 ≤ s ∨ !c.running then c
  else
    let c1 := c.set Fd.OPT_SRC_STATUS_BIAS_PCT e s (min 255 bias)
    if bias ≤ max 110 (c.get Fd.OPT_SPARE_CTRL_BIAS_LIMIT e 0) ∨ (c.srcState e s ≠ srcACTIVE ∧ c.srcState e s ≠ srcSPARE) then c1
    else
      let c2 := c1.setSrc e s srcDEGRADED
      match c.slotLit e s with
      | none => c2
      | some slot => c2.sourceActs e slot s

/-- A swap of a slot of engine `e` runs, waits or is pending. -/
def Chip.swapAsked (c : Chip) (e slot : Nat) : Bool :=
  let r := c.eng e
  (r.cur.toList ++ r.waiting ++ r.pendingSwap).any (fun w => decide (w.slot = slot ∧ w.old = c.slotSource e slot))

/-- SOURCE_FAILED: the output of a source is gone. A source that lights a slot acts; a spare takes the STATE, and acts once it
lights a slot; a source that a reset has left FAILED with a spare asks for its swap again (log 29). -/
def sourceFailed (e s : Nat) (c : Chip) : Chip :=
  if 8 ≤ e ∨ 6 ≤ s ∨ !c.running ∨ c.srcState e s = srcRETIRED then c
  else
    match c.slotLit e s with
    | none => c.setSrc e s srcFAILED
    | some slot =>
      if c.srcState e s = srcFAILED ∧ (c.sparesLeft e = 0 ∨ c.swapAsked e slot) then c
      else (c.setSrc e s srcFAILED).sourceActs e slot s

/-- A write of OPT_e_SPARE_CMD (R132, R133). It is BUSY until its swap has ended (R15). -/
def spareCmd (m op e slot : Nat) (c : Chip) : Chip :=
  let args (c : Chip) : Chip := c.set Fd.OPT_SPARE_CMD_SLOT e 0 slot
  c.command Fd.OPT_SPARE_CMD_STATUS e 0 m (addrOf .OPT_SPARE_CMD e 0) args
    [(c.intlk, sSTATE), (decide (op ≠ 1), sARG), (decide (c.sparesLeft e = 0), sNOSPACE)]
    (fun c => (c.requestSwap e (slot % 4) false true).set Fd.OPT_SPARE_CMD_STATUS e 0 sBUSY)

/-- SWAP_SPARE_READY: step 3 begins; a planned swap has waited for the frames in transmission. -/
def swapSpareReady (e : Nat) (c : Chip) : Chip :=
  let r := c.eng e
  match r.cur with
  | none => c
  | some w =>
    let idle := (slotPorts e w.slot).all (fun n => (c.port n).tx.isNone && (c.port n).held.isNone)
    if w.phase = 1 ∧ (w.emerg ∨ idle) then c.setEng e { r with cur := some { w with phase := 2 } } else c

/-- SWAP_SWITCH_DONE: step 4 begins. -/
def swapSwitchDone (e : Nat) (c : Chip) : Chip :=
  let r := c.eng e
  match r.cur with
  | none => c
  | some w => if w.phase = 2 then c.setEng e { r with cur := some { w with phase := 3 } } else c

/-- Start what waits in engine `e`. -/
def Chip.swapsGoOn (c : Chip) (e : Nat) : Chip :=
  if c.intlk ∨ (c.eng e).cur.isSome then c else Chip.nextSwap e (c.eng e).waiting c

/-- SWAP_COMPLETE: step 5. A spare that has degraded or failed before it lit its slot is acted on now. -/
def swapCompleteStep (e : Nat) (s : State) : State :=
  match (s.chip.eng e).cur with
  | none => s
  | some w =>
    if w.phase ≠ 3 then s
    else
      let s1 := swapFinish e w s
      { s1 with chip := ((s1.chip.slotBack e w.slot).swapsGoOn e).sourceActs e w.slot w.new }

/-! ## The interlock (R134 to R136) -/

/-- A swap that INTLK_N interrupts before step 3 stays pending; its waiting followers too. -/
def Chip.shelveSwaps (c : Chip) (e : Nat) (cur : List SwapRt) : Chip :=
  let r := c.eng e
  c.setEng e { r with cur := none, waiting := [], pendingSwap := r.pendingSwap ++ cur ++ r.waiting }

/-- What becomes of the swap of engine `e` when INTLK_N goes high. -/
def intlkSwap (s : State) (e : Nat) : State :=
  match (s.chip.eng e).cur with
  | none => { s with chip := s.chip.shelveSwaps e [] }
  | some w =>
    if w.phase = 1 then { s with chip := s.chip.shelveSwaps e [w] }
    else
      let s1 := swapFinish e w s
      { s1 with chip := (s1.chip.shelveSwaps e []).sourceActs e w.slot w.new }

/-- INTLK_OPEN: every source goes off, every port that is not DOWN or FENCED enters INTLK. While the 10 ms of R136 have not
passed since an opening, INTLK_N has fallen and risen again: one opening more, and nothing else is left to turn off (log 154). -/
def intlkOpenStep (s : State) : State :=
  let c := s.chip
  let c2 := ({ c with pins := { c.pins with intlkN := true } }.set Fd.OPT_INTLK_LATCH 0 0 1).cntSat Fd.OPT_INTLK_OPEN_CNT 0 0 1
  if c.intlk then { s with chip := c2 }
  else
    let c3 := (List.range 96).foldl (fun c n =>
      if c.link n = lDOWN ∨ c.link n = lFENCED then c else c.goDark n lINTLK true) c2
    (List.range 8).foldl intlkSwap { s with chip := c3 }

/-- INTLK_CLOSED: INTLK_N has been low for 10 ms. Slots with a pending swap wait for it, the others are lit. -/
def intlkClosed (c : Chip) : Chip :=
  if !c.intlk then c
  else
    let c1 : Chip := { c with pins := { c.pins with intlkN := false } }
    let due (n : Nat) : Bool := !((c.eng (n / 12)).pendingSwap.any (fun w => decide (w.slot = slotOf n ∧
      c.slotSource (n / 12) w.slot = w.old)))
    let c2 := (List.range 96).foldl (fun c n => if c.link n = lINTLK && due n then c.lightUp n else c) c1
    (List.range 8).foldl (fun c e =>
      let r := c.eng e
      (c.setEng e { r with waiting := r.pendingSwap ++ r.waiting, pendingSwap := [] }).swapsGoOn e) c2

/-! ## The spare maps from the OTP (R76, R129) -/

/-- One spare record. -/
def Chip.applySpare (c : Chip) (r : Nat) : Chip :=
  let e := bits 15 13 r
  let slot := bits 12 11 r
  let old := c.slotSource e slot
  let new := 4 + bits 10 10 r
  let c1 := c.setSrc e old srcRETIRED
  ((if c1.srcState e new = srcSPARE then c1.setSrc e new srcACTIVE else c1).setSlotSource e slot new).set Fd.OPT_SPARE_MAP_SPARES_LEFT e 0
    (c.sparesLeft e - 1)

/-- The records up to the last that is not 0 (log 30). -/
def trimZeros (l : List Nat) : List Nat := (l.reverse.dropWhile (fun r => decide (r = 0))).reverse

/-- Every OPT_e_SPARE_MAP as the sensed records give it. The STATE of a source is kept through everything (R131): the records
only make a used spare ACTIVE and the source it replaced RETIRED. -/
def Chip.rebuildSpares (c : Chip) : Chip :=
  let recs := (List.range 8).flatMap (fun k => let w := c.fuse (184 + k); [bits 31 16 w, bits 15 0 w])
  let c1 := (List.range 8).foldl (fun c e =>
    ((((c.unset Fd.OPT_SPARE_MAP_SPARES_LEFT e 0).unset Fd.OPT_SPARE_MAP_SLOT0 e 0).unset Fd.OPT_SPARE_MAP_SLOT1 e 0).unset
      Fd.OPT_SPARE_MAP_SLOT2 e 0).unset Fd.OPT_SPARE_MAP_SLOT3 e 0) c
  (trimZeros recs).foldl (fun c r => c.applySpare r) c1

/-! ## Execution -/

def execBringUp (m n : Nat) (s : State) : Host.Outcome State Fault Refusal :=
  .next (s.onChip (fun c => c.withWrite m (viaOf m) .PRT_LINK_CMD n 0 (fun _ c => linkCmd m 1 n c)))

def execTakeDown (m n : Nat) (s : State) : Host.Outcome State Fault Refusal :=
  .next (s.onChip (fun c => c.withWrite m (viaOf m) .PRT_LINK_CMD n 0 (fun _ c => linkCmd m 2 n c)))

def execRetrain (m n : Nat) (s : State) : Host.Outcome State Fault Refusal :=
  .next (s.onChip (fun c => c.withWrite m (viaOf m) .PRT_LINK_CMD n 0 (fun _ c => linkCmd m 3 n c)))

def execRxSignalDetect (n : Nat) (s : State) : Host.Outcome State Fault Refusal := .next (s.onChip (rxSignalDetect n))

def execClockRecovered (n : Nat) (s : State) : Host.Outcome State Fault Refusal := .next (s.onChip (clockRecovered n))

def execAnComplete (n : Nat) (fullDuplex : Bool) (s : State) : Host.Outcome State Fault Refusal :=
  .next (s.onChip (anComplete n fullDuplex))

def execLinkUp (n : Nat) (s : State) : Host.Outcome State Fault Refusal := .next (s.onChip (linkUp n))

def execLockLost (n : Nat) (dark : Bool) (s : State) : Host.Outcome State Fault Refusal := .next (s.onChip (lockLost n dark))

def execIntlkOpen (s : State) : Host.Outcome State Fault Refusal := .next (intlkOpenStep s)

def execIntlkClosed (s : State) : Host.Outcome State Fault Refusal := .next (s.onChip intlkClosed)

def execSourceDegraded (e k bias : Nat) (s : State) : Host.Outcome State Fault Refusal :=
  .next (s.onChip (sourceDegraded e k bias))

def execSourceFailed (e k : Nat) (s : State) : Host.Outcome State Fault Refusal := .next (s.onChip (sourceFailed e k))

def execSwap (m e slot : Nat) (s : State) : Host.Outcome State Fault Refusal :=
  .next (s.onChip (fun c => c.withWrite m (viaOf m) .OPT_SPARE_CMD e 0 (fun kg c =>
    if kg then spareCmd m 1 e slot c else c.kgRefuse m .OPT_SPARE_CMD e 0)))

def execSwapSpareReady (e : Nat) (s : State) : Host.Outcome State Fault Refusal := .next (s.onChip (swapSpareReady e))

def execSwapSwitchDone (e : Nat) (s : State) : Host.Outcome State Fault Refusal := .next (s.onChip (swapSwitchDone e))

def execSwapComplete (e : Nat) (s : State) : Host.Outcome State Fault Refusal := .next (swapCompleteStep e s)

def execErrBudgetWindow (n : Nat) (s : State) : Host.Outcome State Fault Refusal := .next (s.onChip (errBudgetWindow n))

def execErrBudgetWrite (m n : Nat) (v : Word) (s : State) : Host.Outcome State Fault Refusal :=
  .next (s.onChip (fun c => c.withWrite m (viaOf m) .PRT_ERR_BUDGET n 0 (fun _ c => errBudgetWrite m n v.toNat c)))

def execPmacVerify (n : Nat) (response : Bool) (s : State) : Host.Outcome State Fault Refusal :=
  .next (s.onChip (pmacVerify n response))

def execMacsecCipherWrite (m n : Nat) (v : Word) (s : State) : Host.Outcome State Fault Refusal :=
  .next (s.onChip (fun c => c.withWrite m (viaOf m) .PRT_MACSEC_CTRL n 0 (fun kg c => macsecCtrlWrite m kg n v.toNat c)))

end Sys2Proof.Machine
end

