-- ==== Sys2Proof/Machine/Receive.lean ====
section
/-! DEFINITION. Stages 1 to 4 (R138 to R140, R145): a frame enters the vestibule of its port, and ends under the checks of
stage 2, MACsec and the rules that wait for its length. -/

namespace Sys2Proof.Machine

/-! ## The start of a frame -/

/-- Calibration row that holds the path latency of a port type (R397). -/
def latencyRow (r : PortRt) : Nat := 128 + (if r.rate = 2 ∧ r.fec = 1 then 6 else r.rate)

/-- The ingress timestamp of a frame that starts now (R85, R86), in 2^-48 ns. -/
def Chip.ingressStamp (c : Chip) (n : Nat) : Nat :=
  let q : Int := (c.tim.devT / 2 ^ 46 : Nat) + signed 16 (bits 31 16 (c.fuse (latencyRow (c.port n)))) +
    signed 16 (c.get Fd.TIM_PORT_LAT_RX_ADJ n 0)
  q.toNat * 2 ^ 46

/-- A frame record at its start: what its ingress timestamp `t` binds for its deadline with it (R262 to R264). -/
def Chip.newRx (c : Chip) (n t : Nat) (wire data : List Nat) : Frame :=
  { port := n, wire := wire, data := data, devT := t, epoch := c.epoch, accIn := c.accAt t, freqIn := c.cyc.freq, ended := false, bad := false, arrived := 0,
    handed := false, staged := false, pipe := 0, hdr := none, hall := 0, charged := 0, cells := [], refs := 0,
    marked := false, learn := none, tsReq := none, ecc := [] }

/-- Port `n` receives: its link is UP, or SPARING, where receive is not interrupted (R128). -/
def Chip.receives (c : Chip) (n : Nat) : Bool :=
  decide (n < 96) && c.running && !c.imageOff && decide (c.link n = lUP ∨ c.link n = lSPARING)

/-- A frame dropped at the vestibule (R36, R140). -/
def Chip.vestDrop (c : Chip) (n : Nat) : Chip :=
  (c.cntOvf Fd.PRT_VEST_DROP_COUNT Fd.PRT_VEST_DROP_OVF n 0 1).discard1

/-- A frame may start on port `n`: none arrives, or an express frame interrupts a preemptable one (R146). -/
def Chip.mayStart (c : Chip) (n : Nat) : Bool :=
  (c.port n).rx.isNone || (c.flag Fd.PRT_PMAC_CTRL_EN n 0 && (c.port n).rxHeld.isNone)

/-- RX_FRAME_START: `data` from the destination address to the last byte before the FCS. -/
def rxFrameStart (n : Nat) (data : List Byte) (c : Chip) : Chip :=
  let r := c.port n
  if !c.receives n || !c.mayStart n then c
  else if c.stopping 0 n then c.discard1
  else if r.remapping || decide (32768 < c.vestLevel n + c.maxLen n + 64) then c.vestDrop n
  else
    let wire := data.map (fun b => b.toNat)
    let x := c.newFrame (c.newRx n (c.ingressStamp n) wire (c.msReceive n wire).data)
    x.2.setPort n { r with vest := r.vest ++ [x.1], rx := some x.1, rxHeld := r.rx }

/-! ## The end of a frame -/

/-- The group-address filter blocks a destination (R139). -/
def Chip.filtered (c : Chip) (n : Nat) (d : List Nat) : Bool :=
  let da := daOf d
  if !isGroup da then false
  else if isBroadcast da then !c.flag Fd.PRT_MAC_CTRL_BCAST_EN n 0
  else if da / 16 = 0x0180C200000 then false
  else
    match c.get Fd.PRT_MAC_CTRL_GRP_FILTER n 0 with
    | 1 =>
      let b := (d.take 6).foldl (fun x y => x ^^^ y) 0
      !bitOf (c.get Fd.PRT_HASH_BINS n (b / 32)) (b % 32)
    | 2 => true
    | _ => false

/-- The first check of R138 that a frame fails: its counter. -/
def Chip.rxCheck (c : Chip) (n : Nat) (d : List Nat) (e : RxErr) : Option Nat :=
  firstFail [(e.pcs, 3), (e.fecUncorr, 5), (decide (d.length + 4 < 64), 1), (decide (c.maxLen n < d.length + 4), 2), (e.fcs, 0),
    (isGroup (saOf d), 10), (decide (beAt d 12 2 = 0x8808), 9), (c.filtered n d, 8)]

/-- The event of the error budget that a failed check is (R149): one of a frame, that of its first failing check (DEDUCED,
log 144). -/
def budgetBit (i : Nat) : Option Nat :=
  match i with
  | 0 => some 0
  | 3 => some 1
  | 5 => some 2
  | 1 => some 5
  | 2 => some 5
  | _ => none

/-- Count an accepted frame (R437, R440). -/
def Chip.countRx (c : Chip) (n : Nat) (f : Frame) : Chip :=
  let da := daOf f.wire
  let cast := if isBroadcast da then 4 else if isGroup da then 3 else 2
  (((((c.stat 0 n 0 1).stat 0 n 1 f.wireLen).stat 0 n cast 1).devCnt 0 1).devCnt 2 f.wireLen)

/-- What a cut-through frame's end settles of its stream (R181): a length above MAX_SDU, the rest of the octets that the gate
is charged. Answers whether the frame may stay. -/
def Chip.streamEnd (c : Chip) (f : Frame) : Bool × Chip :=
  match f.hdr with
  | none => (true, c)
  | some h =>
    if h.whole then (true, c)
    else
      let sdu := wb h.ent 14 14 0
      let c1 := match h.sgate with
        | some (g, first) =>
          let r : SGateRt := Sys2Proof.Machine.sgate c g
          if c.flag Fd.TBL_SGATE_CTRL_ENABLE g 0 then setSgate c g { r with octets := r.octets + (f.len - first) } else c
        | none => c
      if h.discard6 = false ∧ sdu ≠ 0 ∧ sdu < f.len then (false, match h.stream with
        | some x => c1.streamCnt x 1 1
        | none => c1)
      else (true, c1)

/-- A frame that passed every check has ended: its length is known, its learn may be queued, its vestibule space returns. -/
def Chip.acceptRx (c : Chip) (n fid : Nat) (f : Frame) : Chip :=
  let f1 := { f with ended := true, arrived := f.wireLen, learn := none }
  let c1 := (c.setFrame fid f1).countRx n f
  let s := c1.streamEnd f1
  if !s.1 then s.2.failFrame fid
  else
    let c2 := (s.2.settleLen fid)
    let c3 := match f.learn with
      | none => c2
      | some l => c2.queueLearn f.pipe l
    c3.settleVest fid

/-- The received bytes of frame `fid` of port `n` are in the vestibule, whether it passes its checks or not: PEAK sees them
(R140). -/
def Chip.vestFill (c : Chip) (n fid : Nat) (f : Frame) : Chip := (c.setFrame fid { f with arrived := f.wireLen }).vestPeak n

/-- RX_FRAME_END: the checks of stage 2 in their order, then the verdict of MACsec. A frame that it interrupted goes on. -/
def rxFrameEnd (n : Nat) (e : RxErr) (c : Chip) : Chip :=
  match (c.port n).rx with
  | none => c
  | some fid =>
    match c.frame fid with
    | none => c
    | some f =>
      let c0 := ((c.vestFill n fid f).setPort n { c.port n with rx := (c.port n).rxHeld, rxHeld := none }).rxCnt n 4 e.fecCorr
      match c0.rxCheck n f.wire e with
      | some i =>
        let c1 := (c0.rxCnt n i 1).failFrame fid
        match budgetBit i with
        | some b => c1.budgetEvent n b
        | none => c1
      | none =>
        let ms := c0.msReceive n f.wire
        let c1 := if ms.icv then c0.rxCnt n 7 1 else c0
        let c2 := if !ms.pass || f.bad then c1.failFrame fid else (c1.msAdvance n ms).acceptRx n fid f
        if ms.icv then c2.budgetEvent n 4 else c2

/-! ## Execution -/

def execRxFrameStart (n : Nat) (data : List Byte) (s : State) : Host.Outcome State Fault Refusal :=
  .next (s.onChip (rxFrameStart n data))

def execRxFrameEnd (n : Nat) (e : RxErr) (s : State) : Host.Outcome State Fault Refusal := .next (s.onChip (rxFrameEnd n e))

end Sys2Proof.Machine
end

