-- ==== Sys2Proof/Machine/Edits.lean ====
section
/-! DEFINITION. Stages 11 to 13 (R87 to R90, R97, R237, R239, R245, R272, R273, R302, R310, R311): the bytes that a copy leaves
with, its length as the scheduler knows it, and its egress timestamp. -/

namespace Sys2Proof.Machine

/-! ## Splices -/

/-- One splice: at an offset of the frame, bytes removed and bytes put in their place. -/
structure Splice where
  at_ : Nat
  cut : Nat
  put : List Nat

/-- Apply splices, given with the offsets of the frame before any of them; at one offset the first in the list comes first. -/
def splice (d : List Nat) (es : List Splice) : List Nat :=
  let ins (i : Nat) : List Nat := (es.filter (fun e => decide (e.at_ = i))).flatMap (fun e => e.put)
  (d.zipIdx.flatMap (fun (x : Nat × Nat) =>
    ins x.2 ++ (if es.any (fun e => decide (e.at_ ≤ x.2 ∧ x.2 < e.at_ + e.cut)) then [] else [x.1]))) ++ ins d.length

/-- Zeros up to `n` bytes. -/
def padTo (n : Nat) (d : List Nat) : List Nat := d ++ List.replicate (n - d.length) 0

/-! ## Encodings (R237, R245, R310) -/

/-- The 16 bytes of a gallery tag. -/
def galTagBytes (etype : Nat) (g : GalTag) : List Nat :=
  beBytes 2 etype ++ [16 + g.typ % 16, g.cls * 32 + g.colour % 4 * 8 + b2n g.mcast * 4 + b2n g.noLearn * 2 + b2n g.warm,
    g.hops % 16 * 16] ++ beBytes 3 g.src ++ beBytes 3 g.dst ++ [0] ++ beBytes 2 g.flow ++ beBytes 2 g.seq

/-- An HSR tag with its Ethertype, for a frame that is `len` bytes long with it, FCS included, under `vlans` VLAN tags. -/
def hsrTagBytes (path len vlans seq : Nat) : List Nat :=
  beBytes 2 0x892F ++ beBytes 2 (path % 16 * 4096 + (len - 18 - 4 * vlans) % 4096) ++ beBytes 2 seq

/-- A PRP trailer for a frame that is `len` bytes long with it, FCS included. -/
def prpTrailerBytes (lan len vlans seq : Nat) : List Nat :=
  beBytes 2 seq ++ beBytes 2 (lan % 16 * 4096 + (len - 16 - 4 * vlans) % 4096) ++ beBytes 2 0x88FB

/-- An R-TAG. -/
def rTagBytes (seq : Nat) : List Nat := beBytes 2 0xF1C1 ++ [0, 0] ++ beBytes 2 seq

/-- What the edit takes out of and changes within the frame, the HSR tag or R-TAG that it adds left aside. -/
def Chip.baseSplices (c : Chip) (e : Edit) (h : Hdr) (d : List Nat) : List Splice :=
  let at6 (b : Bool) (o : Option Nat) : List Splice := match o with
    | some x => if b then [{ at_ := x - 2, cut := 6, put := [] }] else []
    | none => []
  let ring : List Splice := match e.ring, h.stacked 4 with
    | some p, some o => [{ at_ := o, cut := 1, put := [p % 16 * 16 + d.getD o 0 % 16] }]
    | _, _ => []
  (match e.gal with
   | some g => [{ at_ := 12, cut := 0, put := galTagBytes c.galEtype g }]
   | none => []) ++
  (if e.rmGal then [{ at_ := 12, cut := 16, put := [] }] else []) ++
  (if e.hop then [{ at_ := 16, cut := 1, put := [(d.getD 16 0 / 16 - 1) * 16 + d.getD 16 0 % 16] }] else []) ++
  at6 e.rmHsr (h.stacked 4) ++
  at6 (e.rmR && decide (c.get Fd.RED_CB_CTRL_RTAG_HDR_ID 0 0 ≠ 0)) (h.stacked (c.get Fd.RED_CB_CTRL_RTAG_HDR_ID 0 0)) ++ ring ++
  (if e.rmPrp then [{ at_ := d.length - 6, cut := 6, put := [] }] else [])

/-- Where an HSR tag or R-TAG goes: after the last VLAN tag of level 0, else after the source address and a gallery tag that
stays. -/
def tagPlace (e : Edit) (h : Hdr) (gal : Bool) : Nat :=
  match h.vlanOffs.getLast? with
  | some o => o + 2
  | none => if gal && !e.rmGal then 28 else 12

/-- The DEI of the outermost VLAN tag of level 0 is set (R302; the first of several: DEDUCED, log 31). -/
def deiSplice (h : Hdr) (d : List Nat) : List Splice :=
  match h.vlanOffs.head? with
  | some o => if bitOf (d.getD o 0) 4 then [] else [{ at_ := o, cut := 1, put := [d.getD o 0 + 16] }]
  | none => []

/-- The bytes of a copy after stage 11, padded to 64 with its FCS, `dei` when its tag is to be marked. -/
def Chip.editBytes (c : Chip) (e : Edit) (h : Hdr) (d : List Nat) (dei : Bool) : List Nat :=
  let base := c.baseSplices e h d ++ (if dei then deiSplice h d else [])
  let vlans := h.vlanOffs.length
  let gal := decide (beAt d 12 2 = c.galEtype) && (h.stacked 5).isSome
  let put (bs : List Nat) : List Nat := splice d (base ++ [{ at_ := tagPlace e h gal, cut := 0, put := bs }])
  match e.add with
  | none => padTo 60 (splice d base)
  | some (0, _, seq) => padTo 60 (put (rTagBytes seq))
  | some (1, path, seq) =>
    let len := max 64 ((splice d base).length + 6 + 4)
    padTo 60 (put (hsrTagBytes path len vlans seq))
  | some (_, lan, seq) =>
    let p := padTo 54 (splice d base)
    p ++ prpTrailerBytes lan (p.length + 10) vlans seq

/-- Bytes that the edit adds to (or takes off) the frame, padding aside. -/
def Chip.editDelta (c : Chip) (e : Edit) (h : Hdr) (d : List Nat) : Int :=
  ((splice d (c.baseSplices e h d)).length : Int) - d.length + (if e.add.isSome then 6 else 0)

/-! ## Precision time (R87 to R90, R97) -/

/-- The egress timestamp of a copy that starts now on port `n`, in 2^-48 ns (R85, R86). -/
def Chip.egressStamp (c : Chip) (n : Nat) : Nat :=
  let q : Int := (c.tim.devT / 2 ^ 46 : Nat) + signed 16 (bits 15 0 (c.fuse (latencyRow (c.port n)))) +
    signed 16 (c.get Fd.TIM_PORT_LAT_TX_ADJ n 0)
  q.toNat * 2 ^ 46

/-- A PTP event message within a frame: its offset and messageType. -/
def ptpEvent (h : Hdr) (d : List Nat) : Option (Nat × Nat) :=
  match h.ptpOff with
  | none => none
  | some o => let t := d.getD o 0 % 16; if t < 4 then some (o, t) else none

/-- The messages that TC_MODE corrects (R88). -/
def tcCorrects (mode t : Nat) : Bool := decide (mode = 1 ∨ (mode = 2 ∧ t = 0))

/-- The residence-time correction of a forwarded copy from port `f.port` to port `n` with egress timestamp `ts`: the frame's
bytes with it, and whether PTP over UDP/IPv6 was skipped. A copy counts as skipped, and gets the UDP checksum 0, only when it
would be corrected but for its transport: mode, TC_EN of both ports, domain and sdoId admitted (DEDUCED, log 138). -/
def Chip.tcCorrect (c : Chip) (n ts : Nat) (f : Frame) (h : Hdr) : List Nat × Bool :=
  let d := f.data
  let mode := c.get Fd.TIM_CTRL_TC_MODE 0 0
  match ptpEvent h d with
  | none => (d, false)
  | some (o, t) =>
    let dom := d.getD (o + 4) 0
    let on := f.port < 96 ∧ c.flag Fd.TIM_PORT_CTRL_TC_EN f.port 0 ∧ c.flag Fd.TIM_PORT_CTRL_TC_EN n 0 ∧
      tcCorrects mode t ∧ d.getD o 0 / 16 ≠ 1 ∧ bitOf (c.get Fd.TIM_TC_DOM_MAP (dom / 32) 0) (dom % 32)
    let et := beAt h.pv 6 2
    if !decide on then (d, false)
    else if et = 0x86DD then (d, true)
    else if et = 0x88F7 ∨ (et = 0x0800 ∧ c.flag Fd.TIM_CTRL_TC_IPV4 0 0) then
      let add : Int := ((ts : Int) - f.devT) / 2 ^ 32 +
        (if mode = 2 then (c.get Fd.TIM_PORT_LINK_DELAY_NS f.port 0 : Nat) * 65536 else 0)
      let corr := unsigned 64 ((beAt d (o + 8) 8 : Nat) + add)
      let d1 := putBytes d (o + 8) (beBytes 8 corr)
      (if et = 0x0800 then putBytes d1 (o - 2) [0, 0] else d1, false)
    else (d, false)

/-- The timestamp that a copy leaves in its port's queue: its hall, source and identifier (R97). -/
def Chip.tsWanted (c : Chip) (n : Nat) (x : Copy) (f : Frame) : Option (Nat × Nat × Nat) :=
  if x.kind ≠ 0 then none
  else
    match f.tsReq with
    | some r => some (r.1, 0, r.2)
    | none =>
      if f.port < 96 ∧ c.flag Fd.TIM_PORT_CTRL_TS_FWD n 0 then
        (f.hdr.bind (fun h => ptpEvent h f.data)).map (fun e => (f.hall, 1, beAt f.data (e.1 + 30) 2))
      else none

/-! ## Session copies (R272, R273) -/

/-- Bytes that SNAP keeps. -/
def snapLen (code len : Nat) : Nat := match code with
  | 0 => len
  | 1 => min len 64
  | 2 => min len 128
  | _ => min len 256

/-- The sampled-record header of a session copy, with POOL and LOST as its candidate bound them (R273); the record counts as SAMPLED. -/
def Chip.recordHeader (c : Chip) (x : Copy) (f : Frame) : List Nat × Chip :=
  let i := x.sess - 1
  let src := c.get Fd.ATR_MIR_CTRL_SRC i 0
  let cut := decide (snapLen (c.get Fd.ATR_MIR_CTRL_SNAP i 0) f.wire.length < f.wire.length)
  let ns := f.devT / 2 ^ 48
  let hd := [1, 32, x.sess * 16 + src, b2n cut * 128 + b2n (decide (src = 2)) * 64 + f.epoch] ++ beBytes 2 f.wireLen ++
    beBytes 2 ((f.hdr.bind (fun h => h.stream)).getD 0xFFFF) ++ [f.port, x.out, f.cls * 32 + x.colour % 4 * 8, f.hall] ++
    beBytes 6 (ns / 10 ^ 9) ++ beBytes 4 (ns % 10 ^ 9) ++ beBytes 2 (f.devT % 2 ^ 48 / 2 ^ 46 * 2 ^ 14) ++ beBytes 4 x.pool ++ beBytes 4 x.lost
  (hd, c.cntSat Fd.ATR_MIR_SAMPLED_SAMPLED i 0 1)

/-- The encapsulation of ATR_MIR_ENCAP: 14 bytes. -/
def Chip.mirEncap (c : Chip) : List Nat :=
  ((List.range 4).flatMap (fun w => beBytes 4 (c.get Fd.ATR_MIR_ENCAP_DATA w 0))).take 14

/-- A session copy to a port. -/
def Chip.sessionBytes (c : Chip) (x : Copy) (f : Frame) : List Nat × Chip :=
  let i := x.sess - 1
  let body := f.wire.take (snapLen (c.get Fd.ATR_MIR_CTRL_SNAP i 0) f.wire.length)
  let hd := c.recordHeader x f
  if c.flag Fd.ATR_MIR_CTRL_HDR i 0 then (padTo 60 (c.mirEncap ++ hd.1 ++ body), hd.2) else (padTo 60 body, hd.2)

/-- Length of a session copy with its FCS, MACsec aside. -/
def Chip.sessionLen (c : Chip) (x : Copy) (f : Frame) : Nat :=
  let i := x.sess - 1
  max 64 (snapLen (c.get Fd.ATR_MIR_CTRL_SNAP i 0) f.wire.length + (if c.flag Fd.ATR_MIR_CTRL_HDR i 0 then 46 else 0) + 4)

/-! ## Lengths (R288) -/

/-- A copy's length is known at selection: its frame has ended, or its header named it. -/
def Frame.lenKnown (f : Frame) : Bool := f.ended || ((f.hdr.map (fun h => h.lenKnown)).getD false)

/-- L_eff of a copy in leaf queue `q` of port `n`. -/
def Chip.lEff (c : Chip) (n q : Nat) (x : Copy) : Nat :=
  match c.frame x.fid with
  | none => 64
  | some f =>
    let exp := c.msExpansion n f.data
    if x.kind = 2 then c.sessionLen x f + exp
    else
      let base := if f.ended then f.len
        else if f.lenKnown then (f.hdr.map (fun h => h.dlen)).getD f.len
        else max 64 (min 16384 (c.get Fd.SCH_Q_CFG_MAX_LEN n q))
      let delta := match f.hdr with
        | some h => c.editDelta x.edit h f.data
        | none => 0
      max 64 ((base : Int) + delta).toNat + exp

/-- What leaves the port: the bytes after stages 11 and 12, `none` when MACsec discards the copy; the timestamp. -/
def Chip.egressBytes (c : Chip) (n : Nat) (x : Copy) (f : Frame) : Option (List Nat) × Nat × Chip :=
  let ts := c.egressStamp n
  let plain : List Nat × Chip :=
    if x.kind = 2 then c.sessionBytes x f
    else
      match f.hdr with
      | none => (padTo 60 f.data, c)
      | some h =>
        let t := c.tcCorrect n ts f h
        let c1 := if t.2 then c.stat 0 n 12 1 else c
        (c1.editBytes x.edit h t.1 (c1.flag Fd.SCH_PORT_CFG_DEI_MARK n 0 && decide (x.colour = cYELLOW)), c1)
  let e := plain.2.msTransmit n plain.1
  (e.1, ts, e.2)

end Sys2Proof.Machine
end

