-- ==== Sys2Proof/Machine/Reseq.lean ====
section
/-! DEFINITION. Stage 10's two checks of a selected descriptor before it is sent: its deadline (R266, R299), with the sweeper
(R267), and the resequencer (R33, R275 to R278, R326). -/

namespace Sys2Proof.Machine

/-! ## Ageing -/

/-- The time that `len` bytes with preamble take on port `n` fits in `d` (2^-48 ns). -/
def Chip.wireFits (c : Chip) (n len d : Nat) : Bool := decide ((len + 8) * 8000 * 2 ^ 48 ≤ d * c.portMbps n)

/-- The service that leaf queue `q` of port `n` feeds. -/
def Chip.qBay (c : Chip) (n q : Nat) : Nat := c.get Fd.SCH_Q_CFG_BAY n q
def Chip.qSvc (c : Chip) (n q : Nat) : Nat := c.get Fd.SCH_BAY_CFG_SVC n (c.qBay n q)

/-- No open interval of the copy's service could carry it (R299). -/
def Chip.neverFits (c : Chip) (n q : Nat) (x : Copy) : Bool :=
  !c.pmacActive n && (match c.longestOpen n (c.qSvc n q) with
    | none => false
    | some d => !c.wireFits n (c.lEff n q x) d)

/-- An expired descriptor of leaf queue `q` of port `n` is discarded; it has left its queue. -/
def Chip.ageCopy (c : Chip) (n q point : Nat) (x : Copy) : Chip :=
  let f := c.frame x.fid
  let c1 := if c.neverFits n q x then c.cntSat Fd.SCH_GCL_ERR_NEVER_FITS n 0 1 else c
  ((c1.aged x.cls ((f.map (fun f => f.hall)).getD 0) point (f.bind (fun f => f.hdr)) (some (n, q))).dropCopy n x)

/-- A descriptor whose frame a bank retirement has marked (R252). -/
def Chip.isMarked (c : Chip) (x : Copy) : Bool := ((c.frame x.fid).map (fun f => f.marked)).getD false

/-- A descriptor that leaves its queue unsent: its frame is marked (R252), or its deadline has passed. -/
def Chip.stale (c : Chip) (x : Copy) : Bool := c.isMarked x || c.dlPassed x.dl

/-- Discard such a descriptor of leaf queue `q` of port `n`, which has left its queue; `point` counts an aged one. -/
def Chip.dropStale (c : Chip) (n q point : Nat) (x : Copy) : Chip :=
  if c.isMarked x then (c.atrCnt xRETIRE 1).dropCopy n x else c.ageCopy n q point x

/-- The sweeper visits one leaf queue. -/
def Chip.sweepQueue (c : Chip) (n q : Nat) : Chip :=
  let gone := (c.queue n q).takeWhile c.stale
  gone.foldl (fun c x => c.dropStale n q xAGEDSWEEP x)
    (if gone.isEmpty then c else c.setQueue n q ((c.queue n q).drop gone.length))

/-- The sweeper visits one context. -/
def Chip.sweepContext (c : Chip) (r : Rsq) : Chip :=
  let gone := r.held.takeWhile (fun h => c.stale h.copy)
  let c1 : Chip := { c with atr := { c.atr with rsq := c.atr.rsq.map (fun y =>
    if y.id = r.id then y.keepHeld c.tim.clk (fun h => decide (h ∉ gone)) else y) } }
  gone.foldl (fun c h => c.dropStale h.port h.q xAGEDSWEEP h.copy) c1

/-- ATRIUM_SWEEP_PASS: a pass visits every leaf queue and every context, and the host queues, whose copies age as the others do
(R354; DEDUCED, log 151); one that falls into a running pass is skipped. -/
def atriumSweepPass (c : Chip) : Chip :=
  if !c.flag Fd.ATR_AGE_CTRL_SWEEP_EN 0 0 || c.atr.sweeping || !c.running then c
  else
    let c1 : Chip := { c with atr := { c.atr with sweeping := true } }
    let c2 := (c1.atr.queues.map (fun e => e.1)).foldl (fun c k => c.sweepQueue k.1 k.2) c1
    c2.atr.rsq.foldl (fun c r => c.sweepContext r) c2

/-- ATRIUM_SWEEP_DONE. -/
def atriumSweepDone (c : Chip) : Chip := { c with atr := { c.atr with sweeping := false } }

/-! ## The resequencer -/

def Chip.rsqHeld (c : Chip) : Nat := (c.atr.rsq.map (fun r => r.held.length)).foldl (· + ·) 0
def Chip.putRsq (c : Chip) (r : Rsq) : Chip :=
  { c with atr := { c.atr with rsq := c.atr.rsq.map (fun y => if y.id = r.id then r else y) } }
def Chip.delRsq (c : Chip) (id : Nat) : Chip := { c with atr := { c.atr with rsq := c.atr.rsq.filter (fun y => decide (y.id ≠ id)) } }
def Chip.newRsq (c : Chip) (r : Rsq) : Chip :=
  { c with atr := { c.atr with rsq := c.atr.rsq ++ [{ r with id := c.atr.nextRsq }], nextRsq := c.atr.nextRsq + 1 } }

/-- Held descriptors go back to the heads of their leaf queues, in the order given. -/
def Chip.giveBack (c : Chip) (hs : List Held) : Chip :=
  hs.reverse.foldl (fun c h => c.setQueue h.port h.q ({ h.copy with seqDone := true } :: c.queue h.port h.q)) c

/-- Held descriptors in the order of their distance from `e`. -/
def seqOrder (e : Nat) (hs : List Held) : List Held :=
  hs.foldl (fun l h => (l.takeWhile (fun x => decide ((x.seq + 65536 - e) % 65536 ≤ (h.seq + 65536 - e) % 65536))) ++ [h] ++
    (l.dropWhile (fun x => decide ((x.seq + 65536 - e) % 65536 ≤ (h.seq + 65536 - e) % 65536)))) []

/-- The run of held sequences from `e` on: those returned, and the sequence after them. -/
def seqRun : Nat → List Held → List Held × Nat
  | e, [] => ([], e)
  | e, h :: l => if h.seq % 65536 = e % 65536 then let r := seqRun ((e + 1) % 65536) l; (h :: r.1, r.2) else ([], e)

/-- A context's expected sequence becomes `e`; what follows on from it returns. -/
def Chip.rsqAdvance (c : Chip) (r : Rsq) (e : Nat) : Chip :=
  let run := seqRun e (seqOrder e r.held)
  (c.putRsq { r.keepHeld c.tim.clk (fun h => decide (h ∉ run.1)) with expect := run.2 }).giveBack run.1

/-- The context of port `n`'s live moves. -/
def Chip.moveOf (c : Chip) (n : Nat) : Option Rsq := c.atr.rsq.find? (fun r => decide (r.move = some n))

/-- Frame `fid` came by port `n` and a former pipeline parsed it, before move `g` (R33, R275). -/
def Chip.older (c : Chip) (n g fid : Nat) : Bool :=
  match c.frame fid with
  | none => false
  | some f => decide (f.port = n ∧ f.gen < g)

/-- A descriptor is OLD for those of move `g` of port `n`. -/
def Chip.isOld (c : Chip) (n g : Nat) (x : Copy) : Bool := c.older n g x.fid

/-- A former pipeline has headers of port `n` before stage 8. -/
def Chip.oldInPipe (c : Chip) (n g : Nat) : Bool := (List.range 4).any (fun p => (c.pipe p).buf.any (c.older n g))

/-- The moves of its port that a diverted descriptor's frame came after. -/
def Chip.heldGen (c : Chip) (h : Held) : Nat := ((c.frame h.copy.fid).map (fun f => f.gen)).getD 0

/-- A descriptor diverted in the context `r` of port `n` may return to its leaf queue (R275). -/
def Chip.mayReturn (c : Chip) (r : Rsq) (n : Nat) (h : Held) : Bool :=
  let g := c.heldGen h
  !c.oldInPipe n g && !(c.queue h.port h.q).any (c.isOld n g) &&
    !r.held.any (fun y => decide (y.port = h.port ∧ y.q = h.q) && c.isOld n g y.copy)

/-- MOVE_PENDING clears when no OLD descriptor of the port is left and no NEW one is diverted (R275). -/
def Chip.moveEnd (c : Chip) (n : Nat) : Chip :=
  match c.moveOf n with
  | none => c
  | some r =>
    let g := (c.port n).moves
    let old := c.oldInPipe n g || c.atr.queues.any (fun e => e.2.any (c.isOld n g)) ||
      c.atr.rsq.any (fun y => y.held.any (fun h => c.isOld n g h.copy))
    if old || !r.held.isEmpty then c else (c.delRsq r.id).set Fd.GLB_PORT_PIPE_MOVE_PENDING n 0 0

/-- RSQ_RETURN: the diverted descriptors of port `n`'s move return to each leaf queue that holds no OLD one, once the former
pipelines have passed their last header. -/
def rsqReturn (n : Nat) (c : Chip) : Chip :=
  match c.moveOf n with
  | none => c
  | some r =>
    let back := r.held.filter (c.mayReturn r n)
    ((c.putRsq (r.keepHeld c.tim.clk (fun h => !c.mayReturn r n h))).giveBack back).moveEnd n

/-- The oldest generation that `r` holds of queue `q` of port `p`. -/
def Chip.leastGen (c : Chip) (r : Rsq) (p q : Nat) : Nat :=
  match (r.held.filter (fun h => decide (h.port = p ∧ h.q = q))).map c.heldGen with
  | [] => 0
  | g :: gs => gs.foldl min g

/-- The timeout of a move (R33, R277): the OLD descriptors still in the leaf queues of the diverted ones are discarded, the
diverted ones return, those of the earliest move first, and with the last of them MOVE_PENDING clears. -/
def Chip.moveExpire (c : Chip) (r : Rsq) (n : Nat) : Chip :=
  let c1 := ((r.held.map (fun h => (h.port, h.q))).eraseDups).foldl (fun c k =>
    let g := c.leastGen r k.1 k.2
    let old := (c.queue k.1 k.2).filter (c.isOld n g)
    old.foldl (fun c x => c.dropCopy k.1 x)
      ((c.setQueue k.1 k.2 ((c.queue k.1 k.2).filter (fun x => !c.isOld n g x))).rsqLate old.length)) c
  let first (h : Held) : Bool := decide (c.heldGen h = c.leastGen r h.port h.q)
  let back := r.held.filter first
  if back.length = r.held.length then ((c1.delRsq r.id).giveBack back).set Fd.GLB_PORT_PIPE_MOVE_PENDING n 0 0
  else (c1.putRsq (r.keepHeld c.tim.clk (fun h => !first h))).giveBack back

/-- The timeout's action on a context (R277), also when the store is full (R278). -/
def Chip.rsqExpire (c : Chip) (r : Rsq) : Chip :=
  match r.move with
  | some n => if r.held.isEmpty then c.moveEnd n else c.moveExpire r n
  | none =>
    match seqOrder r.expect r.held with
    | [] => c
    | h :: _ => ((c.rsqSkip ((h.seq + 65536 - r.expect) % 65536)).atrCnt xRSQTIMEOUT 1).rsqAdvance r h.seq

/-- RSQ_TIMEOUT of context `x`: its oldest descriptor has been held for TIMEOUT_US. -/
def rsqTimeout (x : Nat) (c : Chip) : Chip :=
  match c.atr.rsq.find? (fun r => decide (r.id = x)) with
  | none => c
  | some r =>
    let t := 1000 * max 1 (c.get Fd.ATR_RSQ_CTRL_TIMEOUT_US 0 0)
    if r.held.any (fun h => decide (h.since + t ≤ c.tim.clk)) then c.rsqExpire r else c

/-- RSQ_CONTEXT_FREE: a context that has held nothing and seen no frame for 1 ms. -/
def rsqContextFree (x : Nat) (c : Chip) : Chip :=
  match c.atr.rsq.find? (fun r => decide (r.id = x)) with
  | none => c
  | some r => if r.held.isEmpty ∧ r.move.isNone ∧ max r.last r.heldAt + 1000000 ≤ c.tim.clk then c.delRsq x else c

/-- The context that holds the oldest descriptor. -/
def Chip.rsqOldest (c : Chip) : Option Rsq :=
  let age (r : Rsq) : Nat := (r.held.map (fun h => h.since)).foldl min (2 ^ 64)
  (c.atr.rsq.filter (fun r => !r.held.isEmpty)).foldl (fun (o : Option Rsq) r => match o with
    | none => some r
    | some y => if age r < age y then some r else o) none

/-- Descriptor `x` stands at the head of leaf queue (n, q). -/
def Chip.keepHead (c : Chip) (n q : Nat) (x : Copy) : Chip := c.setQueue n q (x :: c.queue n q)

/-- Divert `x`, which has left the head of leaf queue (n, q), into context `id`. With a full store the context that holds the
oldest descriptor advances instead, and `x`, back in its place, is judged again. -/
def Chip.divert (c : Chip) (id n q seq : Nat) (x : Copy) : Chip :=
  if 4096 ≤ c.rsqHeld then
    match c.rsqOldest with
    | none => c.keepHead n q x
    | some r => ((c.keepHead n q x).rsqExpire r).atrCnt xRSQFULL 1
  else
    let h : Held := { seq := seq, since := c.tim.clk, port := n, q := q, copy := x }
    ({ c with atr := { c.atr with rsq := c.atr.rsq.map (fun (r : Rsq) =>
      if r.id = id then { r with held := r.held ++ [h], last := c.tim.clk } else r) } }).aevcPulse evDIVERT 1

/-- The gallery tag of a sprayed frame that this member delivers (R326). -/
def Chip.sprayTag (c : Chip) (x : Copy) : Option GalTag :=
  match c.frame x.fid with
  | none => none
  | some f =>
    if x.kind = 0 ∧ x.edit.rmGal then
      (readGalTag c.galEtype f.data).bind (fun e => if e.2.typ = 1 ∧ !e.2.mcast then some e.2 else none)
    else none

/-- What the resequencer does with the selected head of leaf queue (n, q): it goes on to be sent, or it has left its queue. -/
def Chip.resequence (c : Chip) (n q : Nat) (x : Copy) (rest : List Copy) : Bool × Chip :=
  if x.seqDone then (true, c)
  else
    match (c.frame x.fid).bind (fun f => (c.moveOf f.port).map (fun r => (f, r))) with
    | some (f, r) =>
      let mine := r.held.filter (fun h => decide (h.port = n ∧ h.q = q))
      if mine.any (c.mayReturn r f.port) then (false, rsqReturn f.port c)
      else if c.oldInPipe f.port f.gen || rest.any (c.isOld f.port f.gen) || mine.any (fun h => decide (c.heldGen h ≤ f.gen)) then
        (false, (c.setQueue n q rest).divert r.id n q 0 x)
      else (true, c)
    | none =>
      match c.sprayTag x with
      | none => (true, c)
      | some g =>
        let src := g.src / 128
        match c.atr.rsq.find? (fun r => decide (r.move = none ∧ r.src = src ∧ r.flow = g.flow ∧ r.port = n)) with
        | none =>
          if 1024 ≤ c.atr.rsq.length then (true, c.atrCnt xNOCTX 1)
          else (true, c.newRsq { id := 0, move := none, src := src, flow := g.flow, port := n, expect := (g.seq + 1) % 65536,
                                 held := [], last := c.tim.clk })
        | some r0 =>
          let r := { r0 with last := c.tim.clk }
          let w := max 16 (min 255 (c.get Fd.ATR_RSQ_CTRL_WINDOW 0 0))
          let d : Int := signed 16 ((g.seq + 65536 - r.expect) % 65536)
          if d = 0 then (true, (((c.setQueue n q rest).putRsq r).rsqAdvance r ((g.seq + 1) % 65536)).keepHead n q x)
          else if 0 < d ∧ d < w then (false, ((c.putRsq r).setQueue n q rest).divert r.id n q g.seq x)
          else if 0 < d then
            let e := (g.seq + 65536 + 1 - w) % 65536
            let dist (s : Nat) : Nat := (s + 65536 - r.expect) % 65536
            let below := (seqOrder r.expect r.held).filter (fun h => decide (dist h.seq < dist e))
            let r1 := { r.keepHeld c.tim.clk (fun h => decide (h ∉ below)) with expect := e }
            let c1 := (((c.setQueue n q rest).putRsq r1).rsqSkip (dist e - below.length)).divert r.id n q g.seq x
            let c2 := match c1.atr.rsq.find? (fun y => decide (y.id = r.id)) with
              | some y => c1.rsqAdvance y y.expect
              | none => c1
            (false, c2.giveBack below)
          else if g.warm then
            let back := seqOrder r.expect r.held
            let r1 := { r.keepHeld c.tim.clk (fun _ => false) with expect := (g.seq + 1) % 65536 }
            (true, ((((c.setQueue n q rest).putRsq r1).atrCnt xRESTART back.length).giveBack back).keepHead n q x)
          else (false, ((c.setQueue n q rest).putRsq r).rsqLate 1 |>.dropCopy n x)

end Sys2Proof.Machine
end

