-- ==== Sys2Proof/Machine/Egress.lean ====
section
/-! DEFINITION. Stage 9 and the end of a transmission (R258, R280 to R293, R298 to R300): eligibility, the choice at the three
landings, deficit round robin, the credit shapers, what starting a copy does, fragments, and the flush commands (R303, R304). -/

namespace Sys2Proof.Machine

/-! ## Shapers (R290 to R293) -/

/-- A shaper block: level 0 the port, 1 a service, 2 a bay. -/
def Chip.shaped (c : Chip) (n lvl i : Nat) : Bool :=
  match lvl with
  | 0 => c.flag Fd.SCH_PORT_CFG_SHAPE_EN n 0
  | 1 => c.flag Fd.SCH_SVC_CFG_SHAPE_EN n i
  | _ => c.flag Fd.SCH_BAY_CFG_SHAPE_EN n i

def Chip.credit (c : Chip) (n lvl i : Nat) : Int := (c.port n).credit.get 0 lvl i
def Chip.setCredit (c : Chip) (n lvl i : Nat) (v : Int) : Chip :=
  c.setPort n { c.port n with credit := (c.port n).credit.put 0 lvl i v }

/-- A node allows selection: unshaped, or its credit is at least 0. -/
def Chip.shaperOk (c : Chip) (n lvl i : Nat) : Bool := !c.shaped n lvl i || decide (0 ≤ c.credit n lvl i)

/-- Charge every shaper on the path from bay to port. -/
def Chip.chargePath (c : Chip) (n svc bay bytes : Nat) : Chip :=
  [(2, bay), (1, svc), (0, 0)].foldl (fun c (k : Nat × Nat) =>
    if c.shaped n k.1 k.2 then c.setCredit n k.1 k.2 (c.credit n k.1 k.2 - (bytes : Int) * 10 ^ 6) else c) c

/-- A node holds a copy. -/
def Chip.nodeBusy (c : Chip) (n lvl i : Nat) : Bool :=
  (c.busyQueues n).any (fun q => match lvl with
    | 0 => true
    | 1 => decide (c.qSvc n q = i)
    | _ => decide (c.qBay n q = i))

def Chip.shapeRate (c : Chip) (n lvl i : Nat) : Nat :=
  max 1 (min 200000000 (match lvl with
    | 0 => c.get Fd.SCH_PORT_RATE_RATE_KBPS n 0
    | 1 => c.get Fd.SCH_SVC_RATE_RATE_KBPS n i
    | _ => c.get Fd.SCH_BAY_RATE_RATE_KBPS n i))

def Chip.shapeHi (c : Chip) (n lvl i : Nat) : Nat :=
  max 64 (match lvl with
    | 0 => c.get Fd.SCH_PORT_HI_HI_CREDIT n 0
    | 1 => c.get Fd.SCH_SVC_HI_HI_CREDIT n i
    | _ => c.get Fd.SCH_BAY_HI_HI_CREDIT n i)

/-- One node refills (R291). -/
def Chip.refillNode (c : Chip) (n lvl i : Nat) : Chip :=
  if lvl = 1 ∧ !bitOf (c.gatesNow n) i then c
  else
    let inc : Int := 8 * c.shapeRate n lvl i
    let v := c.credit n lvl i
    c.setCredit n lvl i (
      if c.nodeBusy n lvl i then min (v + inc) ((c.shapeHi n lvl i : Int) * 10 ^ 6)
      else if v < 0 then min (v + inc) 0 else 0)

/-- The shapers in force: port, level and index. -/
def Chip.shapers (c : Chip) : List (Nat × Nat × Nat) :=
  c.fld.filterMap (fun e =>
    if e.2 = 0 then none
    else if e.1.f = Fd.SCH_PORT_CFG_SHAPE_EN then some (e.1.i, 0, 0)
    else if e.1.f = Fd.SCH_SVC_CFG_SHAPE_EN then some (e.1.i, 1, e.1.j)
    else if e.1.f = Fd.SCH_BAY_CFG_SHAPE_EN then some (e.1.i, 2, e.1.j) else none)

/-- SHAPER_REFILL: every 64th TIME_CLK edge, once for each. -/
def shaperRefill (c : Chip) : Chip :=
  if c.tim.clk / 64 ≤ c.tim.refills then c
  else c.shapers.foldl (fun c k => c.refillNode k.1 k.2.1 k.2.2) { c with tim := { c.tim with refills := c.tim.clk / 64 } }

/-- A refill that falls on the present edge, and has not been done, is done before what R289 and R293 order after it. -/
def Chip.edgeRefill (c : Chip) : Chip := if c.tim.clk % 64 = 0 then shaperRefill c else c

/-- The registers of a shaper block: kind 0 a bay, 1 a service, 2 the port. -/
def shaperCfgReg (kind : Nat) : R := match kind with | 0 => .SCH_BAY_CFG | 1 => .SCH_SVC_CFG | _ => .SCH_PORT_CFG
def shaperRateReg (kind : Nat) : R := match kind with | 0 => .SCH_BAY_RATE | 1 => .SCH_SVC_RATE | _ => .SCH_PORT_RATE
def shaperLevel (kind : Nat) : Nat := match kind with | 0 => 2 | 1 => 1 | _ => 0

/-- SHAPER_ENABLE_WRITE: a write of CFG; SHAPE_EN that changes leaves the credit 0 (R293). -/
def shaperEnableWrite (m : Nat) (kg : Bool) (n kind i v : Nat) (c : Chip) : Chip :=
  let l := shaperLevel kind
  let c1 := c.plainWrite m kg (shaperCfgReg kind) n i v
  if c1.shaped n l i = c.shaped n l i then c1 else c1.setCredit n l i 0

/-- SHAPER_RATE_WRITE: the new rate counts from the next refill, the one after a write that falls on a refill edge; the credit
stays (R293). -/
def shaperRateWrite (m : Nat) (kg : Bool) (n kind i v : Nat) (c : Chip) : Chip :=
  c.edgeRefill.plainWrite m kg (shaperRateReg kind) n i v

/-! ## Eligibility (R285, R298, R299) -/

/-- Service `s` of port `n` is express (R280); with preemption not in use every frame goes through the express MAC (R147). -/
def Chip.express (c : Chip) (n s : Nat) : Bool := bitOf (c.get Fd.PRT_PMAC_CTRL_EXPRESS_MASK n 0) s || !c.pmacActive n

/-- Wire bytes that end before the gate of service `s` closes. -/
def Chip.fitsGate (c : Chip) (n s len : Nat) : Bool :=
  match c.untilClose n s with
  | none => true
  | some d => c.wireFits n len d

/-- The gate check of a head copy of length `len`. -/
def Chip.gateCheck (c : Chip) (n s len : Nat) : Bool :=
  bitOf (c.gatesNow n) s &&
    (if c.express n s then c.fitsGate n s len
     else !c.held n && (c.fitsGate n s (64 * (1 + c.get Fd.PRT_PMAC_CTRL_ADD_FRAG n 0)) || c.fitsGate n s len))

/-- A head copy may begin: its frame has ended, or it cuts through (R40). A session copy records the received length. -/
def Chip.headReady (c : Chip) (n : Nat) (x : Copy) : Bool :=
  match c.frame x.fid with
  | none => true
  | some f =>
    f.ended || (decide (x.kind ≠ 2 ∧ f.port < 96 ∧ c.portMbps n ≤ c.portMbps f.port) &&
      c.flag Fd.PRT_MAC_CTRL_CUT_THRU f.port 0 && !((f.hdr.map (fun h => h.ctDis)).getD false))

/-- A child of a landing that is eligible: its number (services counted down from 7, so that every landing orders by it), its
weight, and the leaf queue, head and L_eff that it would send. -/
structure Child where
  num : Nat
  weight : Nat
  q : Nat
  head : Copy
  len : Nat
  deriving DecidableEq, Repr

/-- A leaf queue, if it is eligible. -/
def Chip.leafChild (c : Chip) (n q : Nat) : Option Child :=
  match c.queue n q with
  | [] => none
  | x :: l =>
    let len := c.lEff n q x
    if (x :: l).any (fun y => !c.dlPassed y.dl) && (c.isUp n) && c.gateCheck n (c.qSvc n q) len && c.headReady n x then
      some { num := q, weight := c.get Fd.SCH_Q_CFG_WEIGHT n q, q := q, head := x, len := len }
    else none

/-! ## The choice (R286, R287) -/

/-- What a landing picks, with the deficits it changes and the turn it leaves: `mark` is the level and the parent. -/
structure Pick where
  child : Child
  mark : Nat × Nat
  defi : List (Nat × Nat)
  turn : Option Nat
  deriving DecidableEq, Repr

/-- Visit the members of a weighted group in turn, each adding its quantum, until one's deficit covers its head. -/
def drrVisit : Nat → NMap Nat → List Child → Option (Child × NMap Nat)
  | 0, _, _ => none
  | _ + 1, _, [] => none
  | fuel + 1, m, k :: rest =>
    let d := m.get 0 k.num + 256 * k.weight
    if k.len ≤ d then some (k, m.put 0 k.num (d - k.len)) else drrVisit fuel (m.put 0 k.num d) (rest ++ [k])

/-- Pick among the eligible children of one parent, in rising order. -/
def Chip.pickOne (c : Chip) (n level parent : Nat) (kids : List Child) : Option Pick :=
  let bare (k : Child) : Pick := { child := k, mark := (level, parent), defi := [], turn := none }
  match kids.find? (fun k => decide (k.weight = 0)) with
  | some k => some (bare k)
  | none =>
    match kids with
    | [] => none
    | k0 :: _ =>
      if c.strictOnly n then some (bare k0)
      else
        let r := c.port n
        let m : NMap Nat := (kids.map (fun k => (k.num, r.defi.get 0 level k.num))).filter (fun e => decide (e.2 ≠ 0))
        let t := r.turn.get 0 level parent
        match kids.find? (fun k => decide (k.num + 1 = t ∧ k.len ≤ m.get 0 k.num)) with
        | some k => some { child := k, mark := (level, parent), defi := [(k.num, m.get 0 k.num - k.len)], turn := some t }
        | none =>
          let order := kids.filter (fun k => decide (t ≤ k.num)) ++ kids.filter (fun k => decide (k.num < t))
          (drrVisit (80 * kids.length) m order).map (fun e =>
            { child := e.1, mark := (level, parent), defi := kids.map (fun k => (k.num, e.2.get 0 k.num)), turn := some (e.1.num + 1) })

/-- A landing's picks become the children of the next one up. -/
structure Path where
  child : Child
  picks : List Pick
  deriving DecidableEq, Repr

/-- The bays that are eligible, each with what it would send. -/
def Chip.bayPaths (c : Chip) (n : Nat) : List (Nat × Path) :=
  let leaves := (c.busyQueues n).filterMap (fun q => c.leafChild n q)
  (List.range 64).filterMap (fun b =>
    if !leaves.any (fun k => decide (c.qBay n k.q = b)) || !c.shaperOk n 2 b then none
    else
      (c.pickOne n 2 b (leaves.filter (fun k => decide (c.qBay n k.q = b)))).map (fun p =>
        (c.get Fd.SCH_BAY_CFG_SVC n b,
          { child := { p.child with num := b, weight := c.get Fd.SCH_BAY_CFG_WEIGHT n b }, picks := [p] })))

/-- Pick among paths. -/
def Chip.pickPath (c : Chip) (n level parent : Nat) (ps : List Path) : Option Path :=
  (c.pickOne n level parent (ps.map (fun p => p.child))).bind (fun k =>
    (ps.find? (fun p => decide (p.child.num = k.child.num))).map (fun p => { child := p.child, picks := k :: p.picks }))

/-- The services that are eligible, service 7 first. -/
def Chip.svcPaths (c : Chip) (n : Nat) : List Path :=
  let bays := c.bayPaths n
  (List.range 8).filterMap (fun k =>
    let s := 7 - k
    let mine := (bays.filter (fun b => decide (b.1 = s))).map (fun b => b.2)
    if mine.isEmpty || !c.shaperOk n 1 s then none
    else
      (c.pickPath n 1 s mine).map (fun p =>
        { p with child := { p.child with num := k, weight := c.get Fd.SCH_SVC_CFG_WEIGHT n s } }))

/-- What port `n` would send next; while a preempted copy waits only an express service may go before it. -/
def Chip.choose (c : Chip) (n : Nat) : Option Path :=
  if !c.shaperOk n 0 0 then none
  else
    let svcs := c.svcPaths n
    c.pickPath n 0 0 (if (c.port n).held.isSome then svcs.filter (fun p => c.express n (7 - p.child.num)) else svcs)

/-- The deficits of children that are not eligible fall to 0 (R287). They are looked at where the port decides, where its gates
change, and where its queues lose copies (DEDUCED, log 97). -/
def Chip.dropDeficits (c : Chip) (n : Nat) : Chip :=
  let leaves := ((c.busyQueues n).filterMap (fun q => c.leafChild n q)).map (fun k => k.num)
  let bays := (c.bayPaths n).map (fun b => b.2.child.num)
  let svcs := (c.svcPaths n).map (fun p => p.child.num)
  let live (e : (Nat × Nat) × Nat) : Bool := match e.1.1 with
    | 0 => decide (e.1.2 ∈ svcs)
    | 1 => decide (e.1.2 ∈ bays)
    | _ => decide (e.1.2 ∈ leaves)
  let r := c.port n
  if r.defi.all live then c else c.setPort n { r with defi := r.defi.filter live }

/-- The picks of the path that sends take effect. -/
def Chip.commitPicks (c : Chip) (n : Nat) (ps : List Pick) : Chip :=
  ps.foldl (fun c p =>
    match p.turn with
    | none => c
    | some t =>
      let r := c.port n
      c.setPort n { r with
        defi := p.defi.foldl (fun m e => m.put 0 p.mark.1 e.1 e.2) r.defi
        turn := r.turn.put 0 p.mark.1 p.mark.2 t }) c

/-! ## The start of a copy -/

/-- The sessions that sample copies leaving port `n` (R270, R271). -/
def Chip.mirrorEgress (c : Chip) (n : Nat) (x : Copy) (f : Frame) : Chip :=
  if x.kind = 2 then c
  else
    (c.idxWith Fd.ATR_MIR_CTRL_ENABLE).foldl (fun c i =>
      if c.get Fd.ATR_MIR_CTRL_SRC i 0 ≠ 2 ∨ c.get Fd.ATR_MIR_SOURCE_SRC_PORT i 0 ≠ n then c
      else
        let t := c.candidate (i + 1)
        if !t.1 || decide (i + 1 ∈ f.mirrored) then t.2
        else
          let w := t.2.sessionWant (i + 1) x.fid f.hall f.hdr x.dl n
          if !w.exists_ then t.2
          else if t.2.qCells w.n w.q + f.charged ≤ t.2.queueLimit t.2.freeCells w.copy.cls x.colour then
            match t.2.frame x.fid with
            | none => t.2
            | some g => (t.2.setFrame x.fid { g with refs := g.refs + 1 }).enqueue w ((f.hdr.map (fun h => h.dlen)).getD f.len)
          else t.2.refuseCopy w f.hall) c

/-- A copy longer than its port sends (R145, R238): known before it starts. -/
def Chip.tooLong (c : Chip) (n q : Nat) (x : Copy) : Bool := decide (c.maxLen n < c.lEff n q x)

/-- The selected head starts on the wire, or is discarded: answers whether it started. It has passed every check before
stage 10's cell reads. -/
def Chip.startCopy (c : Chip) (n : Nat) (p : Path) (rest : List Copy) : Bool × Chip :=
  let x := p.child.head
  let q := p.child.q
  let gone (c : Chip) : Chip := (c.setQueue n q rest).dropCopy n x
  match c.frame x.fid with
  | none => (false, c.setQueue n q rest)
  | some f =>
    let known := f.lenKnown
    if known && c.tooLong n q x then (false, gone c)
    else
      let lim := c.lEff n q x
      let e := c.egressBytes n x f
      match e.1 with
      | none => (false, gone e.2.2)
      | some bytes =>
        let cap := if known then bytes.length + 4 else min lim (c.maxLen n)
        let cut := decide (cap < bytes.length + 4)
        let s := c.qSvc n q
        let t : Tx :=
          { copy := x, bytes := if cut then bytes.take (cap - 4) else bytes, len := min cap (bytes.length + 4), q := q, svc := s,
            express := c.express n s, stomp := cut || f.bad, sent := 0, t0 := c.tim.clk, ts := e.2.1, epoch := c.epoch }
        let c1 := ((e.2.2.commitPicks n p.picks).setQueue n q rest).chargePath n s (c.qBay n q) (lim + 20)
        (true, (c1.setPort n { c1.port n with tx := some t }).mirrorEgress n x f)

/-- Stage 10 reads the cells of the head: the errors stored with them are met (R250). -/
def Chip.readCells (c : Chip) (x : Copy) : Chip :=
  match c.frame x.fid with
  | none => c
  | some f =>
    if f.ecc.isEmpty then c
    else f.ecc.foldl (fun c e => c.bankError e.1 (decide (e.2 = 2)) (some x.fid)) (c.setFrame x.fid { f with ecc := [] })

/-- One selection after another until a copy starts, or none can. -/
def Chip.selectLoop : Nat → Nat → Chip → Chip
  | 0, _, c => c
  | fuel + 1, n, c =>
    match c.choose n with
    | none => c
    | some p =>
      let q := p.child.q
      let rest := (c.queue n q).drop 1
      if c.stale p.child.head then
        Chip.selectLoop fuel n ((c.setQueue n q rest).dropStale n q xAGEDHEAD p.child.head)
      else
        let r := c.resequence n q p.child.head rest
        if !r.1 then Chip.selectLoop fuel n r.2
        else
          let c1 := r.2.readCells p.child.head
          if (c1.queue n q).head? ≠ some p.child.head then Chip.selectLoop fuel n c1
          else
            let t := c1.startCopy n p ((c1.queue n q).drop 1)
            if t.1 then t.2 else Chip.selectLoop fuel n t.2

/-- A preempted copy goes on with its next fragment (R292, R299). -/
def Chip.resumeHeld (c : Chip) (n : Nat) : Chip :=
  let r := c.port n
  match r.held with
  | none => c
  | some t =>
    if bitOf (c.gatesNow n) t.svc && (c.express n t.svc || !c.held n) then
      (c.setPort n { r with tx := some t, held := none }).chargePath n t.svc (c.qBay n t.q) 24
    else c

/-- Copies that a selection on port `n` may go through. -/
def Chip.selectFuel (c : Chip) (n : Nat) : Nat :=
  ((c.busyQueues n).map (fun q => (c.queue n q).length)).foldl (· + ·) 0 + 2 * c.rsqHeld + 2

/-- What falls on the present edge and is applied before port `n` decides (R289): a shaper refill, a gate event. -/
def Chip.edgeEvents (c : Chip) (n : Nat) : Chip := holdAssert n (gateBoundary n c.edgeRefill)

/-- The deficits of every port that keeps some. -/
def Chip.dropAllDeficits (c : Chip) : Chip := (c.ports.map (fun e => e.1)).foldl (fun c n => c.dropDeficits n) c

/-- TX_SELECT: port `n` can begin a transmission (R125, R285, R289). A stopped port starts no new copy (R60). -/
def txSelect (n : Nat) (c0 : Chip) : Chip :=
  let c := if n < 96 ∧ c0.running then c0.edgeEvents n else c0
  let r := c.port n
  if 96 ≤ n ∨ !c.running ∨ c.imageOff ∨ r.tx.isSome then c
  else if c.link n = lSPARING then c.resumeHeld n
  else if !c.isUp n then
    let c1 := c.dropPortQueues n
    match r.held with
    | none => c1
    | some t => ((c1.setPort n { c1.port n with held := none }).txAbort n).release t.copy.fid
  else
    let c1 := if c.stopping 0 n then c else (Chip.selectLoop (c.selectFuel n) n (c.dropDeficits n)).dropDeficits n
    if (c1.port n).tx.isSome then c1 else c1.resumeHeld n

/-! ## The end of a copy -/

/-- The transmit counters of a copy of class `cls` that ended whole (R437). -/
def Chip.countTx (c : Chip) (n cls : Nat) (t : Tx) : Chip :=
  let da := daOf t.bytes
  let kind := if isBroadcast da then 9 else if isGroup da then 8 else 7
  (((((c.stat 0 n 5 1).stat 0 n 6 t.len).stat 0 n kind 1).stat 0 n (16 + cls) 1).devCnt 1 1).devCnt 3 t.len

/-- TX_COPY_END: the copy on the wire ends, whole or stomped; its reference goes (R258). A copy that cuts through cannot end
before its frame has. -/
def txCopyEnd (n : Nat) (c : Chip) : Chip :=
  match (c.port n).tx with
  | none => c
  | some t =>
    let f := c.frame t.copy.fid
    if !t.stomp && !(f.map (fun f => f.ended)).getD true then c
    else
      let c1 := c.setPort n { c.port n with tx := none }
      let c2 := if t.stomp then c1.txAbort n
        else
          let c3 := (c1.countTx n t.copy.cls t).stat 0 n 11 (if t.sent = 0 then 0 else 1)
          match f.bind (fun f => c3.tsWanted n t.copy f) with
          | none => c3
          | some w => c3.tsqPush n w.1 w.2.1 w.2.2 t.ts t.epoch
      c2.release t.copy.fid

/-- PREEMPT_FRAGMENT_END: after a close of its gate, a hold or an express copy that waits, the fragment on the wire ends with
`sent` bytes of the copy sent (R148, R299). -/
def preemptFragmentEnd (n sent : Nat) (c : Chip) : Chip :=
  let r := c.port n
  match r.tx with
  | none => c
  | some t =>
    let cause := c.held n || !bitOf (c.gatesNow n) t.svc ||
      (c.svcPaths n).any (fun p => c.express n (7 - p.child.num))
    if t.express || !c.pmacActive n || !cause ||
        decide (sent < t.sent + 64 * (1 + c.get Fd.PRT_PMAC_CTRL_ADD_FRAG n 0) ∨ t.len ≤ sent) then c
    else (c.setPort n { r with tx := none, held := some { t with sent := sent } }).stat 0 n 11 1

/-! ## Flushes (R303, R304) -/

/-- The device port that an issuing hall means, and the leaf queues that a flush names. -/
def Chip.flushScope (c : Chip) (n op idx : Nat) : List Nat :=
  match op with
  | 1 => [idx]
  | 2 => (List.range 256).filter (fun q => decide (c.qBay n q = idx))
  | _ => List.range 256

/-- A write of SCH_FLUSH_CMD of slot `h`: 1 QUEUE, 2 BAY, 3 PORT. The copies go when it starts; DONE comes with
FLUSH_CMD_COMPLETE. -/
def flushCmd (m : Nat) (via : Option Nat) (h op port idx : Nat) (c : Chip) : Chip :=
  let st := Fd.SCH_FLUSH_CMD_STATUS
  let n? := c.hport h port
  let bad := decide (95 < port) || decide (op = 0 ∨ 3 < op) || (decide (op = 2) && decide (63 < idx))
  let n := n?.getD 96
  let scope := c.flushScope n op idx
  let foreign := decide (port < 96) && !bad &&
    (n?.isNone || scope.any (fun q => decide (c.qOwner n q ≠ h)))
  let busy := (List.range 32).any (fun k => decide (c.get st k 0 = sBUSY))
  c.command st h 0 m (addrOf .SCH_FLUSH_CMD h 0)
    (fun c => (c.set Fd.SCH_FLUSH_CMD_PORT h 0 port).set Fd.SCH_FLUSH_CMD_INDEX h 0 idx)
    [(foreign, sPRIV), (c.issueStale via, sSTALE), (n?.isSome && c.isFenced 0 n, sFENCED),
     (c.stopped 5 h, sQUIESCE), (busy, sSTATE), (bad, sARG)]
    (fun c =>
      let count := (scope.map (fun q => c.qCopies n q)).foldl (· + ·) 0
      (((scope.foldl (fun c q => if c.qCopies n q = 0 then c else c.dropQueue n q) c).dropDeficits n).set Fd.SCH_FLUSH_RES_COPIES
        h 0 count).set st h 0 sBUSY)

/-- FLUSH_CMD_COMPLETE. -/
def flushCmdComplete (h : Nat) (c : Chip) : Chip :=
  if c.get Fd.SCH_FLUSH_CMD_STATUS h 0 = sBUSY then c.set Fd.SCH_FLUSH_CMD_STATUS h 0 sDONE else c

/-! ## The commands' meanings -/

/-- TX_SELECT. -/
def execTxSelect (n : Nat) (s : State) : Host.Outcome State Fault Refusal := .next (s.onChip (txSelect n))
/-- TX_COPY_END. -/
def execTxCopyEnd (n : Nat) (s : State) : Host.Outcome State Fault Refusal := .next (s.onChip (txCopyEnd n))
/-- PREEMPT_FRAGMENT_END. -/
def execPreemptFragmentEnd (n sent : Nat) (s : State) : Host.Outcome State Fault Refusal :=
  .next (s.onChip (preemptFragmentEnd n sent))
/-- SHAPER_REFILL. -/
def execShaperRefill (s : State) : Host.Outcome State Fault Refusal := .next (s.onChip shaperRefill)
/-- SHAPER_RATE_WRITE. -/
def execShaperRateWrite (m n kind idx : Nat) (v : Word) (s : State) : Host.Outcome State Fault Refusal :=
  .next (s.onChip (fun c => c.withWrite m (viaOf m) (shaperRateReg kind) n idx (fun kg => shaperRateWrite m kg n kind idx v.toNat)))
/-- SHAPER_ENABLE_WRITE. -/
def execShaperEnableWrite (m n kind idx : Nat) (v : Word) (s : State) : Host.Outcome State Fault Refusal :=
  .next (s.onChip (fun c => c.withWrite m (viaOf m) (shaperCfgReg kind) n idx (fun kg => shaperEnableWrite m kg n kind idx v.toNat)))
/-- GATE_LIST_BOUNDARY. -/
def execGateListBoundary (n : Nat) (s : State) : Host.Outcome State Fault Refusal := .next (s.onChip (fun c => (gateBoundary n c).dropDeficits n))
/-- HOLD_ASSERT. -/
def execHoldAssert (n : Nat) (s : State) : Host.Outcome State Fault Refusal := .next (s.onChip (fun c => (holdAssert n c).dropDeficits n))
/-- STREAM_GATE_BOUNDARY. -/
def execStreamGateBoundary (g : Nat) (s : State) : Host.Outcome State Fault Refusal := .next (s.onChip (streamGateBoundary g))
/-- STREAM_GATE_REOPEN. -/
def execStreamGateReopen (m g : Nat) (s : State) : Host.Outcome State Fault Refusal :=
  .next (s.onChip (fun c => c.withWrite m (viaOf m) .TBL_SGATE_REOPEN g 0 (fun _ => sgateReopen m g)))
/-- SWITCH. -/
def execGclSwitch (m n : Nat) (s : State) : Host.Outcome State Fault Refusal :=
  .next (s.onChip (fun c => c.withWrite m (viaOf m) .SCH_GCL_CMD n 0 (fun _ => gclCmd m 1 n)))
/-- CANCEL. -/
def execGclCancel (m n : Nat) (s : State) : Host.Outcome State Fault Refusal :=
  .next (s.onChip (fun c => c.withWrite m (viaOf m) .SCH_GCL_CMD n 0 (fun _ => gclCmd m 2 n)))
/-- GCL_ENABLE_WRITE. -/
def execGclEnableWrite (m n : Nat) (v : Word) (s : State) : Host.Outcome State Fault Refusal :=
  .next (s.onChip (fun c => c.withWrite m (viaOf m) .SCH_GCL_CTRL n 0 (fun _ => gclCtrlWrite m .SCH_GCL_CTRL n v.toNat)))
/-- ATRIUM_SWEEP_PASS. -/
def execAtriumSweepPass (s : State) : Host.Outcome State Fault Refusal := .next (s.onChip (fun c => (atriumSweepPass c).dropAllDeficits))
/-- ATRIUM_SWEEP_DONE. -/
def execAtriumSweepDone (s : State) : Host.Outcome State Fault Refusal := .next (s.onChip atriumSweepDone)
/-- RSQ_RETURN. -/
def execRsqReturn (n : Nat) (s : State) : Host.Outcome State Fault Refusal := .next (s.onChip (rsqReturn n))
/-- RSQ_TIMEOUT. -/
def execRsqTimeout (x : Nat) (s : State) : Host.Outcome State Fault Refusal := .next (s.onChip (rsqTimeout x))
/-- RSQ_CONTEXT_FREE. -/
def execRsqContextFree (x : Nat) (s : State) : Host.Outcome State Fault Refusal := .next (s.onChip (rsqContextFree x))
/-- QUEUE. -/
def execFlushQueue (m h n q : Nat) (s : State) : Host.Outcome State Fault Refusal :=
  .next (s.onChip (fun c => c.withWrite m (slotVia m h) .SCH_FLUSH_CMD h 0 (fun _ => flushCmd m (slotVia m h) h 1 n q)))
/-- BAY. -/
def execFlushBay (m h n b : Nat) (s : State) : Host.Outcome State Fault Refusal :=
  .next (s.onChip (fun c => c.withWrite m (slotVia m h) .SCH_FLUSH_CMD h 0 (fun _ => flushCmd m (slotVia m h) h 2 n b)))
/-- PORT. -/
def execFlushPortQueues (m h n : Nat) (s : State) : Host.Outcome State Fault Refusal :=
  .next (s.onChip (fun c => c.withWrite m (slotVia m h) .SCH_FLUSH_CMD h 0 (fun _ => flushCmd m (slotVia m h) h 3 n 0)))
/-- FLUSH_CMD_COMPLETE. -/
def execFlushCmdComplete (h : Nat) (s : State) : Host.Outcome State Fault Refusal := .next (s.onChip (flushCmdComplete h))

end Sys2Proof.Machine
end

