-- ==== Sys2Proof/Machine/TimeCommands.lean ====
section
/-! DEFINITION. The meanings of the commands of the time unit and the cycle clock (chapter 3), over the operations of Time, and
of a slot that is not retired (R428). -/

namespace Sys2Proof.Machine

/-- A write of register `r` by master `m`: `k` is its effect where it reaches the register. -/
def State.regWrite (s : State) (m : Nat) (r : R) (i j : Nat) (k : Bool → Chip → Chip) : Host.Outcome State Fault Refusal :=
  .next (s.onChip (fun c => c.withWrite m (viaOf m) r i j k))

/-- RATE_LO_STAGE. -/
def execRateLoStage (m : Nat) (v : Word) (s : State) : Host.Outcome State Fault Refusal :=
  s.regWrite m .TIM_RATE_LO 0 0 (fun _ => rateLoWrite v.toNat)
/-- RATE_COMMIT. -/
def execRateCommit (m : Nat) (v : Word) (s : State) : Host.Outcome State Fault Refusal :=
  s.regWrite m .TIM_RATE_HI 0 0 (fun _ => rateHiWrite m v.toNat)
/-- STEP_ABS. -/
def execStepAbs (m : Nat) (s : State) : Host.Outcome State Fault Refusal := s.regWrite m .TIM_CMD 0 0 (fun _ => timCmd m 1)
/-- STEP_REL. -/
def execStepRel (m : Nat) (s : State) : Host.Outcome State Fault Refusal := s.regWrite m .TIM_CMD 0 0 (fun _ => timCmd m 2)
/-- SERVO_CLEAR. -/
def execServoClear (m : Nat) (s : State) : Host.Outcome State Fault Refusal := s.regWrite m .TIM_CMD 0 0 (fun _ => timCmd m 3)
/-- OFFSET_WRITE. -/
def execOffsetWrite (m : Nat) (v : Word) (s : State) : Host.Outcome State Fault Refusal :=
  s.regWrite m .TIM_OFFSET 0 0 (fun _ => offsetWriteC m v.toNat)
/-- PPS_IN_EDGE. -/
def execPpsInEdge (s : State) : Host.Outcome State Fault Refusal := .next (s.onChip ppsInEdge)
/-- CLK10M_LOST. -/
def execClk10mLost (s : State) : Host.Outcome State Fault Refusal := .next (s.onChip clk10mLost)
/-- CLK10M_RETURN. -/
def execClk10mReturn (s : State) : Host.Outcome State Fault Refusal := .next (s.onChip clk10mReturn)
/-- CYC_REF_EDGE. -/
def execCycRefEdge (s : State) : Host.Outcome State Fault Refusal := .next (s.onChip cycRefEdge)
/-- CYC_REF_LOSS. -/
def execCycRefLoss (s : State) : Host.Outcome State Fault Refusal := .next (s.onChip cycRefLoss)
/-- CYC_SECOND_RECOMPUTE. -/
def execCycSecondRecompute (s : State) : Host.Outcome State Fault Refusal := .next (s.onChip cycSecondRecompute)
/-- CYC_FREQ_WRITE. -/
def execCycFreqWrite (m : Nat) (v : Word) (s : State) : Host.Outcome State Fault Refusal :=
  s.regWrite m .TIM_CYC_FREQ 0 0 (fun _ => cycFreqWrite v.toNat)
/-- EVENT_SLOT_ENABLE. -/
def execEventSlotEnable (m k : Nat) (v : Word) (s : State) : Host.Outcome State Fault Refusal :=
  s.regWrite m .TIM_EVT_CTRL k 0 (fun _ => evtWrite m .TIM_EVT_CTRL k v.toNat)
/-- EVENT_SLOT_FIRE. -/
def execEventSlotFire (k : Nat) (s : State) : Host.Outcome State Fault Refusal := .next (s.onChip (eventSlotFire k))
/-- TOUT_PULSE_END. -/
def execToutPulseEnd (x : Nat) (s : State) : Host.Outcome State Fault Refusal := .next (s.onChip (toutPulseEnd x))
/-- PPS_OUT_RISE. -/
def execPpsOutRise (s : State) : Host.Outcome State Fault Refusal := .next (s.onChip ppsOutRise)
/-- PPS_OUT_FALL. -/
def execPpsOutFall (s : State) : Host.Outcome State Fault Refusal := .next (s.onChip ppsOutFall)
/-- CAP_IN_EDGE. -/
def execCapInEdge (x : Nat) (rising : Bool) (stableNs : Nat) (s : State) : Host.Outcome State Fault Refusal :=
  .next (s.onChip (capInEdge x rising stableNs))
/-- PIPE_SLOT_TIMEOUT. -/
def execPipeSlotTimeout (p : Nat) (s : State) : Host.Outcome State Fault Refusal := .next (s.onChip (pipeSlotTimeout p))
/-- DUP_SWEEP_PASS. -/
def execDupSweepPass (s : State) : Host.Outcome State Fault Refusal := .next (s.onChip dupSweepPass)

end Sys2Proof.Machine
end

