-- ==== Sys2Proof/Machine/RedCommands.lean ====
section
/-! DEFINITION. The role commands of the redundancy engine (R226, R227), and the supervision frames that it sends (R240). -/

namespace Sys2Proof.Machine

/-! ## Role commands -/

/-- The halls whose maps name a shared port. -/
def Chip.hallsOn (c : Chip) (n : Nat) : List Nat :=
  (List.range 32).filter (fun h => c.hallPresent h && c.hallHas h n)

/-- The two ports of a pair lie in different halls, or are shared ports of different slices (R40). -/
def Chip.pairSplit (c : Chip) (a b : Nat) : Bool :=
  if c.shared a ≠ c.shared b then true
  else if c.shared a then decide (c.hallsOn a ≠ c.hallsOn b)
  else decide (c.owner a ≠ c.owner b)

/-- QUAD_EN without ROLE HSR, or without an active HSR peer of the same hall. -/
def Chip.quadBad (c : Chip) (k : Nat) : Bool :=
  let p := c.get Fd.RED_PAIR_CFG_QUAD_PEER k 0
  c.flag Fd.RED_PAIR_CFG_QUAD_EN k 0 &&
    !(decide (c.pairRole k = 2) && decide (p < 48) && c.pairActive p && decide (c.pairRole p = 2) &&
      decide (c.pairHall p = c.pairHall k))

/-- A SET that passes. -/
def Chip.pairSet (c : Chip) (k : Nat) : Chip :=
  let c1 := c.set Fd.RED_PAIR_CFG_ACTIVE k 0 1
  if c.pairRole k = 1 then
    (c1.set Fd.PRT_PARSE_CTRL_TRAILER (c.pairA k) 0 1).set Fd.PRT_PARSE_CTRL_TRAILER (c.pairB k) 0 1
  else c1

/-- A pair is removed: its windows and generators go, and a peer's QUAD_EN that names it. -/
def Chip.pairClear (c : Chip) (k : Nat) : Chip :=
  let c1 := c.set Fd.RED_PAIR_CFG_ACTIVE k 0 0
  let c2 := if c.pairRole k = 1 then
      (c1.set Fd.PRT_PARSE_CTRL_TRAILER (c.pairA k) 0 0).set Fd.PRT_PARSE_CTRL_TRAILER (c.pairB k) 0 0
    else c1
  let c3 := (c2.entries tDUP).foldl (fun c i =>
    let ws := (c.entry tDUP i).getD []
    if dupKind ws < 2 ∧ dupPair ws = k then c.delEntry tDUP i else c) c2
  ((c3.idxWith Fd.RED_PAIR_CFG_QUAD_EN).filter (fun j => decide (c3.get Fd.RED_PAIR_CFG_QUAD_PEER j 0 = k))).foldl
    (fun c j => c.set Fd.RED_PAIR_CFG_QUAD_EN j 0 0) c3

/-- A write of RED_ROLE_CMD: 1 SET, 2 CLEAR of pair `k` (R227; a stair link holds no role, R309). -/
def roleCmd (m op k : Nat) (c : Chip) : Chip :=
  let st := Fd.RED_ROLE_CMD_STATUS
  let a := c.pairA k
  let b := c.pairB k
  let role := c.pairRole k
  let ok := decide (k < 48)
  let ports := ok && decide (a < 96 ∧ b < 96)
  let taken (n : Nat) : Bool := match c.pairOf n with
    | none => false
    | some j => decide (j ≠ k)
  c.command st 0 0 m (addrOf .RED_ROLE_CMD 0 0) (fun c => c.set Fd.RED_ROLE_CMD_PAIR 0 0 k)
    [(!c.priv m, sPRIV),
     (ok && [a, b].any (fun n => decide (n < 96) && c.isFenced 0 n), sFENCED),
     (ok && [a, b].any (fun n => decide (n < 96) && !c.stopped 0 n), sQUIESCE),
     (ok && decide (op = 1) && (c.pairActive k || (ports && c.pairSplit a b) || taken a || taken b || c.quadBad k ||
       (c.stairOf a).isSome || (c.stairOf b).isSome), sSTATE),
     (ok && decide (op = 2) && !c.pairActive k, sSTATE),
     (!ok || decide (op = 0 ∨ 2 < op) || (decide (op = 1) && (decide (role = 0 ∨ role = 3 ∨ a = b) || !ports)), sARG)]
    (fun c => (if op = 1 then c.pairSet k else c.pairClear k).set st 0 0 sDONE)

/-! ## Frames that the device makes -/

/-- Enqueue a frame of the device's own on port `n` at class `cls`: it is admitted as any frame is, with the residence limit of
its class. Answers whether it was. -/
def Chip.sendOwn (c : Chip) (n hall cls : Nat) (d : List Nat) : Bool × Chip :=
  let f : Frame := { c.newRx 127 c.tim.devT d d with
    ended := true, arrived := d.length, handed := true, staged := true, hall := hall }
  let h : Hdr := { parseFrame [] 0 0 16384 127 true d with cls := cls }
  let x := c.newFrame f
  let dl := x.2.deadline h { kind := 0, num := 0, den := 1 } f.inRef cls
  let w : Want := { n := n, q := x.2.classQueue n hall cls,
                    copy := { fid := x.1, kind := 3, reason := 0, cls := cls, colour := cGREEN, dl := some dl,
                              edit := Edit.plain, sess := 0, out := 0, seqDone := false } }
  let r := x.2.admission x.1 f h hall cls dl [w] []
  if r.1 then r else (false, r.2.delFrame x.1)

/-! ## Supervision frames -/

/-- The bytes of a supervision frame of pair `k` before its tag or trailer; `proxied` is the MAC of a proxied source. -/
def Chip.supBody (c : Chip) (k seq : Nat) (proxied : Option Nat) : List Nat :=
  let mac := c.pairMac k
  padTo 60 (beBytes 5 0x01154E0001 ++ [c.get Fd.RED_PAIR_SUP_DA_LSB k 0] ++ beBytes 6 mac ++ beBytes 2 0x88FB ++
    beBytes 2 1 ++ beBytes 2 seq ++ [if c.pairRole k = 1 then 20 else 23, 6] ++ beBytes 6 (proxied.getD mac) ++
    (if proxied.isSome then [30, 6] ++ beBytes 6 mac else []) ++ [0, 0])

/-- The frame as it leaves on side `side` of pair `k`. -/
def Chip.supFrame (c : Chip) (k side rseq : Nat) (body : List Nat) : List Nat :=
  if c.pairRole k = 1 then body ++ prpTrailerBytes (10 + side) (body.length + 10) 0 rseq
  else body.take 12 ++ hsrTagBytes (c.get Fd.RED_PAIR_CFG_NET_ID k 0 * 2 + side) (body.length + 10) 0 rseq ++ body.drop 12

/-- Send a supervision frame on both ports of pair `k`. -/
def Chip.supSend (c : Chip) (k : Nat) (body : List Nat) : Chip :=
  let hall := c.pairHall k
  let g := c.nextSeq k (c.pairMac k) hall
  let one (c : Chip) (side n : Nat) : Chip :=
    let r := c.sendOwn n hall (c.get Fd.RED_PAIR_SUP_TC k 0) (c.supFrame k side g.1 body)
    if r.1 then r.2.pairCnt k rcSUPTX else r.2
  one (one g.2 0 (c.pairA k)) 1 (c.pairB k)

/-- Pair `k` sends supervision frames. -/
def Chip.supOn (c : Chip) (k : Nat) : Bool :=
  decide (k < 48) && c.running && !c.imageOff && c.pairActive k && c.flag Fd.RED_PAIR_SUP_SUP_EN k 0

/-- SUP_FRAME_TX: once per LIFE_MS. The first SupSequenceNumber is 0. -/
def supFrameTx (k : Nat) (c : Chip) : Chip :=
  if !c.supOn k then c
  else
    let n := c.supSeq.get 0 k
    ({ c with supSeq := c.supSeq.put 0 k ((n + 1) % 65536) }).supSend k (c.supBody k n none)

/-- PROXY_SUP_TX: a frame for the GENERATOR entry `i` of the pair, under the number of the present interval. -/
def proxySupTx (k i : Nat) (c : Chip) : Chip :=
  if !c.supOn k || !c.flag Fd.RED_PAIR_CFG_PROXY_SUP k 0 then c
  else
    match c.entry tDUP i with
    | none => c
    | some ws =>
      if tblValid tDUP ws ∧ dupKind ws = kGENERATOR ∧ dupPair ws = k then
        c.supSend k (c.supBody k ((c.supSeq.get 0 k + 65535) % 65536) (some (dupMac ws)))
      else c

/-- SET. -/
def execRedSet (m k : Nat) (s : State) : Host.Outcome State Fault Refusal := s.regWrite m .RED_ROLE_CMD 0 0 (fun _ => roleCmd m 1 k)
/-- CLEAR. -/
def execRedClear (m k : Nat) (s : State) : Host.Outcome State Fault Refusal := s.regWrite m .RED_ROLE_CMD 0 0 (fun _ => roleCmd m 2 k)
/-- SUP_FRAME_TX. -/
def execSupFrameTx (k : Nat) (s : State) : Host.Outcome State Fault Refusal := .next (s.onChip (supFrameTx k))
/-- PROXY_SUP_TX. -/
def execProxySupTx (k idx : Nat) (s : State) : Host.Outcome State Fault Refusal := .next (s.onChip (proxySupTx k idx))

end Sys2Proof.Machine
end

