-- ==== Sys2Proof/Machine/TableCommands.lean ====
section
/-! DEFINITION. Commands to the lookup pool and the TCAM banks (R170 to R172, R177, R208, R209, R214 to R221): the table-command
engine with a slot for each hall, the ager, and the TCAM commands. -/

namespace Sys2Proof.Machine

def opSEARCH : Nat := 1
def opNEXT : Nat := 2
def opINSERT : Nat := 3
def opDELETE : Nat := 4
def opFLUSHPORT : Nat := 5
def opFLUSHHALL : Nat := 6
def opAGE : Nat := 7

/-! ## A hall's numbering (R221, R336) -/

/-- Local port of hall `h` for a device port; 127 where the hall does not map it. -/
def Chip.toLocal (c : Chip) (h n : Nat) : Nat := (c.localOf h n).getD 127

/-- The device's number of group `g` of hall `h`'s numbering; hall 0's are the device's. The spec gives no map (log 32). -/
def Chip.groupDev (c : Chip) (h g : Nat) : Nat :=
  if h = 0 ∨ c.tblSize tMCAST ≤ g then g else Config.groupDevice h g % c.tblSize tMCAST

/-- The number by which hall `h` names group `g` of the device. -/
def Chip.groupLocal (c : Chip) (h g : Nat) : Nat :=
  if h = 0 then g
  else ((List.range (c.tblSize tMCAST)).find? (fun l => decide (c.groupDev h l = g))).getD (Config.groupOther h g % 65536)

/-- The entry that an index of hall `h` addresses in table `t`, and its number to the hall: only groups are renumbered (R221). -/
def Chip.toIndex (c : Chip) (h t i : Nat) : Nat := if t = tMCAST then c.groupDev h i else i
def Chip.ofIndex (c : Chip) (h t i : Nat) : Nat := if t = tMCAST then c.groupLocal h i else i

/-- TBL_CMD_IDX of slot `h` as the device numbers entries. -/
def Chip.cmdIndex (c : Chip) (h t : Nat) : Nat := c.toIndex h t (c.get Fd.TBL_CMD_IDX_INDEX h 0)

/-- The words of an entry as hall `h` numbers its ports and groups, from the device's numbering: targets of KIND 0 and 1, and the
ports of a group (R221). -/
def Chip.wordsOut (c : Chip) (h t : Nat) (ws : List Nat) : List Nat :=
  if h = 0 then ws
  else if t = tFDB ∧ fdbKind ws = 0 then wset ws 3 6 0 (c.toLocal h (fdbTarget ws % 128))
  else if t = tFDB ∧ fdbKind ws = 1 then wset ws 3 15 0 (c.groupLocal h (fdbTarget ws % 65536))
  else if t = tMCAST then
    (List.range 3).foldl (fun w k => w.set k ((List.range 32).foldl (fun a j =>
      match c.hport h (32 * k + j) with
      | some n => if bitOf (ws.getD (n / 32) 0) (n % 32) then a + 2 ^ j else a
      | none => a) 0)) ws
  else ws

/-- The same from the hall's numbering to the device's; `none` where the hall names a port that it does not map. -/
def Chip.wordsIn (c : Chip) (h t : Nat) (ws : List Nat) : Option (List Nat) :=
  if h = 0 then some ws
  else if t = tFDB ∧ fdbKind ws = 0 then (c.hport h (fdbTarget ws % 128)).map (fun n => wset ws 3 6 0 n)
  else if t = tFDB ∧ fdbKind ws = 1 then some (wset ws 3 15 0 (c.groupDev h (fdbTarget ws % 65536)))
  else if t = tMCAST then
    let ls := (List.range 96).filter (fun l => bitOf (ws.getD (l / 32) 0) (l % 32))
    if ls.all (fun l => (c.hport h l).isSome) then
      let ns := ls.filterMap (fun l => c.hport h l)
      some ((List.range 3).foldl (fun w k => w.set k ((List.range 32).foldl (fun a j =>
        if ns.contains (32 * k + j) then a + 2 ^ j else a) 0)) ws)
    else none
  else some ws

/-! ## Operands -/

def Chip.slotKey (c : Chip) (h : Nat) : List Nat := (List.range 16).map (fun w => c.get Fd.TBL_KEY_KEY h w)

/-- DATA_w of slot `h` as an entry image of table `t`. -/
def Chip.slotData (c : Chip) (h t : Nat) : List Nat := (List.range (tblWords t)).map (fun w => c.get Fd.TBL_DATA_DATA h w)

/-- The hall that a command of slot `h` names: the slot's own in a hall window (R214). -/
def Chip.argHall (c : Chip) (h : Nat) : Nat := if h = 0 then c.get Fd.TBL_CMD_ARG_HALL 0 0 else h

/-- Key bytes of an entry image of a hashed table (R190). -/
def keyBytes (t : Nat) (ws : List Nat) : List Nat :=
  if t = tFDB then fdbKey (fdbMac ws) (fdbFid ws) (fdbHall ws) else wb ws 0 30 28 :: streamKeyOf ws

/-- Look a key of table `t` up. -/
def Chip.keyFind (c : Chip) (t : Nat) (key : List Nat) : Option Nat × Chip :=
  c.hashFind t (c.tblSize t) key (fun ws => decide (keyBytes t ws = key))

/-- The key that KEY_w of slot `h` spells. -/
def Chip.opKey (c : Chip) (h t : Nat) : List Nat :=
  let k := c.slotKey h
  if t = tFDB then fdbKey (k.getD 0 0 * 65536 + k.getD 1 0 / 65536) (k.getD 1 0 % 4096) (c.argHall h)
  else k.getD 12 0 % 8 :: (k.take 12).flatMap (beBytes 4)

/-- The command addresses INDEX and not a key. -/
def Chip.byIndex (c : Chip) (h op t : Nat) : Bool :=
  !tblHashed t || (c.flag Fd.TBL_CMD_ARG_BY_INDEX h 0 && decide (op = opSEARCH ∨ op = opDELETE))

/-- An entry image that INSERT refuses with ARG_ERR (R178, R229, R230, R242). -/
def Chip.badData (c : Chip) (t i : Nat) (ws : List Nat) : Bool :=
  decide (t = tSTREAM ∧ 4 ≤ wb ws 0 30 28) ||
    (decide (t = tDUP) && decide (i < c.srcRegion ∨ dupKind ws = 3)) ||
    decide (t = tRECOVERY ∧ (2 ≤ wb ws 0 29 28 ∨ wb ws 0 26 25 = 3))

/-- The owner that an entry image names, for the tables whose entries hold one. -/
def dataHall (t : Nat) (ws : List Nat) : Option Nat :=
  if t = tFDB then some (fdbHall ws)
  else if t = tMCAST then some (wb ws 3 30 26)
  else if t = tDUP then some (wb ws 0 28 24)
  else if t = tRECOVERY then some (wb ws 0 4 0) else none

/-- A command of slot `h` names an entry or a hall of another (R215). -/
def Chip.foreignCmd (c : Chip) (h op t : Nat) : Bool :=
  let i := c.cmdIndex h t
  let held := c.byIndex h op t && decide (op = opSEARCH ∨ op = opDELETE ∨ op = opINSERT) &&
    (c.entry t i).isSome && decide (c.entryHall t i ≠ h)
  let names := decide (op = opINSERT) && decide ((dataHall t (c.slotData h t)).getD h ≠ h)
  decide (h ≠ 0) && (held || names)

/-- A write of TBL_CMD of slot `h` (R214, R215). -/
def tblCmd (m : Nat) (via : Option Nat) (h op t : Nat) (c : Chip) : Chip :=
  let st := Fd.TBL_CMD_STATUS
  let i := c.get Fd.TBL_CMD_IDX_INDEX h 0
  let size := c.tblSize t
  let data := c.slotData h t
  let usesIdx := decide (op = opNEXT) || (decide (op = opSEARCH ∨ op = opDELETE ∨ op = opINSERT) && c.byIndex h op t)
  let bad := decide (op = 0 ∨ 7 < op) || decide (size = 0) || (decide (op = opAGE ∨ op = opFLUSHPORT) && decide (t ≠ tFDB)) ||
    (usesIdx && decide (size ≤ i)) ||
    (decide (op = opFLUSHPORT) && (c.hport h (c.get Fd.TBL_CMD_ARG_PORT h 0)).isNone) ||
    (decide (op = opINSERT) && (c.badData t i data || (c.wordsIn h t data).isNone))
  c.command st h 0 m (addrOf .TBL_CMD h 0) (fun c => c.set Fd.TBL_CMD_TABLE h 0 t)
    [(decide (2 ≤ t) && !c.priv m, sPRIV), (c.foreignCmd h op t, sPRIV), (c.issueStale via, sSTALE),
     (c.stopped 5 h, sQUIESCE),
     (decide (t = tGROUTE ∧ (op = opINSERT ∨ op = opDELETE ∨ op = opFLUSHHALL)), sSTATE), (bad, sARG)]
    (fun c =>
      let c1 := (List.range 16).foldl (fun c w => c.set Fd.TBL_RES_RES h w 0) (c.set st h 0 sBUSY)
      let c2 := ((c1.set Fd.TBL_RES_INFO_RESULT_VALID h 0 0).set Fd.TBL_RES_INFO_REPLACED h 0 0).set
        Fd.TBL_RES_INFO_INDEX_OR_COUNT h 0 0
      { c2 with jobs := c2.jobs.ins h { op := op, table := t, gen := c2.gen h } })

/-! ## Execution -/

/-- A result: its status, the words returned, the index or count, REPLACED. -/
structure TblRes where
  status : Nat
  words : List Nat
  num : Nat
  replaced : Bool

def TblRes.fail (s : Nat) : TblRes := { status := s, words := [], num := 0, replaced := false }
def TblRes.at_ (i : Nat) : TblRes := { status := sDONE, words := [], num := i, replaced := false }

/-- The answer that returns entry `i` of a table as hall `h` numbers it. -/
def Chip.tblShow (c : Chip) (h t i : Nat) : TblRes :=
  { TblRes.at_ (c.ofIndex h t i) with words := c.wordsOut h t ((c.entry t i).getD []) }

/-- The entry that SEARCH and DELETE name. -/
def Chip.cmdEntry (c : Chip) (h op t : Nat) : Option Nat × Chip :=
  if c.byIndex h op t then
    let i := c.cmdIndex h t
    let c1 := c.eccRead t i
    (if (c1.entry t i).isSome then some i else none, c1)
  else c.keyFind t (c.opKey h t)

/-- Clear the valid bit of an entry: an update of part of it (R193). -/
def Chip.clearEntry (c : Chip) (t i : Nat) : Nat × Chip :=
  match c.modify t i (tblInvalid t) with
  | some c1 => (sDONE, c1.delEntry t i)
  | none => (sECC, c.eccDiscard t i)

/-- The entries that a flush removes. -/
def Chip.flushSet (c : Chip) (h op t : Nat) : List Nat :=
  let hall := c.argHall h
  let stat := c.flag Fd.TBL_CMD_ARG_STATIC h 0
  (c.entries t).filter (fun i =>
    let ws := (c.entry t i).getD []
    decide (c.entryHall t i = hall) && (decide (t ≠ tFDB) || stat || !fdbStatic ws) &&
      (decide (op ≠ opFLUSHPORT) ||
        (decide (fdbKind ws = 0) &&
          ((c.hport h (c.get Fd.TBL_CMD_ARG_PORT h 0)).map (fun n => decide (n ∈ c.fdbPorts ws))).getD false)))

/-- Remove entries: how many, and whether an uncorrectable error has discarded an update (R193). -/
def Chip.delAll (c : Chip) (t : Nat) (is : List Nat) : Nat × Bool × Chip :=
  is.foldl (fun (a : Nat × Bool × Chip) i =>
    let r := a.2.2.clearEntry t i
    if r.1 = sDONE then (a.1 + 1, a.2.1, r.2) else (a.1, true, r.2)) (0, false, c)

/-- What a flush or a pass returns: the count, or ECC_ERR (R193). -/
def TblRes.count (r : Nat × Bool × Chip) : TblRes × Chip := (if r.2.1 then TblRes.fail sECC else TblRes.at_ r.1, r.2.2)

/-- INSERT (R191, R216, R341): into a hashed table a valid entry, whatever VALID its image has (log 73). -/
def Chip.tblPut (c : Chip) (h t : Nat) (ws : List Nat) : TblRes × Chip :=
  let hall := (dataHall t ws).getD (c.argHall h)
  let own (c : Chip) (i : Nat) : Chip := { c with tblHall := c.tblHall.put 0 t i (if (dataHall t ws).isSome then 0 else hall) }
  let full : Bool := tblValid t ws && decide (c.tblQuota t hall ≤ c.tblUse t hall)
  if tblHashed t then
    let ws := wset ws 0 31 31 1
    let f := c.keyFind t (keyBytes t ws)
    match f.1 with
    | some i => ({ TblRes.at_ i with replaced := true }, own (f.2.putEntry t i ws) i)
    | none =>
      if decide (f.2.tblQuota t hall ≤ f.2.tblUse t hall) then (TblRes.fail sNOSPACE, f.2)
      else
        match f.2.hashPlace t (f.2.tblSize t) (keyBytes t ws) with
        | none => (TblRes.fail sNOSPACE, f.2)
        | some i => (TblRes.at_ i, own (f.2.putEntry t i ws) i)
  else
    let i := c.cmdIndex h t
    let mine := (c.entry t i).isSome && decide (c.entryHall t i = hall)
    if !mine && full then (TblRes.fail sNOSPACE, c) else (TblRes.at_ (c.ofIndex h t i), own (c.putEntry t i ws) i)

/-! ## The ager (R209) -/

/-- AGE_S in ns, a quarter of it. -/
def Chip.agePeriod (c : Chip) : Nat := max 10 (min 1000000 (c.get Fd.TBL_AGE_CTRL_AGE_S 0 0)) * 250000000

/-- The ager visits one entry: how many it deletes, and whether an error discards its update; a frozen hall's entries are skipped
(R358). -/
def Chip.ageEntry (c : Chip) (i : Nat) : Nat × Bool × Chip :=
  match c.entry tFDB i with
  | none => (0, false, c)
  | some ws =>
    if fdbStatic ws || decide (c.hallState (fdbHall ws) = 3) then (0, false, c)
    else if bitOf (ws.getD 4 0) 31 then (0, c.updateEcc tFDB i (fun w => wset (wset w 4 31 31 0) 4 2 0 0))
    else if 4 ≤ wb ws 4 2 0 + 1 then
      let r := c.clearEntry tFDB i
      if r.1 = sDONE then (1, false, r.2.fdbEvt eAGED (fdbHall ws)) else (0, true, r.2)
    else (0, c.updateEcc tFDB i (fun w => wset w 4 2 0 (wb w 4 2 0 + 1)))

/-- A pass over some entries; how many it deleted, and whether an error has discarded an update. -/
def Chip.ageOver (c : Chip) (is : List Nat) : Nat × Bool × Chip :=
  is.foldl (fun (a : Nat × Bool × Chip) i => let r := a.2.2.ageEntry i; (a.1 + r.1, a.2.1 || r.2.1, r.2.2)) (0, false, c)

/-- One pass. -/
def Chip.agePass (c : Chip) : Nat × Bool × Chip := c.ageOver (c.entries tFDB)

/-- When the pass after one due at `due` starts: a period on, past those that ENABLE has let go by. -/
def Chip.agerAfter (c : Chip) (due : Nat) : Nat := due + c.agePeriod * ((c.ns - due) / c.agePeriod + 1)

/-- AGER_PASS: with ENABLE = 1, every AGE_S / 4 seconds of device time. -/
def agerPass (c : Chip) : Chip :=
  if !c.flag Fd.TBL_AGE_CTRL_ENABLE 0 0 || !c.running || c.imageOff || decide (c.ns < c.agerNext) then c
  else { c.agePass.2.2 with agerNext := c.agerAfter (if c.agerNext = 0 then c.ns else c.agerNext) }

/-- NEXT: of the entries of table `t` in turn, each read (R192), the first that belongs to `hall`. -/
def Chip.nextScan (t hall : Nat) : List Nat → Chip → Option Nat × Chip
  | [], c => (none, c)
  | i :: is, c =>
    let c1 := c.eccRead t i
    if (c1.entry t i).isSome && decide (c1.entryHall t i = hall) then (some i, c1) else Chip.nextScan t hall is c1

/-- The valid entries of table `t` from the index that slot `h` names on, as that hall numbers them. -/
def Chip.nextList (c : Chip) (h t : Nat) : List Nat :=
  let from_ := c.get Fd.TBL_CMD_IDX_INDEX h 0
  if t = tMCAST ∧ h ≠ 0 then
    ((List.range (c.tblSize t)).filter (fun l => decide (from_ ≤ l))).filterMap (fun l =>
      let i := c.groupDev h l
      if (c.entry t i).isSome then some i else none)
  else (c.entries t).filter (fun i => decide (from_ ≤ i))

/-- The command of slot `h` runs. -/
def Chip.tblExec (c : Chip) (h op t : Nat) : TblRes × Chip :=
  match op with
  | 1 =>
    let f := c.cmdEntry h op t
    match f.1 with
    | none => (TblRes.fail sNOTFOUND, f.2)
    | some i => (f.2.tblShow h t i, f.2)
  | 2 =>
    let f := Chip.nextScan t (c.argHall h) (c.nextList h t) c
    match f.1 with
    | none => (TblRes.fail sNOTFOUND, f.2)
    | some i => (f.2.tblShow h t i, f.2)
  | 3 =>
    match c.wordsIn h t (c.slotData h t) with
    | none => (TblRes.fail sARG, c)
    | some ws => c.tblPut h t ws
  | 4 =>
    if c.byIndex h op t then
      let i := c.cmdIndex h t
      if tblHashed t && (c.entry t i).isNone then (TblRes.fail sNOTFOUND, c)
      else
        let r := c.clearEntry t i
        (if r.1 = sDONE then TblRes.at_ (c.ofIndex h t i) else TblRes.fail r.1, r.2)
    else
      let f := c.cmdEntry h op t
      match f.1 with
      | none => (TblRes.fail sNOTFOUND, f.2)
      | some i =>
        let r := f.2.clearEntry t i
        (if r.1 = sDONE then TblRes.at_ i else TblRes.fail r.1, r.2)
  | 7 =>
    let r := TblRes.count c.agePass
    (r.1, { r.2 with agerNext := r.2.ns + r.2.agePeriod })
  | _ => TblRes.count (c.delAll t (c.flushSet h op t))

/-- What a flush or a pass has done when its hall's generation changes: it stops at the next entry, and how many it has come to is
free (R219). -/
def Chip.tblPart (c : Chip) (h : Nat) (j : TblJob) : Chip :=
  let f := c.free
  if j.op = opAGE then
    let is := f.2.entries tFDB
    (f.2.ageOver (is.take (f.1 % (is.length + 1)))).2.2
  else if j.op = opFLUSHPORT ∨ j.op = opFLUSHHALL then
    let is := f.2.flushSet h j.op j.table
    (f.2.delAll j.table (is.take (f.1 % (is.length + 1)))).2.2
  else c

/-- A command whose hall's generation has changed: no result; the log and the count show it (R219, R344). -/
def Chip.tblStale (c0 : Chip) (h : Nat) (j : TblJob) : Chip :=
  let c := c0.tblPart h j
  let c1 := (((c.set Fd.TBL_CMD_LOG_STATUS h 0 sSTALE).set Fd.TBL_CMD_LOG_HALL h 0 h).set Fd.TBL_CMD_LOG_OP h 0 j.op).set
    Fd.TBL_CMD_LOG_GEN h 0 j.gen
  (({ c1 with jobs := c1.jobs.del h }).cntSat Fd.TBL_STALE_CNT_COUNT h 0 1).set Fd.TBL_CMD_STATUS h 0 sSTALE

/-- TBL_CMD_COMPLETE: the engine finishes the command of slot `h`. -/
def tblCmdComplete (h : Nat) (c : Chip) : Chip :=
  match c.jobs.find h with
  | none => c
  | some j =>
    if j.gen ≠ c.gen h then c.tblStale h j
    else
      let r := ({ c with jobs := c.jobs.del h }).tblExec h j.op j.table
      let c1 := r.2.outcome Fd.TBL_CMD_STATUS h 0 r.1.status
      if r.1.status ≠ sDONE then c1
      else
        let c2 := (List.range 16).foldl (fun c w => c.set Fd.TBL_RES_RES h w (r.1.words.getD w 0)) c1
        ((c2.set Fd.TBL_RES_INFO_RESULT_VALID h 0 1).set Fd.TBL_RES_INFO_REPLACED h 0 (b2n r.1.replaced)).set
          Fd.TBL_RES_INFO_INDEX_OR_COUNT h 0 r.1.num

/-! ## TCAM commands (R170 to R172, R177) -/

/-- FWD, QUEUE and MIRROR of an action word name only resources of hall `own` (R177). -/
def Chip.actOwned (c : Chip) (p own : Nat) (ws : List Nat) : Bool :=
  let tgt := wb ws 3 23 0
  let portOk (n : Nat) : Bool := decide (n < 96) && c.hallHas own n
  let groupOk (g : Nat) : Bool := (c.entry tMCAST g).isNone || decide (c.entryHall tMCAST g = own)
  let fwd := match wb ws 3 31 30 with
    | 0 => true
    | 1 => portOk (tgt % 128)
    | 2 => groupOk (tgt % 65536)
    | _ =>
      (List.range (2 ^ min 8 (bits 23 20 tgt))).all (fun k =>
        let i := (tgt % 16384 + k) % 16384
        !c.flag Fd.TBL_HASHIND_VALID p i ||
          (match c.get Fd.TBL_HASHIND_KIND p i with
           | 0 => portOk (c.get Fd.TBL_HASHIND_TARGET p i % 128)
           | 1 => groupOk (c.get Fd.TBL_HASHIND_TARGET p i % 65536)
           | _ => true))
  let queue := !bitOf (ws.getD 0 0) 16 ||
    ((List.range 96).any (fun n => c.hallHas own n) &&
      (List.range 96).all (fun n => !c.hallHas own n || decide (c.qOwner n (wb ws 0 15 8) = own)))
  let s := wb ws 0 27 24
  let mirror := decide (s = 0) ||
    (if c.flag Fd.ATR_MIR_CTRL_DEST_KIND (s - 1) 0 then decide (c.get Fd.ATR_MIR_CTRL_HALL (s - 1) 0 = own)
     else portOk (c.get Fd.ATR_MIR_CTRL_DEST_PORT (s - 1) 0))
  fwd && queue && mirror

/-- An action word of hall `h` as the device numbers ports and groups. -/
def Chip.actionIn (c : Chip) (h : Nat) (ws : List Nat) : List Nat :=
  if h ≠ 0 ∧ wb ws 3 31 30 = 1 then wset ws 3 6 0 ((c.hport h (wb ws 3 6 0)).getD 127)
  else if wb ws 3 31 30 = 2 then wset ws 3 15 0 (c.groupDev h (wb ws 3 15 0))
  else ws

/-- The staged action word as the device numbers ports: hall `h` names local ports through its window. -/
def Chip.stagedAction (c : Chip) (h p : Nat) : List Nat :=
  c.actionIn h ((List.range 8).map (fun w => c.get Fd.PIP_TCAM_STAGE_DATA p (40 + w)))

/-- An action word as hall `h` numbers ports and groups. -/
def Chip.actionOut (c : Chip) (h : Nat) (ws : List Nat) : List Nat :=
  if h = 0 then ws
  else if wb ws 3 31 30 = 1 then wset ws 3 6 0 (c.toLocal h (wb ws 3 6 0))
  else if wb ws 3 31 30 = 2 then wset ws 3 15 0 (c.groupLocal h (wb ws 3 15 0))
  else ws

/-- Rows of bank `p` that hall `own` holds. -/
def Chip.rowsOwned (c : Chip) (p own : Nat) : Nat :=
  (c.tcam.filter (fun e => decide (e.1.1 = p) && e.2.valid && decide (e.2.owner = own))).length

/-- A write of PIP_p_TCAM_CMD: 1 WRITE, 2 INVALIDATE, 3 READ; `h` the hall whose window carries it (R171). -/
def tcamCmd (m : Nat) (via : Option Nat) (h p op layout owner row : Nat) (c : Chip) : Chip :=
  let st := Fd.PIP_TCAM_CMD_STATUS
  let own := if h = 0 then owner else h
  let held := c.tcam.find p row
  let foreign := decide (h ≠ 0) && (decide (c.get Fd.GLB_QUOTA_W3_TCAM h 0 = 0) ||
    (held.map (fun r => r.valid && decide (r.owner ≠ h))).getD false)
  let defined := (c.img.inForce.bind (fun im => im.layouts.find p layout)).isSome
  c.command st p 0 m (addrOf .PIP_TCAM_CMD p 0)
    (fun c => ((c.set Fd.PIP_TCAM_CMD_LAYOUT p 0 layout).set Fd.PIP_TCAM_CMD_OWNER p 0 own).set Fd.PIP_TCAM_CMD_ROW p 0 row)
    [((decide (h = 0) && !c.priv m) || foreign, sPRIV), (c.issueStale via, sSTALE), (c.isFenced 1 p || c.isFenced 2 p, sFENCED),
     (c.stopped 5 h, sQUIESCE),
     (decide (6143 < row ∨ op = 0 ∨ 3 < op) || !defined ||
       (decide (op = 1 ∧ own ≠ 0) && !c.actOwned p own (c.stagedAction h p)), sARG)]
    (fun c =>
      let mine := (held.map (fun r => r.valid && decide (r.owner = own))).getD false
      if op = 1 ∧ !mine ∧ c.get Fd.GLB_QUOTA_W3_TCAM own 0 ≤ c.rowsOwned p own then c.set st p 0 sNOSPACE
      else
        let c1 : Chip := match held with
          | some r => if op = 1 then { c with tcam := c.tcam.ins p row { r with valid := false } } else c
          | none => c
        (c1.setPipe p { c1.pipe p with tcamOp := some (op, layout, own + 32 * h, row) }).set st p 0 sBUSY)

/-- The words of a number of 640 bits, the most significant first. -/
def words20 (v : Nat) : List Nat := (List.range 20).map (fun w => v / 2 ^ (32 * (19 - w)) % 2 ^ 32)

/-- A number of 640 bits from its words. -/
def num640 (ws : List Nat) : Nat := ws.foldl (fun a w => a * 2 ^ 32 + w % 2 ^ 32) 0

/-- TCAM_CMD_COMPLETE of bank `p`. The row is written valid last; a row that nothing has written reads 0. -/
def tcamCmdComplete (p : Nat) (c : Chip) : Chip :=
  let st := Fd.PIP_TCAM_CMD_STATUS
  match (c.pipe p).tcamOp with
  | none => c
  | some (op, layout, ho, row) =>
    let own := ho % 32
    let h := ho / 32
    let c1 := c.setPipe p { c.pipe p with tcamOp := none }
    let held := c1.tcam.find p row
    let stage (a n : Nat) : Nat := num640 ((List.range n).map (fun w => c1.get Fd.PIP_TCAM_STAGE_DATA p (a + w)))
    match op with
    | 1 =>
      let e := c1.flt.eccNext.get 0 2 p
      let r : TcamRow := { valid := true, layout := layout, owner := own, value := stage 0 20, mask := stage 20 20,
                           action := wset (actClean (c1.stagedAction h p)) 7 4 0 own, err := e }
      ({ c1 with tcam := c1.tcam.ins p row r, flt := { c1.flt with eccNext := c1.flt.eccNext.put 0 2 p 0 } }).set st p 0 sDONE
    | 2 =>
      (match held with
       | some r => { c1 with tcam := c1.tcam.ins p row { r with valid := false } }
       | none => c1).set st p 0 sDONE
    | _ =>
      let ws := match held with
        | some r => words20 r.value ++ words20 r.mask ++ c1.actionOut h r.action
        | none => []
      let c2 := (List.range 48).foldl (fun c w => c.set Fd.PIP_TCAM_STAGE_DATA p w (ws.getD w 0)) c1
      c2.set st p 0 (if (held.map (fun r => decide (r.err ≠ 0))).getD false then sECC else sDONE)

/-! ## The commands' meanings -/

/-- A write of a slot's register by master `m` through the window of hall `h` (0: the native slot). -/
def State.slotWrite (s : State) (m h : Nat) (r : R) (i j : Nat) (k : Bool → Chip → Chip) : Host.Outcome State Fault Refusal :=
  .next (s.onChip (fun c => c.withWrite m (slotVia m h) r i j k))

/-- TCAM_WRITE. -/
def execTcamWrite (m h p layout owner row : Nat) (s : State) : Host.Outcome State Fault Refusal :=
  s.slotWrite m h .PIP_TCAM_CMD p 0 (fun _ => tcamCmd m (slotVia m h) h p 1 layout owner row)
/-- TCAM_INVALIDATE. -/
def execTcamInvalidate (m h p layout owner row : Nat) (s : State) : Host.Outcome State Fault Refusal :=
  s.slotWrite m h .PIP_TCAM_CMD p 0 (fun _ => tcamCmd m (slotVia m h) h p 2 layout owner row)
/-- TCAM_READ. -/
def execTcamRead (m h p layout owner row : Nat) (s : State) : Host.Outcome State Fault Refusal :=
  s.slotWrite m h .PIP_TCAM_CMD p 0 (fun _ => tcamCmd m (slotVia m h) h p 3 layout owner row)
/-- TCAM_CMD_COMPLETE. -/
def execTcamCmdComplete (p : Nat) (s : State) : Host.Outcome State Fault Refusal := .next (s.onChip (tcamCmdComplete p))
/-- SEARCH. -/
def execTblSearch (m h table : Nat) (s : State) : Host.Outcome State Fault Refusal :=
  s.slotWrite m h .TBL_CMD h 0 (fun _ => tblCmd m (slotVia m h) h opSEARCH table)
/-- NEXT. -/
def execTblNext (m h table : Nat) (s : State) : Host.Outcome State Fault Refusal :=
  s.slotWrite m h .TBL_CMD h 0 (fun _ => tblCmd m (slotVia m h) h opNEXT table)
/-- INSERT. -/
def execTblInsert (m h table : Nat) (s : State) : Host.Outcome State Fault Refusal :=
  s.slotWrite m h .TBL_CMD h 0 (fun _ => tblCmd m (slotVia m h) h opINSERT table)
/-- DELETE. -/
def execTblDelete (m h table : Nat) (s : State) : Host.Outcome State Fault Refusal :=
  s.slotWrite m h .TBL_CMD h 0 (fun _ => tblCmd m (slotVia m h) h opDELETE table)
/-- FLUSH_PORT. -/
def execTblFlushPort (m h table : Nat) (s : State) : Host.Outcome State Fault Refusal :=
  s.slotWrite m h .TBL_CMD h 0 (fun _ => tblCmd m (slotVia m h) h opFLUSHPORT table)
/-- FLUSH_HALL. -/
def execTblFlushHall (m h table : Nat) (s : State) : Host.Outcome State Fault Refusal :=
  s.slotWrite m h .TBL_CMD h 0 (fun _ => tblCmd m (slotVia m h) h opFLUSHHALL table)
/-- AGE. -/
def execTblAge (m h table : Nat) (s : State) : Host.Outcome State Fault Refusal :=
  s.slotWrite m h .TBL_CMD h 0 (fun _ => tblCmd m (slotVia m h) h opAGE table)
/-- TBL_CMD_COMPLETE. -/
def execTblCmdComplete (h : Nat) (s : State) : Host.Outcome State Fault Refusal := .next (s.onChip (tblCmdComplete h))
/-- AGER_PASS. -/
def execAgerPass (s : State) : Host.Outcome State Fault Refusal := .next (s.onChip agerPass)

end Sys2Proof.Machine
end

