-- ==== Sys2Proof/Machine/Gallery.lean ====
section
/-! DEFINITION. The gallery unit (R308 to R328): hellos and adjacency, reports and the view, election, epochs in two phases,
the route table that an epoch gives, spray entries. The wire layout of reports and of epoch frames is not stated, so what the
unit sends of them stands in `gal.sent` and `gal.repSent` (log 40). -/

namespace Sys2Proof.Machine

/-- The unit takes part in a gallery. -/
def Chip.galOn (c : Chip) : Bool := c.galEnabled && c.running && !c.noImage

/-- The unit may start hellos, epochs and sprays: GALLERY runs (R60). -/
def Chip.galRuns (c : Chip) : Bool := c.galOn && !c.stopping 4 0

/-- Stair link `k` exists, and its port is UP. -/
def Chip.stairOpen (c : Chip) (k : Nat) : Bool :=
  decide (k < 32) && c.stairValid k && decide (c.link (c.stairPort k) = lUP) && !c.isFenced 4 k

/-! ## Stair links written (R309, R316) -/

/-- Hellos start on link `k`. -/
def Chip.stairProbe (c : Chip) (k : Nat) : Chip :=
  if c.galEnabled && c.stairOpen k && decide (c.stairState k = glDOWN) then c.setStair k glPROBE else c

/-- The state that the configuration of link `k` gives, after a write that changed it. -/
def Chip.stairRecheck (c : Chip) (k : Nat) : Chip := (c.withView (fun c => c.setStair k glDOWN)).stairProbe k

/-- ADMIT: the identity held in NBR_ID is admitted. -/
def Chip.admitLink (c : Chip) (k : Nat) : Chip :=
  if c.stairState k = glWAIT then c.withView (fun c => c.setStair k glUP) else c

/-- The port that a write of CFG names may not be a stair link's. -/
def Chip.stairTaken (c : Chip) (k n : Nat) : Bool :=
  (c.pairOf n).isSome || c.stairs.any (fun j => decide (j ≠ k ∧ c.stairPort j = n))

/-- A write of GAL_LINK_k CFG. -/
def linkCfgWrite (m : Nat) (kg : Bool) (k v : Nat) (c : Chip) : Chip :=
  if bitOf v 31 && c.stairTaken k (bits 6 0 v) then c.refuse m .GAL_LINK_CFG k 0
  else
    let c1 := c.plainWrite m kg .GAL_LINK_CFG k 0 v
    let c2 := if c1.stairValid k = c.stairValid k ∧ c1.stairPort k = c.stairPort k then c1 else c1.stairRecheck k
    if bitOf v 29 then c2.admitLink k else c2

/-- The present value of CFG, as a write that changes nothing in it carries it. -/
def Chip.linkCfg (c : Chip) (k : Nat) : Nat :=
  b2n (c.stairValid k) * 2 ^ 31 + b2n (c.flag Fd.GAL_LINK_CFG_ADMIT_MODE k 0) * 2 ^ 30 + c.stairPort k

/-- The unit forgets the gallery: every link DOWN, no role, no epoch. -/
def Chip.galLeave (c : Chip) : Chip :=
  let c1 := (c.dropHandover.idxWith Fd.GAL_LINK_STATUS_STATE).foldl (fun c k => c.setStair k glDOWN) c.dropHandover
  let c2 := (c1.entries tGROUTE).foldl (fun c i => c.delEntry tGROUTE i) c1
  ((((({ c2 with gal := { Gal.reset with mySeq := c.gal.mySeq, signSeq := c.gal.signSeq, hellos := c.gal.hellos } }).unset
    Fd.GAL_STATUS_STATE 0 0).unset Fd.GAL_STATUS_ROLE 0 0).unset Fd.GAL_STATUS_MEMBERS 0 0).unset Fd.GAL_STATUS_ADDR 0 0).unset
    Fd.GAL_EPOCH_NUMBER 0 0

/-- The unit begins: DISCOVER until another member is in view (log 41). -/
def Chip.galJoin (c : Chip) : Chip :=
  let c1 := ({ c with gal := { c.gal with viewAt := c.tim.clk } }).set Fd.GAL_STATUS_STATE 0 0 gsDISCOVER
  c1.stairs.foldl (fun c k => c.stairProbe k) c1

/-- A write of GAL_CTRL. -/
def galCtrlWrite (m : Nat) (kg : Bool) (v : Nat) (c : Chip) : Chip :=
  let c1 := c.plainWrite m kg .GAL_CTRL 0 0 v
  if c1.galEnabled = c.galEnabled then c1 else if c1.galEnabled then c1.galJoin else c1.galLeave

/-! ## Hellos (R314 to R316) -/

/-- Bytes 0 to 31 of a hello, then the key. -/
def helloSigned (h : Hello) : List Nat :=
  beBytes 16 h.dev ++ [h.prio, h.flags] ++ beBytes 2 h.req ++ beBytes 2 h.addr ++ [h.link, h.localPort] ++
    beBytes 4 h.signSeq ++ beBytes 4 h.epoch ++ beBytes 48 h.px ++ beBytes 48 h.py

/-- The 228 bytes of a hello. -/
def helloBytes (h : Hello) : List Nat := helloSigned h ++ beBytes 48 h.r ++ beBytes 48 h.s ++ beBytes 4 h.live

/-- The address that an epoch gives a device. -/
def addrIn (e : Epoch) (dev : Nat) : Option Nat := (e.recs.find? (fun r => decide (r.dev = dev))).map (fun r => r.addr)

/-- The address that the epoch in force assigns to this member, whatever its STATE. -/
def Chip.assigned (c : Chip) : Option Nat := c.gal.inForce.bind (fun e => addrIn e c.uid)

/-- What this member says of itself on link `k`, unsigned. -/
def Chip.myHello (c : Chip) (k : Nat) : Hello :=
  { dev := c.uid, prio := c.get Fd.GAL_CTRL_PRIORITY 0 0,
    flags := b2n (c.flag Fd.GAL_ADDR_REQ_L1_AUTO 0 0) * 128 + c.galDepth, req := c.get Fd.GAL_ADDR_REQ_ADDR 0 0,
    addr := (c.assigned.map (fun a => 2 ^ 15 + a)).getD 0,
    link := k, localPort := c.stairPort k, signSeq := 0, epoch := c.get Fd.GAL_EPOCH_NUMBER 0 0, px := c.idPub.1, py := c.idPub.2,
    r := 0, s := 0, live := 0 }

/-- The signature of a digest with the identity key: the per-message secret from the DRBG (R406). -/
def Chip.signId (c : Chip) (digest : Nat) : (Nat × Nat) × Chip :=
  let x := c.random 448
  (ecdsaSign p384 c.sec.idScalar (extraBitsSecret p384 x.1) digest, x.2)

/-- The hello of link `k` as it is sent now: signed again when bytes 0 to 31, SIGN_SEQ aside, differ from those of the
last one on this link (R315). While the DRBG is not seeded the last signature stays. -/
def Chip.signedHello (c : Chip) (k : Nat) : Hello × Chip :=
  let h := c.myHello k
  let content := beNat ((helloSigned h).take 32)
  let old := c.gal.hellos.find k
  match old with
  | some x =>
    if x.1 = content ∨ !c.drbgReady then ({ x.2 with live := c.gal.live }, c)
    else sign h content
  | none => sign h content
where
  sign (h : Hello) (content : Nat) : Hello × Chip :=
    let n := (c.gal.signSeq + 1) % 2 ^ 32
    let h1 : Hello := { h with signSeq := n, live := c.gal.live }
    let g := c.signId (beNat (sha384 (helloSigned h1)))
    let h2 : Hello := { h1 with r := g.1.1, s := g.1.2 }
    (h2, { g.2 with gal := { g.2.gal with signSeq := n, hellos := g.2.gal.hellos.ins k (content, h2) } })

/-- The tag of a control frame of this member (R310). -/
def Chip.ctrlTag (c : Chip) (typ dst : Nat) : GalTag :=
  { typ := typ, cls := c.get Fd.GAL_CTRL_CTRL_TC 0 0, colour := cGREEN, mcast := false, noLearn := false, warm := false,
    hops := max 1 (c.get Fd.GAL_CTRL_MAX_HOPS 0 0), src := c.galAddr * 128 + 127, dst := dst, flow := 0, seq := 0 }

/-- HELLO_TX on link `k`: none before the unit has an identity key and its first random bits. -/
def helloTx (k : Nat) (c : Chip) : Chip :=
  if !c.galRuns || !c.stairOpen k || decide (c.sec.idScalar = 0) || (!c.drbgReady && (c.gal.hellos.find k).isNone) then c
  else
    let g := c.signedHello k
    let sa := g.2.free
    let c1 : Chip := { sa.2 with gal := { sa.2.gal with live := (c.gal.live + 1) % 2 ^ 32 } }
    let d := beBytes 6 0x0180C200000E ++ beBytes 6 sa.1 ++ galTagBytes c1.galEtype (c1.ctrlTag 2 0) ++ helloBytes g.1
    ((c1.sendOwn (c1.stairPort k) 0 (c1.get Fd.GAL_CTRL_CTRL_TC 0 0) d).2).galCnt gcHELLOTX

/-- Words of the trust list (R404). -/
def Chip.trustWord (c : Chip) (i w : Nat) : Nat := c.get Fd.SEC_TRUST_WORD i w

def Chip.trustWords (c : Chip) (i lo n : Nat) : Nat := (List.range n).foldl (fun a w => a * 2 ^ 32 + c.trustWord i (lo + w)) 0

/-- The key hash that the trust list binds to a device: that of the valid entry with its DEVICE_ID. -/
def Chip.trusted (c : Chip) (dev : Nat) : Option Nat :=
  ((List.range 64).find? (fun i => bitOf (c.trustWord i 16) 31 && decide (c.trustWords i 0 4 = dev))).map (fun i => c.trustWords i 4 12)

/-- Bytes 0 to 127 of two hellos are equal. -/
def sameSigned (a b : Hello) : Bool := decide ({ a with r := b.r, s := b.s, live := b.live } = b)

/-- A hello stands (R315): equal to the last one verified from its device, or verified now. -/
def Chip.helloOk (c : Chip) (h : Hello) : Bool :=
  let last := c.gal.lastHello.find h.dev
  (last.map (fun l => sameSigned h l)).getD false ||
    (ecdsaVerify p384 h.px h.py (beNat (sha384 (helloSigned h))) h.r h.s && decide (c.trusted h.dev = some (keyHashOf h.px h.py)) &&
      decide (((last.map (fun l => l.signSeq)).getD 0) ≤ h.signSeq))

/-- The neighbour of link `k`, as a verified hello shows it. -/
def Chip.noteNbr (c : Chip) (k : Nat) (h : Hello) : Chip :=
  ({ c with gal := { c.gal with linkNbr := c.gal.linkNbr.put 0 k h.dev } }).set Fd.GAL_LINK_STATUS_NBR_PORT k 0
    (h.addr % 4096 * 128 + h.localPort % 128)

/-- A copy of a hello to hall 0's exception ring, REASON 5 (R316, R356). What the hello's frame held ahead of its payload is
not in the command: free values. -/
def Chip.helloToHost (c : Chip) (k : Nat) (h : Hello) : Chip :=
  let x := c.free
  let y := x.2.free
  let d := beBytes 6 0x0180C200000E ++ beBytes 6 x.1 ++ beBytes 2 c.galEtype ++ [18] ++ beBytes 13 y.1 ++ helloBytes h
  let f : Frame := { c.newRx (c.stairPort k) c.tim.devT d d with
    ended := true, arrived := d.length, handed := true, staged := true, hall := 0 }
  let hd : Hdr := { parseFrame [] 0 0 16384 (c.stairPort k) true d with cls := c.get Fd.GAL_CTRL_CTRL_TC 0 0 }
  let z := y.2.newFrame f
  let dl := z.2.deadline hd { kind := 0, num := 0, den := 1 } f.inRef hd.cls
  let w : Want := { n := 128, q := c.get Fd.HAL_RX_CFG_EXC_RING 0 0,
                    copy := { fid := z.1, kind := 1, reason := 5, cls := hd.cls, colour := cGREEN, dl := none,
                              edit := Edit.plain, sess := 0, out := 0, seqDone := false } }
  let r := z.2.admission z.1 f hd 0 hd.cls dl [w] []
  if r.1 then r.2 else r.2.delFrame z.1

/-- A verified hello takes a link out of PROBE, AUTH_FAIL or LOST. -/
def Chip.helloJoin (c : Chip) (k : Nat) (h : Hello) : Chip :=
  let c1 := c.noteNbr k h
  if c.flag Fd.GAL_LINK_CFG_ADMIT_MODE k 0 then (c1.setStair k glWAIT).helloToHost k h else c1.setStair k glUP

/-- HELLO_RX on link `k` (R316). -/
def helloRx (k : Nat) (h : Hello) (c : Chip) : Chip :=
  if !c.galOn || !c.stairOpen k then c
  else
    let s := c.stairState k
    let c0 := c.galCnt gcHELLORX
    if !c.helloOk h then
      let c1 := c0.galCnt gcAUTHFAIL
      if s = glPROBE ∨ s = glWAIT ∨ s = glUP then c1.withView (fun c => c.setStair k glFAIL) else c1
    else
      let c1 : Chip := { c0 with gal := { c0.gal with lastHello := c0.gal.lastHello.ins h.dev h } }
      c1.withView (fun c =>
        if s = glPROBE ∨ s = glFAIL ∨ s = glLOST then c.helloJoin k h
        else if s = glUP then (if c.nbr k = h.dev then c.noteNbr k h else c.setStair k glPROBE)
        else if s = glWAIT ∧ c.nbr k = h.dev then c.noteNbr k h
        else c)

/-- STAIR_LINK_LOST: HELLO_LOSS consecutive hellos missed, or the port has left UP (R316). -/
def stairLinkLost (k : Nat) (c : Chip) : Chip := if k < 32 ∧ c.stairState k = glUP then c.stairLost k else c

/-! ## Reports and election (R317, R318) -/

/-- REPORT_TX: this member's report leaves on every link that is UP, under the next REPORT_SEQ. -/
def reportTx (c : Chip) : Chip :=
  if !c.galRuns || !c.stairs.any c.stairUp then c
  else
    let c1 : Chip := { c with gal := { c.gal with mySeq := (c.gal.mySeq + 1) % 2 ^ 32 } }
    { c1 with gal := { c1.gal with repSent := some c1.ownReport } }

/-! ## Epochs (R319 to R322) -/

/-- Body bytes of an epoch. -/
def epochBody (recs : List EpochRec) : List Nat :=
  (recs.map (fun r => beBytes 2 r.addr ++ [r.flags % 256, r.links.length % 256] ++ beBytes 16 r.dev ++
    (r.links.map (fun l => [l.1 % 256] ++ beBytes 2 l.2.1 ++ [l.2.2 % 256])).flatten)).flatten

/-- Records read back from a body: `n` bounds them. -/
def epochRecs : Nat → List Nat → List EpochRec
  | 0, _ => []
  | n + 1, d =>
    if d.length < 20 then []
    else
      let k := d.getD 3 0
      { addr := beAt d 0 2, flags := d.getD 2 0, dev := beAt d 4 16,
        links := (List.range k).map (fun i => (d.getD (20 + 4 * i) 0, beAt d (21 + 4 * i) 2, d.getD (23 + 4 * i) 0)) } ::
        epochRecs n (d.drop (20 + 4 * k))

/-- What a CLOSE signs: NUMBER, members, length, APPLY_AT, digest and key, in that order (log 42). -/
def closeBytes (number members len applyAt digest px py : Nat) : List Nat :=
  beBytes 4 number ++ beBytes 2 members ++ beBytes 4 len ++ beBytes 8 applyAt ++ beBytes 48 digest ++ beBytes 48 px ++ beBytes 48 py

/-- The frames of an epoch towards member address `dst`, signed with this member's key. -/
def Chip.epochFrames (c : Chip) (dst : Nat) (e : Epoch) : List EpochFrame × Chip :=
  let body := epochBody e.recs
  let n := cdiv body.length 1024
  let digest := beNat (sha384 body)
  let g := c.signId (beNat (sha384 (closeBytes e.number e.recs.length body.length e.applyAt digest c.idPub.1 c.idPub.2)))
  ((List.range n).map (fun i => EpochFrame.seg dst e.number i n (((body.drop (1024 * i)).take 1024).map (fun b => BitVec.ofNat 8 b))) ++
    [EpochFrame.close dst e.number e.recs.length body.length e.applyAt digest c.idPub.1 c.idPub.2 g.1.1 g.1.2], g.2)

/-- Members in ascending rank, by insertion. -/
def insRank (r : Report) : List Report → List Report
  | [] => [r]
  | x :: l => if lowerRank r x then r :: x :: l else x :: insRank r l

def byRank (v : List Report) : List Report := v.foldr insRank []

/-- Addresses by R319: those of the epoch in force first, then requests in rank order, then the lowest free A1. -/
def assign (old : List EpochRec) (depth : Nat) (v : List Report) : List (Nat × Nat) :=
  let vs := (byRank v).filter (fun r => decide (max 1 (r.flags % 4) = depth))
  let kept := vs.filterMap (fun r => (old.find? (fun x => decide (x.dev = r.dev))).map (fun x => (r.dev, x.addr)))
  let has (a : List (Nat × Nat)) (d : Nat) : Bool := a.any (fun p => decide (p.1 = d))
  let used (a : List (Nat × Nat)) (x : Nat) : Bool := a.any (fun p => decide (p.2 = x))
  let req (r : Report) : Nat := r.req % 16 ^ depth
  let asked := vs.foldl (fun a r => if has a r.dev || used a (req r) then a else a ++ [(r.dev, req r)]) kept
  vs.foldl (fun a r =>
    if has a r.dev || !bitOf r.flags 7 then a
    else
      match (List.range 16).find? (fun x => !used a (req r / 16 * 16 + x)) with
      | some x => a ++ [(r.dev, req r / 16 * 16 + x)]
      | none => a) asked

/-- Insert a record in ascending order of address. -/
def insRec (r : EpochRec) : List EpochRec → List EpochRec
  | [] => [r]
  | x :: l => if r.addr < x.addr then r :: x :: l else x :: insRec r l

/-- The records of the present view. -/
def Chip.viewRecs (c : Chip) : List EpochRec :=
  let v := c.view
  let as := assign ((c.gal.inForce.map (fun e => e.recs)).getD []) c.galDepth v
  let addrOfDev (d : Nat) : Option Nat := (as.find? (fun p => decide (p.1 = d))).map (fun p => p.2)
  (v.filterMap (fun r => (addrOfDev r.dev).map (fun a =>
    { addr := a, flags := r.flags, dev := r.dev,
      links := r.links.filterMap (fun l => (addrOfDev l.nbr).map (fun b => (l.localPort, b, l.nbrPort))) : EpochRec }))).foldr insRec []

/-- The number that a new epoch takes: one above every number in force, held or reported in the view (R327, R328). -/
def Chip.nextEpoch (c : Chip) : Nat :=
  let held := ((c.gal.stored.map (fun e => e.number)).getD 0) :: c.gal.ready.map (fun e => e.number)
  (held ++ c.view.map (fun r => r.epoch)).foldl max (c.get Fd.GAL_EPOCH_NUMBER 0 0) + 1

/-- The records of the last complete epoch that this member holds. -/
def Chip.lastRecs (c : Chip) : Option (List EpochRec) := (c.gal.stored.orElse (fun _ => c.gal.inForce)).map (fun e => e.recs)

/-- The keeper's APPLY_AT for an epoch distributed now, in ns of device time. -/
def Chip.applyAt (c : Chip) : Nat := c.ns + max 1 (c.get Fd.GAL_TIMERS_APPLY_MS 0 0) * 10 ^ 6

/-- Phase 2: the epoch goes to every member, the keeper among them. -/
def Chip.phase2 (c : Chip) (e : Epoch) : Chip :=
  let e1 : Epoch := { e with applyAt := c.applyAt }
  let g := c.epochFrames 4095 e1
  { g.2 with gal := { g.2.gal with sent := g.1, stored := some e1, ready := g.2.gal.ready ++ [e1], building := none,
                                   reissue := false, phase := 0, tries := 0 } }

/-- Phase 1: to the standby. APPLY_AT is not yet known: a free value. -/
def Chip.phase1 (c : Chip) (e : Epoch) : Chip :=
  let a := c.free
  let g := a.2.epochFrames ((addrIn e c.gal.standbyId).getD 0) { e with applyAt := a.1 % 2 ^ 64 }
  { g.2 with gal := { g.2.gal with sent := g.1, building := some e, phase := 1 } }

/-- EPOCH_BUILD: the keeper builds and signs the epoch that is due. With no standby in its view there is no phase 1. -/
def epochBuild (c : Chip) : Chip :=
  if !c.galRuns || decide (c.gal.keeper ≠ c.uid ∨ c.gal.keeper = 0 ∨ c.gal.due = 0 ∨ c.gal.phase = 1 ∨ c.sec.idScalar = 0) ||
      !c.drbgReady then c
  else
    let again := if c.gal.due = 2 then c.lastRecs else none
    let e : Epoch := { number := c.nextEpoch, recs := again.getD c.viewRecs, applyAt := 0 }
    let c1 : Chip := { c with gal := { c.gal with due := c.gal.due - 1, reissue := decide (c.gal.due = 2), tries := 0 } }
    if c.gal.standbyId = 0 then c1.phase2 e else c1.phase1 e

/-- The standby has acknowledged the epoch in transfer (R322). -/
def Chip.epochAck (c : Chip) (r : Report) : Chip :=
  match c.gal.building with
  | none => c
  | some e =>
    if c.gal.keeper = c.uid ∧ c.gal.phase = 1 ∧ r.dev = c.gal.standbyId ∧ r.ack = e.number then c.phase2 e else c

/-- EPOCH_ACK_TIMEOUT: phase 1 again, or after three failed attempts the next standby. -/
def epochAckTimeout (c : Chip) : Chip :=
  match c.gal.building with
  | none => c
  | some e =>
    if c.gal.phase ≠ 1 then c
    else if c.gal.tries < 2 then ({ c with gal := { c.gal with tries := c.gal.tries + 1 } }).phase1 e
    else
      let c0 := c.giveUpBuild
      let c1 : Chip := { c0 with gal := { c0.gal with dropped := insNew c.gal.standbyId c.gal.dropped } }
      ((({ c1 with gal := { c1.gal with standbyId := lowestBut c1.view c.uid, viewAt := c.tim.clk } }).setRole).galCnt gcSTANDBYLOST)

/-- A report in which the keeper names the member it has handed its role to: the receiver takes that member for the keeper, and
the member itself starts epochs. How the others learn of a HANDOVER is not stated: DESIGN CHOICE, log 153. -/
def Chip.followHandover (c : Chip) (r : Report) : Chip :=
  if r.passTo = 0 ∨ c.gal.keeper = 0 ∨ r.dev ≠ c.gal.keeper ∨ !c.view.any (fun x => decide (x.dev = r.passTo)) then c
  else ({ c with gal := { c.gal with keeper := r.passTo, standbyId := lowestBut c.view r.passTo, due := if r.passTo = c.uid then 1 else 0,
                                     phase := 0, handedTo := if r.passTo = c.uid then 0 else c.gal.handedTo } }).setRole

/-- REPORT_RX from link `k`. -/
def reportRx (k : Nat) (r : Report) (c : Chip) : Chip :=
  if !c.galOn || !c.stairOpen k || decide (c.stairState k ≠ glUP ∨ r.dev = c.uid) then c
  else
    match c.gal.reports.find r.dev with
    | some x => if r.seq ≤ x.seq then c else take r
    | none => take r
where
  take (r : Report) : Chip :=
    ((c.withView (fun c =>
      { c with gal := { c.gal with reports := c.gal.reports.ins r.dev r, repTime := c.gal.repTime.put 0 r.dev c.tim.clk,
                                   repSent := some r } })).epochAck r).followHandover r

/-- REPORT_EXPIRE: a report not refreshed for 400 ms. -/
def reportExpire (dev : Nat) (c : Chip) : Chip :=
  if (c.gal.reports.find dev).isNone ∨ c.tim.clk < c.gal.repTime.get 0 dev + 400 * 10 ^ 6 then c
  else c.withView (fun c =>
    { c with gal := { c.gal with reports := c.gal.reports.del dev, repTime := c.gal.repTime.del dev, dropped := without dev c.gal.dropped } })

/-- The members among which the keeper is found: a member that joins a gallery in service finds it among those that report an
epoch in force (log 43). -/
def Chip.electors (c : Chip) : List Report :=
  let v := c.view
  let old := v.filter (fun r => decide (r.epoch ≠ 0))
  if c.get Fd.GAL_EPOCH_NUMBER 0 0 = 0 ∧ old ≠ [] then old else v

/-- ELECT_SETTLE: the view has not changed for SETTLE_MS. -/
def electSettle (c : Chip) : Chip :=
  if !c.galOn || decide (c.galState ≠ gsELECT ∨ c.tim.clk < c.gal.viewAt + max 1 (c.get Fd.GAL_TIMERS_SETTLE_MS 0 0) * 10 ^ 6) then c
  else
    let k := ((lowest c.electors).map (fun r => r.dev)).getD 0
    let c1 : Chip := { c with gal := { c.gal with keeper := k, standbyId := lowestBut c.view k, due := if k = c.uid then 1 else 0,
                                                   phase := 0, handedTo := 0 } }
    ((c1.setRole).set Fd.GAL_STATUS_STATE 0 0 gsJOINED).set Fd.GAL_STATUS_MEMBERS 0 0
      ((c.gal.inForce.map (fun e => e.recs.length)).getD 1)

/-- Back to ELECT from ORPHAN (R328). -/
def Chip.reelect (c : Chip) : Chip :=
  (({ c with gal := { c.gal with viewAt := c.tim.clk } }).set Fd.GAL_STATUS_STATE 0 0 gsELECT).set Fd.GAL_STATUS_MEMBERS 0 0 1

/-- ORPHAN_REELECT. -/
def orphanReelect (c : Chip) : Chip :=
  if c.galOn && c.flag Fd.GAL_CTRL_AUTO_REELECT 0 0 && decide (c.galState = gsORPHAN) then c.reelect else c

/-- A write of GAL_CMD: 1 ELECT, in ORPHAN only; 2 HANDOVER, at the keeper only. HANDOVER reads BUSY until the role has
passed. -/
def galCmd (m op : Nat) (c : Chip) : Chip :=
  let st := Fd.GAL_CMD_STATUS
  c.command st 0 0 m (addrOf .GAL_CMD 0 0) id
    [(decide (op = 1) && decide (c.galState ≠ gsORPHAN), sSTATE),
     (decide (op = 2) && decide (c.gal.keeper ≠ c.uid ∨ c.gal.keeper = 0), sSTATE),
     (decide (op = 0 ∨ 2 < op), sARG)]
    (fun c => if op = 1 then c.reelect.set st 0 0 sDONE
      else ({ c with gal := { c.gal with handover := true } }).set st 0 0 sBUSY)

/-! ## Receiving an epoch (R321, R322) -/

def frDst : EpochFrame → Nat
  | .seg d _ _ _ _ => d
  | .close d _ _ _ _ _ _ _ _ _ => d

def frNumber : EpochFrame → Nat
  | .seg _ n _ _ _ => n
  | .close _ n _ _ _ _ _ _ _ _ => n

/-- A frame's place in its epoch; the close comes after every segment. Phase 2 counts apart from phase 1 (log 44). -/
def frPlace : EpochFrame → Nat
  | .seg d _ i _ _ => (if d = 4095 then 2 ^ 32 else 0) + i
  | .close d _ _ _ _ _ _ _ _ _ => (if d = 4095 then 2 ^ 32 else 0) + 2 ^ 31

/-- The frame is for this member. Before a first epoch no member has an address, and phase 1 is for the standby. -/
def Chip.epochMine (c : Chip) (dst : Nat) : Bool :=
  decide (dst = 4095) || (if c.get Fd.GAL_EPOCH_NUMBER 0 0 = 0 then decide (c.gal.standbyId = c.uid ∧ c.uid ≠ 0) else decide (dst = c.galAddr))

/-- The entries of the route table, by breadth-first search over the link records (R323). -/
def epochNbrs (recs : List EpochRec) (a : Nat) : List Nat :=
  match recs.find? (fun r => decide (r.addr = a)) with
  | none => []
  | some r => (r.links.map (fun l => l.2.1)).filter (fun b => recs.any (fun x => decide (x.addr = b)))

/-- Distances from the members found, `n` rounds. -/
def epochDist (recs : List EpochRec) : Nat → Nat → NMap Nat → List Nat → NMap Nat
  | 0, _, dist, _ => dist
  | n + 1, d, dist, front =>
    let next := (front.map (epochNbrs recs)).flatten.foldl (fun l b => if (dist.find b).isNone then insNew b l else l) []
    if next.isEmpty then dist
    else epochDist recs n (d + 1) (next.foldl (fun m b => m.ins b (d + 1)) dist) next

def distFrom (recs : List EpochRec) (a : Nat) : NMap Nat :=
  if recs.any (fun r => decide (r.addr = a)) then epochDist recs recs.length 0 [(a, 0)] [a] else []

/-- The parent of member `b` in the tree whose distances are `dist`: the lowest neighbour address one hop nearer. -/
def treeParent (recs : List EpochRec) (dist : NMap Nat) (b : Nat) : Option Nat :=
  match dist.find b with
  | none => none
  | some d => ((epochNbrs recs b).filter (fun a => decide (dist.find a = some (d - 1) ∧ 0 < d))).min?

/-- The mask of this member's stair links that meet a condition on (port, neighbour's address). -/
def Chip.stairMask (c : Chip) (links : List (Nat × Nat × Nat)) (p : Nat × Nat × Nat → Bool) : Nat :=
  let ks := (links.filter p).filterMap (fun l => c.stairOf l.1)
  (ks.foldl (fun l k => insNew k l) []).foldl (fun a k => a + 2 ^ k) 0

/-- The words of the entry of member `r`, whose distances from `me` are `dist`. -/
def Chip.routeWords (c : Chip) (e : Epoch) (me : EpochRec) (dist : NMap Nat) (r : EpochRec) : List Nat :=
  let d := dist.find r.addr
  let kind := if r.addr = me.addr then 1 else if d.isSome then 2 else 3
  let from_ := distFrom e.recs r.addr
  let links := if kind = 2 then c.stairMask me.links (fun l => decide (from_.find l.2.1 = d.map (fun x => x - 1))) else 0
  let kids := e.recs.filter (fun x => decide (treeParent e.recs from_ x.addr = some me.addr))
  let tree := kids.foldl (fun a x =>
    match ((me.links.filter (fun l => decide (l.2.1 = x.addr))).filterMap (fun l => c.stairOf l.1)).min? with
    | some k => a + 2 ^ k
    | none => a) 0
  [2 ^ 31 + kind * 2 ^ 29 + (d.getD 0) % 16 * 2 ^ 24 + r.addr, links, tree % 2 ^ 32, e.number,
   r.dev / 2 ^ 96 % 2 ^ 32, r.dev / 2 ^ 64 % 2 ^ 32, r.dev / 2 ^ 32 % 2 ^ 32, r.dev % 2 ^ 32]

/-- TABLE 7 from an epoch: none when the image does not carve it (R475). A member that the epoch leaves out reaches no member. -/
def Chip.deriveRoutes (c : Chip) (e : Epoch) : Chip :=
  let me : EpochRec := ((e.recs.find? (fun r => decide (r.dev = c.uid))).getD { addr := 4096, flags := 0, dev := c.uid, links := [] })
  let dist := distFrom e.recs me.addr
  let c1 := (c.entries tGROUTE).foldl (fun c i => c.delEntry tGROUTE i) c
  (e.recs.filter (fun r => decide (r.addr < c.tblSize tGROUTE))).foldl (fun c r => c.putEntry tGROUTE r.addr (c.routeWords e me dist r)) c1

/-- The keeper's role passes to the lowest member of its view (R318), and this member's next reports say so (log 153). -/
def Chip.passRole (c : Chip) : Chip :=
  if !c.gal.handover then c
  else
    let k := ((lowest c.view).map (fun r => r.dev)).getD 0
    (({ c with gal := { c.gal with handover := false, keeper := k, standbyId := lowestBut c.view k,
                                   handedTo := if k = c.uid then 0 else k, mySeq := (c.gal.mySeq + 1) % 2 ^ 32,
                                   due := if k = c.uid then c.gal.due else 0 } }).setRole).set Fd.GAL_CMD_STATUS 0 0 sDONE

/-- Apply an epoch; a takeover (R328) has ended with it. -/
def Chip.applyEpoch (c : Chip) (e : Epoch) : Chip :=
  let c1 : Chip := ({ c with gal := { c.gal with inForce := some e, phase := if c.gal.phase = 9 then 0 else c.gal.phase
                                                 seen := c.gal.seen.filter (fun x => decide (e.number < x.1)) } }).set
    Fd.GAL_EPOCH_NUMBER 0 0 e.number
  let c2 := match addrIn e c.uid with
    | some a => ((c1.set Fd.GAL_STATUS_STATE 0 0 (if c.galState = gsCONFLICT then gsJOINED else c.galState)).set Fd.GAL_STATUS_ADDR 0 0 a).set
        Fd.GAL_STATUS_MEMBERS 0 0 (if c.galState = gsJOINED ∨ c.galState = gsCONFLICT then e.recs.length else 1)
    | none => ((c1.set Fd.GAL_STATUS_STATE 0 0 gsCONFLICT).set Fd.GAL_STATUS_ADDR 0 0 0).set Fd.GAL_STATUS_MEMBERS 0 0 1
  (((c2.deriveRoutes e).galCnt gcAPPLIED)).passRole

/-- EPOCH_APPLY: the first complete epoch whose APPLY_AT has come, if it is newer than the one in force. -/
def epochApply (c : Chip) : Chip :=
  match c.gal.ready.find? (fun e => decide (e.applyAt ≤ c.ns)) with
  | none => c
  | some e =>
    let c1 : Chip := { c with gal := { c.gal with ready := c.gal.ready.filter (fun x => decide (x ≠ e)) } }
    if c.galOn && decide (c.get Fd.GAL_EPOCH_NUMBER 0 0 < e.number) then c1.applyEpoch e else c1

/-- The segments of one phase, in order, when all `n` have arrived. -/
def Chip.segBody (c : Chip) (phase n : Nat) : Option (List Nat) :=
  (List.range n).foldl (fun a i => match a, c.gal.segs.find phase i with
    | some l, some b => some (l ++ b)
    | _, _ => none) (some [])

/-- Drop what has arrived in one phase: it has been used, or the epoch is bad. -/
def Chip.dropSegs (c : Chip) (phase : Nat) : Chip :=
  let g : Gal := { c.gal with
    segs := c.gal.segs.filter (fun x => decide (x.1.1 ≠ phase))
    closes := c.gal.closes.del phase
    segCount := c.gal.segCount.del phase }
  { c with gal := g }

/-- The report of the member that holds the keeper role has this key hash. -/
def Chip.keeperKey (c : Chip) (px py : Nat) : Bool :=
  c.view.any (fun r => decide (r.dev = c.gal.keeper ∧ r.keyHash = keyHashOf px py))

/-- An epoch has arrived whole and stands: the standby stores and acknowledges it in phase 1; every member keeps it for its
APPLY_AT in phase 2. -/
def Chip.epochTaken (c : Chip) (phase : Nat) (e : Epoch) : Chip :=
  let c1 : Chip := { c with gal := { c.gal with stored := some e } }
  if phase = 1 then
    let c2 : Chip := { c1 with gal := { c1.gal with mySeq := (c1.gal.mySeq + 1) % 2 ^ 32 } }
    { c2 with gal := { c2.gal with repSent := some { c2.ownReport with ack := e.number } } }
  else epochApply { c1 with gal := { c1.gal with ready := c1.gal.ready ++ [e] } }

/-- The epoch of one phase is judged once its CLOSE and every segment are here (R321). -/
def Chip.epochJudge (c : Chip) (phase : Nat) : Chip :=
  match c.gal.closes.find phase with
  | some (.close _ number members len applyAt digest px py r s) =>
    let n := c.gal.segCount.get 0 phase
    match (if n = 0 ∧ len ≠ 0 then none else c.segBody phase n) with
    | none => c
    | some body =>
      let c2 := c.dropSegs phase
      if digest ≠ beNat (sha384 body) ∨
          !ecdsaVerify p384 px py (beNat (sha384 (closeBytes number members len applyAt digest px py))) r s then c2.galCnt gcBAD
      else if !c2.keeperKey px py || decide (number ≤ c2.get Fd.GAL_EPOCH_NUMBER 0 0) then c2
      else c2.epochTaken phase { number := number, recs := epochRecs members body, applyAt := applyAt }
  | _ => c

/-- A frame that this member keeps. -/
def Chip.epochKeep (c : Chip) (fr : EpochFrame) : Chip :=
  let c1 : Chip := if c.gal.segNum < frNumber fr then
      let c0 := c.dropPartial
      { c0 with gal := { c0.gal with segNum := frNumber fr } }
    else c
  let phase := if frDst fr = 4095 then 2 else 1
  if frNumber fr < c1.gal.segNum then c1
  else
    let c2 : Chip := match fr with
      | .seg _ _ i n body =>
        { c1 with gal := { c1.gal with segs := c1.gal.segs.ins phase i (body.map BitVec.toNat), segCount := c1.gal.segCount.ins phase n } }
      | .close .. => { c1 with gal := { c1.gal with closes := c1.gal.closes.ins phase fr } }
    c2.epochJudge phase

/-- EPOCH_FRAME_RX from link `k`: forwarded, and kept when it is for this member. Only before a first epoch, when frames are
flooded, is a repeat dropped by number and segment (R322); from then on each frame goes on along the routes, but for one that
is for this member alone. -/
def epochFrameRx (k : Nat) (fr : EpochFrame) (c : Chip) : Chip :=
  if !c.galOn || !c.stairOpen k || decide (c.stairState k ≠ glUP) then c
  else
    let first := decide (c.get Fd.GAL_EPOCH_NUMBER 0 0 = 0)
    let again := first && decide ((frNumber fr, frPlace fr) ∈ c.gal.seen)
    let alone := !first && c.epochMine (frDst fr) && decide (frDst fr ≠ 4095)
    let c1 : Chip := if again || alone then c
      else { c with gal := { c.gal with seen := if first then insNew (frNumber fr, frPlace fr) c.gal.seen else c.gal.seen, sent := [fr] } }
    if c.epochMine (frDst fr) && !(again && decide (frDst fr = 4095)) then c1.epochKeep fr else c1

/-- SPRAY_ENTRY_FREE: 2 ms without a copy (R325). -/
def sprayEntryFree (dst flow : Nat) (c : Chip) : Chip :=
  match c.gal.spray.find dst flow with
  | none => c
  | some e =>
    if c.tim.clk < e.last + 2 * 10 ^ 6 then c else { c with gal := { c.gal with spray := c.gal.spray.del dst flow } }

/-- HELLO_TX. -/
def execHelloTx (k : Nat) (s : State) : Host.Outcome State Fault Refusal := .next (s.onChip (helloTx k))
/-- HELLO_RX. -/
def execHelloRx (k : Nat) (h : Hello) (s : State) : Host.Outcome State Fault Refusal := .next (s.onChip (helloRx k h))
/-- STAIR_LINK_LOST. -/
def execStairLinkLost (k : Nat) (s : State) : Host.Outcome State Fault Refusal := .next (s.onChip (stairLinkLost k))
/-- ADMIT: a write of CFG that sets ADMIT and changes nothing else. -/
def execAdmitMember (m k : Nat) (s : State) : Host.Outcome State Fault Refusal :=
  s.regWrite m .GAL_LINK_CFG k 0 (fun kg => linkCfgWrite m kg k (s.chip.linkCfg k + 2 ^ 29))
/-- STAIR_LINK_VALID_WRITE. -/
def execStairLinkValidWrite (m k : Nat) (v : Word) (s : State) : Host.Outcome State Fault Refusal :=
  s.regWrite m .GAL_LINK_CFG k 0 (fun kg => linkCfgWrite m kg k v.toNat)
/-- REPORT_TX. -/
def execReportTx (s : State) : Host.Outcome State Fault Refusal := .next (s.onChip reportTx)
/-- REPORT_RX. -/
def execReportRx (k : Nat) (r : Report) (s : State) : Host.Outcome State Fault Refusal := .next (s.onChip (reportRx k r))
/-- REPORT_EXPIRE. -/
def execReportExpire (dev : Nat) (s : State) : Host.Outcome State Fault Refusal := .next (s.onChip (reportExpire dev))
/-- ELECT_SETTLE. -/
def execElectSettle (s : State) : Host.Outcome State Fault Refusal := .next (s.onChip electSettle)
/-- ELECT. -/
def execElect (m : Nat) (s : State) : Host.Outcome State Fault Refusal := s.regWrite m .GAL_CMD 0 0 (fun _ => galCmd m 1)
/-- HANDOVER. -/
def execHandover (m : Nat) (s : State) : Host.Outcome State Fault Refusal := s.regWrite m .GAL_CMD 0 0 (fun _ => galCmd m 2)
/-- EPOCH_BUILD. -/
def execEpochBuild (s : State) : Host.Outcome State Fault Refusal := .next (s.onChip epochBuild)
/-- EPOCH_FRAME_RX. -/
def execEpochFrameRx (k : Nat) (fr : EpochFrame) (s : State) : Host.Outcome State Fault Refusal := .next (s.onChip (epochFrameRx k fr))
/-- EPOCH_ACK_TIMEOUT. -/
def execEpochAckTimeout (s : State) : Host.Outcome State Fault Refusal := .next (s.onChip epochAckTimeout)
/-- EPOCH_APPLY. -/
def execEpochApply (s : State) : Host.Outcome State Fault Refusal := .next (s.onChip epochApply)
/-- ORPHAN_REELECT. -/
def execOrphanReelect (s : State) : Host.Outcome State Fault Refusal := .next (s.onChip orphanReelect)
/-- SPRAY_ENTRY_FREE. -/
def execSprayEntryFree (dst flow : Nat) (s : State) : Host.Outcome State Fault Refusal := .next (s.onChip (sprayEntryFree dst flow))

end Sys2Proof.Machine
end

