-- ==== Sys2Proof/Machine/Image.lean ====
section
/-! DEFINITION. Structure images (R42 to R57, R156, R474 to R480): reading the bytes of one, the checks of R47, and the
loader. -/

namespace Sys2Proof.Machine

/-! ## Sections -/

/-- A section table entry (R45). -/
structure Sect where
  typ : Nat
  flags : Nat
  off : Nat
  len : Nat
  deriving DecidableEq, Repr

def sectAt (d : List Nat) (i : Nat) : Sect :=
  { typ := beAt d (128 + 16 * i) 2, flags := beAt d (130 + 16 * i) 2, off := beAt d (132 + 16 * i) 4, len := beAt d (136 + 16 * i) 4 }

/-- The section table of a header. -/
def sectsOf (d : List Nat) : List Sect := (List.range (beAt d 12 2)).map (sectAt d)

/-- No two of a list meet a condition. -/
def noPair {α : Type} (bad : α → α → Bool) : List α → Bool
  | [] => true
  | x :: l => l.all (fun y => !bad x y) && noPair bad l

/-- Two ranges overlap. -/
def overlap (a na b nb : Nat) : Bool := decide (a < b + nb ∧ b < a + na)

/-- The bytes of the section of one type. -/
def sectBytes (d : List Nat) (t : Nat) : List Nat :=
  match (sectsOf d).find? (fun s => decide (s.typ = t)) with
  | none => []
  | some s => slice d s.off s.len

/-- `n` words from byte `o` on. -/
def wordsAt (d : List Nat) (o n : Nat) : List Nat := (List.range n).map (fun k => beAt d (o + 4 * k) 4)

/-- All of `n` bytes from `o` on are 0. -/
def zeros (d : List Nat) (o n : Nat) : Bool := (slice d o n).all (fun b => decide (b = 0))

/-! ## PARSE_GRAPH (R156) -/

def extractRec (w : Nat) : Extract :=
  { srcOff := bits 31 24 w, dst := bits 23 16 w, len := bits 15 11 w + 1, berval := bitOf w 10, nibble := bitOf w 9 }

def transRec (v m k : Nat) : Trans :=
  { value := v, mask := m, galEtype := bitOf k 30, hold := bitOf k 8, next := bits 7 0 k }

/-- A node from its 32 words. -/
def nodeRec (ws : List Nat) : Node :=
  let w (i : Nat) : Nat := ws.getD i 0
  { hdrId := bits 31 24 (w 0), profile := bits 23 20 (w 0), record := bitOf (w 0) 19, inner := bitOf (w 0) 18, ptp := bitOf (w 0) 17,
    lenFixed := bits 15 8 (w 0), lenMode := bits 7 6 (w 0), maxVisits := bits 5 0 (w 0),
    lenOff := bits 31 24 (w 1), lenShift := bits 23 20 (w 1), lenWidth := bits 19 16 (w 1), lenMul := bits 15 8 (w 1), lenAdd := bits 7 0 (w 1),
    selOff := bits 31 24 (w 2), defHold := bitOf (w 2) 8, defNext := bits 7 0 (w 2), selMask := w 3,
    extracts := ((List.range 4).filter (fun k => bitOf (w (4 + k)) 0)).map (fun k => extractRec (w (4 + k))),
    trans := ((List.range 8).filter (fun t => bitOf (w (10 + 3 * t)) 31)).map
      (fun t => transRec (w (8 + 3 * t)) (w (9 + 3 * t)) (w (10 + 3 * t))) }

/-- A node record keeps its format, among `n` records (R156), and no VALUE bit lies outside its MASK (R159). -/
def nodeOk (n : Nat) (ws : List Nat) : Bool :=
  let w (i : Nat) : Nat := ws.getD i 0
  let next (x : Nat) : Bool := decide (x < n ∨ x = 0x80 ∨ x = 0x81)
  decide (bits 16 16 (w 0) = 0) && decide (bits 23 9 (w 2) = 0) && next (bits 7 0 (w 2)) &&
    (List.range 4).all (fun k =>
      decide (bits 8 1 (w (4 + k)) = 0) && !(bitOf (w (4 + k)) 9 && bitOf (w (4 + k)) 10) &&
        (!bitOf (w (4 + k)) 0 || decide (32 ≤ bits 23 16 (w (4 + k)) ∧ bits 23 16 (w (4 + k)) ≤ 159))) &&
    (List.range 8).all (fun t => decide (bits 29 9 (w (10 + 3 * t)) = 0 ∧ clear32 (w (8 + 3 * t)) (w (9 + 3 * t)) = 0) &&
      next (bits 7 0 (w (10 + 3 * t))))

def nodeWords (d : List Nat) : List (List Nat) := (List.range (d.length / 128)).map (fun i => wordsAt d (128 * i) 32)

def graphOk (d : List Nat) : Bool :=
  decide (d.length % 128 = 0 ∧ 0 < d.length ∧ d.length ≤ 128 * 128) && (nodeWords d).all (nodeOk (d.length / 128))

/-! ## ALCOVE_CARVE (R56, R475) -/

/-- Bytes per entry of an alcove. -/
def alcoveBytes (code : Nat) : Nat := [32, 16, 64, 32, 32, 32, 64, 64, 32, 4].getD code 0

/-- A record as (code, offset, entries). -/
def carveRecs (d : List Nat) : List (Nat × Nat × Nat) :=
  (List.range (d.length / 16)).map (fun i => (beAt d (16 * i) 2, beAt d (16 * i + 4) 4, beAt d (16 * i + 8) 4))

def isPow2 (n : Nat) : Bool := decide (n ∈ (List.range 32).map (fun k => 2 ^ k))

def carveOk (d : List Nat) : Bool :=
  let rs := carveRecs d
  decide (d.length % 16 = 0 ∧ d.length ≤ 160) &&
    (List.range (d.length / 16)).all (fun i => zeros d (16 * i + 2) 2 && zeros d (16 * i + 12) 4) &&
    rs.all (fun r => decide (r.1 < 10 ∧ r.2.1 % 65536 = 0 ∧ r.2.2 * alcoveBytes r.1 % 65536 = 0 ∧
      r.2.1 + r.2.2 * alcoveBytes r.1 ≤ 0x2800000) &&
      (decide (r.1 ≠ 0 ∧ r.1 ≠ 2 ∧ r.1 ≠ 5) || isPow2 r.2.2) && decide (r.1 ≠ 0 ∨ r.2.2 ≤ 1048576)) &&
    noPair (fun a b => decide (a.1 = b.1) || overlap a.2.1 (a.2.2 * alcoveBytes a.1) b.2.1 (b.2.2 * alcoveBytes b.1)) rs &&
    rs.any (fun r => decide (r.1 = 8 ∧ r.2.2 = 24576)) && rs.any (fun r => decide (r.1 = 9 ∧ r.2.2 = 65536))

/-! ## TCAM_KEYS (R476) -/

/-- Layout records: bank, layout, parse vector bytes. -/
def layoutRecs (d : List Nat) : List (Nat × Nat × List Nat) :=
  (List.range (beAt d 0 2)).map (fun i =>
    let o := 1444 + 84 * i
    (d.getD o 0, d.getD (o + 1) 0, slice d (o + 4) (d.getD (o + 2) 0)))

def keysOk (d : List Nat) : Bool :=
  let n := beAt d 0 2
  let rs := layoutRecs d
  decide (n ≤ 32 ∧ d.length = 1444 + 84 * n) && zeros d 2 2 && (List.range 16).all (fun k => decide (beAt d (4 + 2 * k) 2 < 4096)) &&
    (List.range n).all (fun i =>
      let o := 1444 + 84 * i
      let k := d.getD (o + 2) 0
      decide (1 ≤ k ∧ k ≤ 80 ∧ d.getD (o + 3) 0 = 0) && zeros d (o + 4 + k) (80 - k)) &&
    rs.all (fun r => decide (r.1 < 4 ∧ r.2.1 < 8) && r.2.2.all (fun b => decide (b < 160))) &&
    noPair (fun a b => decide (a.1 = b.1 ∧ a.2.1 = b.2.1)) rs &&
    (List.range 128).all (fun j =>
      let b := d.getD (36 + j) 0
      decide (bits 6 3 b = 0) && (!bitOf b 7 || rs.any (fun r => decide (r.1 = j / 32 ∧ r.2.1 = b % 8))))

/-! ## The other sections (R477 to R480) -/

def poolLimit (p : Nat) : Nat := [32, 4, 8, 32, 2].getD p 0
def poolEntries (p : Nat) : Nat := [96, 24576, 65536, 32, 16384].getD p 0

def counterOk (d : List Nat) : Bool :=
  let per (p : Nat) : Nat := beAt d (8 * p + 2) 2
  let base (p : Nat) : Nat := beAt d (8 * p + 4) 4
  decide (d.length = 40) && (List.range 5).all (fun p =>
    decide (d.getD (8 * p) 0 = p ∧ d.getD (8 * p + 1) 0 = 0 ∧ per p ≤ poolLimit p ∧ (per p = 0 ∨ base p + poolEntries p * per p ≤ 1048576))) &&
    noPair (fun a b => decide (0 < per a ∧ 0 < per b) && overlap (base a) (poolEntries a * per a) (base b) (poolEntries b * per b)) (List.range 5)

def pipeMapOk (d : List Nat) : Bool := decide (d.length = 96) && d.all (fun b => decide (b < 4))

/-- The first byte of every pair. -/
def firstOfPairs : List Nat → List Nat
  | a :: _ :: l => a :: firstOfPairs l
  | _ => []

def shapeOk (d : List Nat) : Bool :=
  let n := d.getD 0 0
  decide (1 ≤ n ∧ n ≤ 16 ∧ d.length = 100 + 576 * n) && zeros d 1 3 && (slice d 4 96).all (fun b => decide (b < n)) &&
    (List.range n).all (fun s =>
      (firstOfPairs (slice d (100 + 576 * s) 512)).all (fun b => decide (b < 64)) &&
      (slice d (612 + 576 * s) 64).all (fun b => decide (b < 8)))

/-- The bits of quota word `w` that name a field (R340). -/
def quotaMask (w : Nat) : Nat :=
  [0x7FFFF, 0x7FFFF, 0x1FFFF, 0x1FFF, 0x1FFFF, 0x1FFFF, 0x3FFFF, 0x7FFF, 0x1F1FFF, 0x1F1F00FF].getD w 0

def classesOk (d : List Nat) : Bool :=
  let n := d.getD 0 0
  decide (1 ≤ n ∧ n ≤ 8 ∧ d.length = 36 + 48 * n) && zeros d 1 3 && (slice d 4 32).all (fun b => decide (b < n)) &&
    (List.range n).all (fun k => zeros d (76 + 48 * k) 8 &&
      (List.range 10).all (fun w => decide (clear32 (beAt d (36 + 48 * k + 4 * w) 4) (quotaMask w) = 0)))

/-- Check 13: the contents of every section. -/
def contentsOk (d : List Nat) : Bool :=
  graphOk (sectBytes d 1) && carveOk (sectBytes d 2) && keysOk (sectBytes d 3) && counterOk (sectBytes d 4) &&
    pipeMapOk (sectBytes d 5) && shapeOk (sectBytes d 6) && classesOk (sectBytes d 7) && decide ((sectBytes d 0xF0).length ≤ 4096)

/-- The image that the bytes hold. -/
def imageOf (slot : Nat) (d : List Nat) : Image :=
  let keys := sectBytes d 3
  let cm := sectBytes d 4
  let sh := sectBytes d 6
  let hc := sectBytes d 7
  { id := beAt d 16 4, rev := beAt d 20 4, slot := slot,
    nodes := (nodeWords (sectBytes d 1)).map nodeRec,
    carve := (carveRecs (sectBytes d 2)).foldl (fun m r => m.put 0 r.1 r.2.2) [],
    sidProf := (List.range 16).map (fun k => beAt keys (4 + 2 * k) 2),
    lkp := slice keys 36 128, hash := wordsAt keys 164 320,
    layouts := (layoutRecs keys).foldl (fun m r => m.ins r.1 r.2.1 r.2.2) [],
    perEntry := (List.range 5).map (fun p => beAt cm (8 * p + 2) 2),
    poolBase := (List.range 5).map (fun p => beAt cm (8 * p + 4) 4),
    portPipe := slice (sectBytes d 5) 0 96,
    shapeOf := slice sh 4 96,
    shapeQ := (List.range (sh.getD 0 0)).flatMap (fun s => (List.range 256).map (fun q =>
      ((s, q), sh.getD (100 + 576 * s + 2 * q) 0 + 256 * sh.getD (101 + 576 * s + 2 * q) 0))),
    shapeB := (List.range (sh.getD 0 0)).flatMap (fun s => (List.range 64).map (fun b => ((s, b), sh.getD (612 + 576 * s + b) 0))),
    hallClass := slice hc 4 32,
    classQuota := (List.range (hc.getD 0 0)).flatMap (fun k => (List.range 10).map (fun w => ((k, w), beAt hc (36 + 48 * k + 4 * w) 4))) }

/-! ## The checks of R47 -/

/-- A check that failed: DETAIL and STATUS. -/
abbrev Failed := Option (Nat × Nat)

/-- What an unwritten byte reads as: flash erased, host memory 0 (log 45). -/
def flashBlank : Nat := 0xFF
def hostBlank : Nat := 0

/-- `n` bytes of source `src` (0 flash A, 1 flash B, 2 host memory from `a` up) from its offset `o`. -/
def Chip.source (c : Chip) (src a o n : Nat) : List Nat :=
  match src with
  | 0 => Mem.read flashBlank c.flash o n
  | 1 => Mem.read flashBlank c.flash (0x800000 + o) n
  | _ => Mem.read hostBlank c.host (a + o) n

/-- Cells that stage a load. -/
def Load.stageCells (l : Load) : Nat := if l.src = 2 then cdiv (min 8388608 l.len) 256 else 32768

/-- Check 7. Neither R44, R45 nor R43 asks anything of the reserved bytes of a section table entry or of its FLAGS beyond bit 0:
an entry with other bits set passes (DESIGN CHOICE, log 134). -/
def headerOk (d : List Nat) : Bool :=
  let n := beAt d 12 2
  let ss := sectsOf d
  let limit := beAt d 8 4 - 96
  decide (1 ≤ n ∧ n ≤ 32 ∧ beAt d 14 2 = 128 + 16 * n ∧ d.getD 6 0 < 2 ∧ d.getD 7 0 = 0) && zeros d 28 4 &&
    ss.all (fun s => decide (s.off % 64 = 0 ∧ 128 + 16 * n ≤ s.off ∧ s.off + s.len ≤ limit) &&
      (decide (s.typ ∈ [1, 2, 3, 4, 5, 6, 7, 0xF0]) || !bitOf s.flags 0)) &&
    noPair (fun a b => decide (a.typ = b.typ) || overlap a.off a.len b.off b.len) ss

def imgPubkey (d : List Nat) : Nat × Nat := (beAt d 32 48, beAt d 80 48)

/-- Checks 1 to 11 on the header and the section table. -/
def Chip.headerFail (c : Chip) (l : Load) (readOk : Bool) (d : List Nat) : Failed :=
  let k := imgPubkey d
  let total := beAt d 8 4
  let keyed := decide (c.lifecycle ≠ 0)
  if !readOk then some (if l.src = 2 then 0x0C else 0x0B, sTIMEOUT)
  else if c.lifecycle = 3 then some (0x0E, sSTATE)
  else if c.atrFree < l.stageCells then some (0x0D, sNOSPACE)
  else if beAt d 0 4 ≠ 0x47575349 then some (1, sARG)
  else if d.getD 4 0 ≠ 1 then some (2, sARG)
  else if total % 16 ≠ 0 ∨ 8388608 < total ∨ (if l.src = 2 then total ≠ l.len else false) then some (3, sARG)
  else if !headerOk d then some (4, sARG)
  else if !([1, 2, 3, 4, 5, 6, 7].all (fun t => (sectsOf d).any (fun s => decide (s.typ = t)))) then some (5, sARG)
  else if keyed && decide (keyHashOf k.1 k.2 ≠ c.keyHash (d.getD 6 0)) then some (6, sSIG)
  else if keyed && c.keyRevoked (d.getD 6 0) then some (7, sSIG)
  else if !onCurve p384 k.1 k.2 then some (8, sPOINT)
  else none

/-- Checks 1 and 12 to 14 on the whole image. -/
def bodyFail (src : Nat) (readOk eccOk : Bool) (d : List Nat) : Failed :=
  let k := imgPubkey d
  let n := d.length - 96
  if !readOk then some (if src = 2 then 0x0C else 0x0B, sTIMEOUT)
  else if !ecdsaVerify p384 k.1 k.2 (beNat (sha384 (d.take n))) (beAt d n 48) (beAt d (n + 48) 48) then some (9, sSIG)
  else if !contentsOk d then some (0x0A, sARG)
  else if !eccOk then some (0x0F, sECC)
  else none

/-! ## The loader (R50 to R54) -/

/-- A load of the first source begins, with the address and length that the host's registers then hold. -/
def Chip.loadStart (c : Chip) (src : Nat) (rest : List Nat) (byReset : Bool) : Chip :=
  let l : Load :=
    { src := src, rest := rest, byReset := byReset, addr := c.get Fd.GLB_IMG_ADDR_HI_ADDR 0 0 * 2 ^ 32 + c.get Fd.GLB_IMG_ADDR_LO_ADDR 0 0,
      len := c.get Fd.GLB_IMG_LEN_LEN 0 0, cells := 0, hdrOk := false, staged := [], ready := none }
  ({ c with img := { c.img with load := some l } }).set Fd.GLB_IMG_CTRL_STATUS 0 0 sBUSY

/-- Staging cells return to the free lists. -/
def Chip.unstage (c : Chip) (l : Load) : Chip := c.set Fd.ATR_STATUS_FREE 0 0 (c.atrFree + l.cells)

/-- NO_IMAGE is entered. -/
def Chip.enterNoImage (c : Chip) : Chip := c.raise fIMAGE (c.get Fd.GLB_IMG_CTRL_DETAIL 0 0)

/-- No source is left: a boot ends in NO_IMAGE; a STRUCT reset takes no place and reports `code`. -/
def Chip.loadEnd (c : Chip) (byReset : Bool) (code : Nat) : Chip :=
  let c1 : Chip := { c with img := { c.img with load := none } }
  if byReset then ({ c1 with ctl := { c1.ctl with rst := none } }).set Fd.GLB_RESET_STATUS 0 0 code else c1.enterNoImage

/-- A load fails a check: the next source follows. A misaligned host address starts no load (R51). -/
def Chip.loadFail (c : Chip) (l : Load) (f : Nat × Nat) : Chip :=
  let c0 := if f.2 = sSTATE then c.stateErr else c
  let c1 := (((c0.unstage l).set Fd.GLB_IMG_CTRL_STATUS 0 0 f.2).set Fd.GLB_IMG_CTRL_DETAIL 0 0 f.1).raise fIMAGE f.1
  match l.rest with
  | [] => c1.loadEnd l.byReset f.2
  | s :: rest =>
    if s = 2 ∧ c1.get Fd.GLB_IMG_ADDR_LO_ADDR 0 0 % 16 ≠ 0 then c1.loadEnd l.byReset sARG
    else c1.loadStart s rest l.byReset

/-- BOOT (R52): due after POR, PIN and STANDBY. -/
def boot (c : Chip) : Chip :=
  if !c.ctl.bootDue || !c.running then c
  else
    let c1 : Chip := { c with ctl := { c.ctl with bootDue := false } }
    let b := c.pins.bootSrc
    if b = 0 ∨ b = 1 ∨ (b = 3 ∧ c.lifecycle = 2) then c1.loadStart 0 [1] false else c1.enterNoImage

/-- IMAGE_HEADER_CHECK: the header stage of the load that runs. It stages the header and the section table. -/
def imageHeaderCheck (readOk : Bool) (c : Chip) : Chip :=
  match c.img.load with
  | none => c
  | some l =>
    if l.hdrOk then c
    else
      let d := c.source l.src l.addr 0 640
      match c.headerFail l readOk d with
      | some f => c.loadFail l f
      | none =>
        let n := l.stageCells
        let l1 : Load := { l with hdrOk := true, cells := n, staged := d.take (beAt d 14 2) }
        ({ c with img := { c.img with load := some l1 } }).set Fd.ATR_STATUS_FREE 0 0 (c.atrFree - n)

/-- IMAGE_BODY_CHECK: the body stage, on the staged header and section table and the rest of the read. -/
def imageBodyCheck (readOk eccOk : Bool) (c : Chip) : Chip :=
  match c.img.load with
  | none => c
  | some l =>
    if !l.hdrOk || l.ready.isSome then c
    else
      let k := l.staged.length
      let d := l.staged ++ c.source l.src l.addr k (beAt l.staged 8 4 - k)
      match bodyFail l.src readOk eccOk d with
      | some f => c.loadFail l f
      | none => { c with img := { c.img with load := some { l with ready := some (imageOf l.src d) } } }

/-- BOOT. -/
def execBoot (s : State) : Host.Outcome State Fault Refusal := .next (s.onChip boot)
/-- IMAGE_HEADER_CHECK. -/
def execImageHeaderCheck (readOk : Bool) (s : State) : Host.Outcome State Fault Refusal := .next (s.onChip (imageHeaderCheck readOk))
/-- IMAGE_BODY_CHECK. -/
def execImageBodyCheck (readOk eccOk : Bool) (s : State) : Host.Outcome State Fault Refusal :=
  .next (s.onChip (imageBodyCheck readOk eccOk))

end Sys2Proof.Machine
end

