-- ==== Sys2Proof/Machine/Snapshots.lean ====
section
/-! DEFINITION. The statistics pools (R437, R444), what a slot sees of them (R440, R441), and the central reader's snapshots, one at
a time (R442, R443). -/

namespace Sys2Proof.Machine

/-! ## The pools -/

/-- Clear the counters of one entry of a pool, residues included (R439, R441). -/
def Chip.clearEntryCnt (c : Chip) (pool e : Nat) : Chip :=
  let per := poolLimit pool
  { c with cnt := c.cnt.filter (fun x => decide (¬ (x.1.1 = pool ∧ 32 * e ≤ x.1.2 ∧ x.1.2 < 32 * e + per))),
           residue := c.residue.filter (fun x => decide (¬ (x.1.1 = pool ∧ 32 * e ≤ x.1.2 ∧ x.1.2 < 32 * e + per))) }

/-- The owner of an entry of a pool, as R441 shows it: ports and queues of the hall, STREAM and HIT entries of its table and
TCAM entries, its own HALL entry. -/
def Chip.poolOwner (c : Chip) (pool e : Nat) : Nat :=
  match pool with
  | 0 => if c.shared e then 0 else c.owner e
  | 1 => c.qOwner (e / 256) (e % 256)
  | 2 => (((c.entries tSTREAM).find? (fun i => match c.entry tSTREAM i with
      | some ws => decide (wb ws 0 15 0 = e)
      | none => false)).map (fun i => c.entryHall tSTREAM i)).getD 0
  | 3 => e
  | _ => (((c.tcam.find? (fun r => r.2.valid && decide (bits 29 16 (r.2.action.getD 2 0) = e))).map (fun r => r.2.owner))).getD 0

/-- The entries of the pools that hall `h` has counts in. -/
def Chip.countedEntries (c : Chip) (h : Nat) : List (Nat × Nat) :=
  ((c.cnt ++ c.residue).map (fun x => (x.1.1, x.1.2 / 32))).foldl
    (fun l k => if k.1 < 5 ∧ c.poolOwner k.1 k.2 = h then insNew k l else l) []

/-- The present value of a statistics counter (R439). -/
def Chip.cntVal (c : Chip) (pool e x : Nat) : Nat := (c.cnt.get 0 pool (32 * e + x) + c.residue.get 0 pool (32 * e + x)) % 2 ^ 64

/-- Counters per entry of a pool as the image maps them. -/
def Chip.perEntry (c : Chip) (pool : Nat) : Nat := (c.img.inForce.map (fun im => im.perEntry.getD pool 0)).getD 0

/-! ## What a slot sees (R440, R441) -/

/-- The device-wide entry that hall `h` sees as entry `e` of a pool; in the native slot, hall 0, every entry as it is. -/
def Chip.slotEntry (c : Chip) (h pool e : Nat) : Option Nat :=
  if poolEntries pool ≤ e then none
  else if h = 0 then some e
  else
    match pool with
    | 0 => c.hport h e
    | 1 => (c.hport h (e / 256)).bind (fun n => if c.qOwner n (e % 256) = h then some (256 * n + e % 256) else none)
    | 3 => if e = 0 then some h else none
    | _ => if c.poolOwner pool e = h then some e else none

/-- Counter `i` of a pool's counter space in the slot of hall `h`; one that the slot does not see reads 0. -/
def Chip.slotCnt (c : Chip) (h pool i : Nat) : Nat :=
  let per := c.perEntry pool
  if per = 0 ∨ 5 ≤ pool then 0
  else match c.slotEntry h pool (i / per) with
    | none => 0
    | some e => c.cntVal pool e (i % per)

/-- The slot of hall `h` sees the device-wide entry `e` of a pool. -/
def Chip.slotSees (c : Chip) (h pool e : Nat) : Bool :=
  if h = 0 then decide (pool < 5)
  else
    match pool with
    | 0 => (c.localOf h e).isSome
    | 1 => (c.localOf h (e / 256)).isSome && decide (c.qOwner (e / 256) (e % 256) = h)
    | 3 => decide (e = h)
    | 2 => decide (c.poolOwner 2 e = h)
    | 4 => decide (c.poolOwner 4 e = h)
    | _ => false

/-! ## Snapshots (R442, R443) -/

/-- The pools that a POOL code takes. -/
def snapPools (pool : Nat) : List Nat := if pool = 7 then [0, 1, 2, 3, 4] else [pool]

/-- The counters that a snapshot of the slot of hall `h` takes from a pool: a hall's HALL pool is its one entry (log 51). -/
def Chip.snapCount (c : Chip) (h pool : Nat) : Nat := (if h ≠ 0 ∧ pool = 3 then 1 else poolEntries pool) * c.perEntry pool

def Chip.snapTotal (c : Chip) (h pool : Nat) : Nat := ((snapPools pool).map (c.snapCount h)).foldl (· + ·) 0

/-- The buffer of a snapshot taken now. -/
def Chip.snapBytes (c : Chip) (h pool : Nat) : List Nat :=
  [1, pool, c.epoch, 0] ++ beBytes 4 (c.snapTotal h pool) ++ beBytes 6 c.secs ++ beBytes 4 c.nsec ++ List.replicate 46 0 ++
    (snapPools pool).flatMap (fun p => (List.range (c.snapCount h p)).flatMap (fun i => beBytes 8 (c.slotCnt h p i)))

/-- CLEAR: the counters that the snapshot takes restart from 0. -/
def Chip.snapClear (c : Chip) (h pool : Nat) : Chip :=
  let gone (k : Nat × Nat) : Bool := decide (k.1 ∈ snapPools pool) && c.slotSees h k.1 (k.2 / 32)
  { c with cnt := c.cnt.filter (fun e => !gone e.1), residue := c.residue.filter (fun e => !gone e.1) }

/-- The reader takes the snapshot of slot `h` that waits: this is its snapshot edge. -/
def Chip.snapStart (c : Chip) (h : Nat) : Chip :=
  match c.snaps.find h with
  | none => c
  | some j =>
    let c1 : Chip := { c with snaps := c.snaps.ins h { j with bytes := some (c.snapBytes h j.pool) } }
    if j.clear then c1.snapClear h j.pool else c1

/-- The slot whose snapshot waits that comes first after slot `h`. -/
def Chip.snapNext (c : Chip) (h : Nat) : Option Nat :=
  ((List.range 32).map (fun i => (h + 1 + i) % 32)).find? (fun k => (c.snaps.find k).isSome)

/-- The reader's turn goes on from slot `h`, when it serves none. -/
def Chip.snapTurn (c : Chip) (h : Nat) : Chip :=
  if c.snaps.any (fun e => e.2.bytes.isSome) then c
  else match c.snapNext h with
    | none => c
    | some k => c.snapStart k

/-- The snapshot of hall `h` has become stale (R443): its writes end at the next 512-byte boundary, and how far they had come is
free; it is logged with the generation it had. -/
def Chip.snapStale (c : Chip) (h old : Nat) : Chip :=
  match c.snaps.find h with
  | none => c
  | some j =>
    let bs := j.bytes.getD []
    let w := c.free
    let k := w.1 % (bs.length + 1)
    let c1 : Chip := { w.2 with snaps := c.snaps.del h }
    let c2 : Chip := if k = 0 then c1
      else { c1 with host := Mem.write hostBlank c1.host j.addr (bs.take ((j.addr + k + 511) / 512 * 512 - j.addr)) }
    ((((c2.set Fd.CNT_SNAP_LOG_STATUS h 0 sSTALE).set Fd.CNT_SNAP_LOG_HALL h 0 h).set Fd.CNT_SNAP_LOG_GEN h 0 old).cntSat
      Fd.CNT_STALE_CNT_COUNT h 0 1).set Fd.CNT_SNAP_CMD_STATUS h 0 sSTALE

end Sys2Proof.Machine
end

