-- ==== Sys2Proof/Machine/Control.lean ====
section
/-! DEFINITION. Quiesce and resets (R58 to R69, R76, R77, R124, R344): what a domain needs to be quiesced, what stops and starts
with it, what each reset returns to its reset value, and the reset commands. -/

namespace Sys2Proof.Machine

/-! ## Quiesce (R58 to R60) -/

/-- A domain has come to rest (R60): DEVICE when all the others have. -/
def Chip.quiet (c : Chip) (d i : Nat) : Bool :=
  if d = 6 then c.quietAll 4 && c.quietAll 5 && c.quietAll 1 && c.quietAll 0 else c.quietOne d i

/-- A domain of R58 counts as quiesced for the preconditions of commands and resets. -/
def Chip.quiesced (c : Chip) (d i : Nat) : Bool :=
  c.stopped d i || (decide (d = 0) && c.isFenced 0 i) || (decide (d = 1) && c.isFenced 1 i)

/-- A domain is stopped directly: what stops with it. -/
def Chip.markStopped (c : Chip) (d i : Nat) : Chip :=
  let c1 : Chip := { c with ctl := { c.ctl with stopped := insNew (d, i) c.ctl.stopped } }
  match d with
  | 0 => c1.gateQuiesced i
  | 2 => c1.gateQuiesced i
  | 3 => c1.timeQuiesced
  | 6 => (List.range 96).foldl (fun c n => c.gateQuiesced n) c1.timeQuiesced
  | _ => c1

/-- The gate list of port `n` starts again, if nothing stops it. -/
def Chip.gateBack (c : Chip) (n : Nat) : Chip := if c.stopped 2 n then c else c.gateReleased n

/-- A domain is released. -/
def Chip.markReleased (c : Chip) (d i : Nat) : Chip :=
  let c1 : Chip := { c with ctl := { c.ctl with stopped := without (d, i) c.ctl.stopped } }
  match d with
  | 0 => c1.gateBack i
  | 2 => c1.gateBack i
  | 3 => if c1.stopped 3 0 then c1 else c1.timeReleased
  | 6 =>
    let c2 := (List.range 96).foldl (fun c n => c.gateBack n) c1
    if c2.stopped 3 0 then c2 else c2.timeReleased
  | _ => c1

/-- The index of a quiesce command, 0 where its domain has none. -/
def qscIndex (dom idx : Nat) : Nat := if dom = 3 ∨ dom = 4 ∨ dom = 6 then 0 else idx

/-- INDEX lies in the range of its domain. -/
def qscInRange (dom idx : Nat) : Bool :=
  match dom with
  | 0 => decide (idx < 96)
  | 1 => decide (idx < 4)
  | 2 => decide (idx < 96)
  | 3 => true
  | 4 => true
  | 5 => decide (idx < 32)
  | 6 => true
  | _ => false

/-- A write of GLB_QSC_CMD: 1 STOP, 2 RELEASE. While a load is BUSY DEVICE counts as quiesced and stays so (R53, R66): a RELEASE then
is one of a domain whose containing domain is stopped (DEDUCED, log 135). -/
def qscCmd (m op dom idx : Nat) (c : Chip) : Chip :=
  let st := Fd.GLB_QSC_CMD_STATUS
  let i := qscIndex dom idx
  let ok := qscInRange dom i
  let fenced := (decide (dom = 0) && c.isFenced 0 i) || (decide (dom = 1) && c.isFenced 1 i)
  let direct := decide ((dom, i) ∈ c.ctl.stopped)
  c.command st 0 0 m (addrOf .GLB_QSC_CMD 0 0)
    (fun c => (c.set Fd.GLB_QSC_CMD_INDEX 0 0 idx).set Fd.GLB_QSC_CMD_DOMAIN 0 0 dom)
    [(ok && decide (op = 2) && fenced, sFENCED),
     (ok && decide (op = 2) && (!c.stopped dom i || c.loading || (!direct && !c.noImage) || (decide (dom ≠ 6) && c.stopped 6 0) ||
        (decide (dom = 2) && decide ((0, i) ∈ c.ctl.stopped))), sSTATE),
     (!ok || decide (op = 0 ∨ 2 < op), sARG)]
    (fun c =>
      if op = 2 then (c.markReleased dom i).set st 0 0 sDONE
      else if direct then c.set st 0 0 sDONE
      else if c.stopped dom i || fenced then (c.markStopped dom i).set st 0 0 sDONE
      else ({ c with ctl := { c.ctl with qsc := some { dom := dom, idx := i } } }).set st 0 0 sBUSY)

/-- QUIESCED: the domain of the STOP that runs has come to rest. -/
def quiescedEvt (c : Chip) : Chip :=
  match c.ctl.qsc with
  | none => c
  | some q =>
    if !c.quiet q.dom q.idx then c
    else (({ c with ctl := { c.ctl with qsc := none } }).markStopped q.dom q.idx).set Fd.GLB_QSC_CMD_STATUS 0 0 sDONE

/-! ## What a hall, port or pipeline owns -/

/-- A leaf queue of hall `h` (R334). -/
def Chip.hallQueue (c : Chip) (h n q : Nat) : Bool := decide (c.qOwner n q = h)

/-- A frame that waits in a vestibule is dropped. -/
def Chip.dropVest (c : Chip) (n : Nat) : Chip :=
  (c.port n).vest.foldl (fun c i => ((c.discard1).leaveVest i).delFrame i) c

/-- Dynamic FDB entries learned on port `n` (R216, FLUSH_PORT). -/
def Chip.learnedOn (c : Chip) (n : Nat) : List Nat :=
  (c.entries tFDB).filter (fun i => match c.entry tFDB i with
    | some ws => decide (fdbKind ws = 0) && !fdbStatic ws && decide (n ∈ c.fdbPorts ws)
    | none => false)

/-! ## HALL reset (R77, R333, R344) -/

/-- A running command of hall `h` has become stale: dropped, with no result; STALE_GEN is its own outcome (R13, R344), logged with
the old generation. -/
def Chip.dropStaleJobs (c : Chip) (h old : Nat) : Chip :=
  let c1 := match c.jobs.find h with
    | some j => c.tblStale h { j with gen := old }
    | none => c
  let c2 := (List.range 4).foldl (fun (c : Chip) p => match (c.pipe p).tcamOp with
    | some (_, _, w, _) =>
      if w / 32 = h then (c.setPipe p { c.pipe p with tcamOp := none }).set Fd.PIP_TCAM_CMD_STATUS p 0 sSTALE else c
    | none => c) c1
  let c3 := if c2.get Fd.SCH_FLUSH_CMD_STATUS h 0 = sBUSY then c2.set Fd.SCH_FLUSH_CMD_STATUS h 0 sSTALE else c2
  c3.snapStale h old

/-- Counters of a port that a HALL reset clears when the hall owns it: the PRT_ RC fields (R77). -/
def portCounter (k : FKey) : Bool := k.f.r.isPrt && (match rowOf k.f with
  | some w => decide (w.acc = .rc)
  | none => false)

/-- A redundancy pair of hall `h`: its ports belong to the hall (R40, R246). -/
def Chip.hallPair (c : Chip) (h k : Nat) : Bool :=
  c.pairActive k && decide (c.pairHall k = h)

/-- The fields that a HALL reset of `h` reaches (R13, R63, R77, R246): the domain HALL(h), the counters of its ports and pairs. -/
def Chip.hallReach (c : Chip) (h : Nat) (k : FKey) : Bool :=
  (decide (k.f.r.dom = .hall) && decide (k.i = h)) || (portCounter k && !c.shared k.i && decide (c.owner k.i = h)) ||
    (decide (k.f.r = .RED_PAIR_CNT) && c.hallPair h k.i)

/-- The SCH_ configuration that belongs to hall `h` (R282): its leaf queues and its class maps, on every port. -/
def Chip.hallSched (c : Chip) (h : Nat) (k : FKey) : Bool :=
  match k.f.r with
  | .SCH_Q_CFG => decide (c.qOwner k.i k.j = h)
  | .SCH_CLASS_MAP => decide (k.j / 2 = h)
  | _ => false

/-- The frames queued on hall `h`'s queues are discarded, its host queues among them. -/
def Chip.dropHallQueues (c : Chip) (h : Nat) : Chip :=
  let mine := (List.range 96).flatMap (fun n => ((c.allQueues n).filter (c.hallQueue h n)).map (fun q => (n, q)))
  let c1 := mine.foldl (fun (c : Chip) (k : Nat × Nat) => c.dropQueue k.1 k.2) c
  (c1.allQueues (128 + h)).foldl (fun c q => c.dropQueue (128 + h) q) c1

/-- The table and TCAM entries of hall `h` are removed. -/
def Chip.dropHallEntries (c : Chip) (h : Nat) : Chip :=
  let c1 := [tFDB, tMCAST, tSTREAM, tPOLICER, tHEALTH, tDUP, tRECOVERY].foldl (fun c t =>
    ((c.entries t).filter (fun i => decide (c.entryHall t i = h))).foldl (fun c i => c.delEntry t i) c) c
  { c1 with tcam := c1.tcam.filter (fun e => decide (e.2.owner ≠ h)) }

/-- What a HALL reset of `h` does; its domain stays stopped (R67), and the KG lock re-arms (R69). -/
def Chip.hallReset (c : Chip) (h : Nat) : Chip :=
  let old := c.gen h
  let c0 := c.set Fd.HAL_GEN_GEN h 0 (old + 1)
  let c1 := c0.dropStaleJobs h old
  let own := c1.countedEntries h
  let c2 := (c1.dropHallQueues h).dropHallEntries h
  let c3 := own.foldl (fun c k => c.clearEntryCnt k.1 k.2) c2
  let c4 : Chip := { c3 with
    bus := { c3.bus with kgOpen := false },
    fld := c3.fld.filter (fun e => !c3.hallSched h e.1),
    tsq := (c3.tsq.map (fun e => (e.1, e.2.filter (fun r => decide (r.hall ≠ h))))).filter (fun e => decide (e.2 ≠ [])),
    lrn := c3.lrn.filter (fun r => decide (r.hall ≠ h)), lrnLast := c3.lrnLast.filter (fun r => decide (r.hall ≠ h)),
    rings := c3.rings.filter (fun e => decide (e.1.1 ≠ h)),
    halls := c3.halls.put HallRt.init h { HallRt.init with stamped := (c3.halls.get HallRt.init h).stamped } }
  let keep := c4.get Fd.HAL_GEN_GEN h 0
  (((c4.resetFields 16 false (c4.hallReach h)).set Fd.HAL_GEN_GEN h 0 keep).clearKeKey).snapTurn h

/-! ## PORT and PIPE resets (R77, R124, R68) -/

/-- The fields of the domain PORT(n), and those of its gate list that a PORT reset does not keep (R294). -/
def portReach (n : Nat) (k : FKey) : Bool :=
  (decide (k.f.r.dom = .port) && decide (k.i = n)) || (decide (k.f.r.dom = .lane) && decide (k.i = n / 12 ∧ k.j = n % 12)) ||
    (decide (k.i = n) && decide (k.f.r = .SCH_GCL_ERR ∨ k.f.r = .SCH_GCL_CMD ∨ k.f = Fd.SCH_GCL_STATUS_CYCLES))

/-- The slot of the laser engine that lights port `n` has a FAILED source. -/
def Chip.portDead (c : Chip) (n : Nat) : Bool :=
  decide (c.srcState (n / 12) (c.slotSource (n / 12) (n % 12 / 3)) = srcFAILED)

/-- What a PORT reset does, apart from the fence. TRAILER stays 1 while the port holds a PRP role (R165, R247). -/
def Chip.portReset (c : Chip) (n : Nat) : Chip :=
  let c1 := (((c.goDark n (c.link n) false).dropPortQueues n).dropVest n).dropSaKeys n
  let c2 := (c1.delAll tFDB (c1.learnedOn n)).2.2
  let c3 := (List.range 256).foldl (fun c q => c.clearEntryCnt 1 (256 * n + q)) (c2.clearEntryCnt 0 n)
  let r := c3.port n
  let c4 := c3.setPort n { PortRt.init with
    gclStart := r.gclStart
    gclEnd := if r.gclSwitch then r.gclStart + (gclActive c3 n).period else r.gclEnd
    remapping := r.remapping, moves := r.moves }
  let c5 : Chip := (({ c4 with tsq := c4.tsq.del n, tsqLost := c4.tsqLost.del n }).set Fd.TIM_TSQ_STATUS_LOST n 0 0).set
    Fd.TIM_TSQ_STATUS_LOST_CNT n 0 0
  let role := (c5.pairOf n).isSome
  (c5.resetFields 64 false (fun k => portReach n k && !(role && decide (k.f = Fd.PRT_PARSE_CTRL_TRAILER)))).clearKeKey

/-- The port returns to service, unless its source has failed (R124). -/
def Chip.portBack (c : Chip) (n : Nat) : Nat × Chip :=
  if c.isFenced 0 n && c.portDead n then (sFENCED, c.set Fd.PRT_LINK_STATUS_STATE n 0 lFENCED)
  else (sDONE, (c.markUnfenced 0 n).enterLink n lDOWN)

/-- What a PIPE reset does: the event counters of the pipeline are cleared. -/
def Chip.pipeReset (c : Chip) (p : Nat) : Chip :=
  let r := c.pipe p
  ((c.setPipe p { r with evc := [], evcPrev := [], evcSince := [], slots := [], recs := [] }).resetFields 32 false
    (fun k => decide (k.f.r.dom = .pipe) && decide (k.i = p))).clearKeKey

/-- The self-test of a fenced pipeline and of its TCAM bank (R68, R427). -/
def Chip.pipeBack (c : Chip) (p : Nat) (pass : Bool) : Nat × Chip :=
  if !c.isFenced 1 p && !c.isFenced 2 p then (sDONE, c)
  else if pass then (sDONE, (c.markUnfenced 1 p).markUnfenced 2 p)
  else (if c.isFenced 1 p then sFENCED else sDONE, c)

/-! ## Device resets (R65, R69, R76) -/

/-- Reset kinds as bits of `Row.kept`. -/
def rkPOR : Nat := 1
def rkPIN : Nat := 2
def rkDEV : Nat := 4
def rkSTRUCT : Nat := 8
def rkSTANDBY : Nat := 128

/-! ### The core clock (R72, R76, R432) -/

/-- The clock is held low for heat. -/
def Chip.throttled (c : Chip) : Bool := c.flt.therm && decide (c.get Fd.FLT_REACT_THERM 0 0 = 1)

/-- The step at which the clock is then held. -/
def Chip.heldStep (c : Chip) : Nat := max 2 (c.get Fd.GLB_PWR_CTRL_STEP_FLOOR 0 0)

/-- CORE_CLK takes step `k`; a change restarts the count of R72. -/
def Chip.setStep (c : Chip) (k : Nat) : Chip :=
  { c with tim := { c.tim with step := k, stepAt := if k = c.tim.step then c.tim.stepAt else c.tim.clk } }

/-- Step to 3.0 GHz, if heat allows. -/
def Chip.fullSpeed (c : Chip) : Chip := c.setStep (if c.throttled then c.heldStep else 0)

/-- The latches that the TIM_ registers of R81 and R101 read from. -/
def timLatches (l : PMap Nat) : PMap Nat := l.filter (fun e => decide (0x200000 ≤ e.1.2 ∧ e.1.2 < 0x300000))

/-- What a reset of the whole device leaves of an engine's swaps (R69): a manual one is aborted, the sparing controller's own go on
through DEV and STRUCT, and end with the light in the others (log 29). -/
def resetEngs (kind : Nat) (l : NMap EngRt) : NMap EngRt :=
  if kind = rkDEV ∨ kind = rkSTRUCT then
    (l.map (fun e => (e.1, { e.2 with cur := e.2.cur.filter (fun w => !w.manual), waiting := e.2.waiting.filter (fun w => !w.manual),
                                      pendingSwap := e.2.pendingSwap.filter (fun w => !w.manual) }))).filter
      (fun e => decide (e.2 ≠ EngRt.init))
  else []

/-- An aborted command's STATUS that the reset would keep takes its reset value (R69). -/
def Chip.abortBusy (c : Chip) (f : F) : Chip := if c.get f 0 0 = sBUSY then c.set f 0 0 0 else c

/-- What a reset of the whole device leaves (R76): `kind` one of the five. The image in force stays, for the caller to change. -/
def Chip.deviceReset (c : Chip) (kind : Nat) : Chip :=
  let cold := decide (kind = rkPOR ∨ kind = rkPIN)
  let z := Chip.reset
  let c1 := c.resetFields kind true (fun _ => true)
  let c2 : Chip := { z with
    fld := c1.fld, freeCtr := c.freeCtr, pins := c.pins, host := c.host, flash := c.flash,
    bus := { z.bus with latches := if cold then [] else timLatches c.bus.latches, vfEnable := c.bus.vfEnable && !cold,
                        cplAbort := if cold then [] else c.bus.cplAbort, aerAbort := if cold then [] else c.bus.aerAbort,
                        irqs := c.bus.irqs, jtagBusy := false, jtagErr := c.bus.jtagErr && !cold,
                        jtagAddr := if cold then 0 else c.bus.jtagAddr, jtagData := if cold then 0 else c.bus.jtagData,
                        alert := c.bus.alert && !cold },
    tim := if cold then { z.tim with clk := c.tim.clk } else c.tim,
    cyc := if cold then z.cyc else c.cyc,
    evt := if cold then [] else c.evt, toutFall := if cold then [] else c.toutFall,
    img := { inForce := c.img.inForce, load := none },
    ctl := { z.ctl with bootDue := false, standby := c.ctl.standby, standbyHeld := c.ctl.standbyHeld },
    fenced := if cold then [] else c.fenced, engs := resetEngs kind c.engs,
    sec := { c.sec with ce := none, ke := none, burn := if kind = rkSTANDBY then c.sec.burn else none, rng := none, saKey := [],
                        windows := 0, requests := 0 },
    flt := { c.flt with hist := if kind = rkPOR then [] else c.flt.hist, lastUnit := if cold then [] else c.flt.lastUnit,
                        tcamWin := [], bankWin := [], bankCorrWin := [], fenceOp := none, selfTest := c.flt.selfTest && !cold } }
  let c3 := if cold then { c2 with pins := { c2.pins with ppsOut := false, tout := 0 } } else c2
  let c4 := c3.set Fd.ATR_STATUS_FREE 0 0 (393216 - 6144 * c3.banksRetired)
  let c5 := (c4.fenced.filter (fun k => decide (k.1 = 0))).foldl (fun (c : Chip) (k : Nat × Nat) => c.set Fd.PRT_LINK_STATUS_STATE k.2 0 lFENCED) c4
  let c6 := (c5.abortBusy Fd.GLB_RESET_STATUS).abortBusy Fd.GLB_IMG_CTRL_STATUS
  (List.range 8).foldl (fun c e => c.swapsGoOn e) (c6.fullSpeed.set Fd.SEC_RNG_STATUS_STATE 0 0 1)

/-- Every unit that fails its self-test at POR or PIN is fenced again (R429), and the map of the retired banks is rebuilt (R253). -/
def Chip.selfTests (c : Chip) (fails : List (Nat × Nat)) : Chip :=
  fails.foldl (fun (c : Chip) (k : Nat × Nat) =>
    match k.1 with
    | 0 => if k.2 < 96 then c.fencePort k.2 else c
    | 1 => if k.2 < 4 then c.fencePipe k.2 else c
    | 2 => if k.2 < 4 then c.fenceTcam k.2 else c
    | 3 => if k.2 < 4 then c.fenceDma k.2 else c
    | 4 => if k.2 < 32 then c.fenceStair k.2 else c
    | 5 => if k.2 < 64 then c.retireBank k.2 else c
    | _ => c) c

/-- The identity scalar that IDK_WRAP holds (R403): `none` when the key is absent, and whether its tag failed. -/
def idUnwrap (fuse : Nat → Nat) : Option Nat × Bool :=
  let field (r n : Nat) : Nat := (List.range n).foldl (fun a k => a * 2 ^ 32 + fuse (r + k) % 2 ^ 32) 0
  let wrap := beBytes 76 (field 32 19)
  let root := field 51 8
  if field 32 19 = 0 ∨ root = 0 then (none, false)
  else
    match gcmOpen (beBytes 32 (Config.freeWrapKey 1 root % 2 ^ 256)) (wrap.take 12) (beBytes 16 (field 2 4)) (slice wrap 12 48) (wrap.drop 60) with
    | some pt => (some (beNat pt), false)
    | none => (none, true)

/-- The rows of the fuse field that row `r` belongs to (R395). -/
def fuseRowsOf (r : Nat) : List Nat :=
  match [(2, 6), (8, 20), (20, 32), (32, 51), (51, 59), (64, 128)].find? (fun e => decide (e.1 ≤ r ∧ r < e.2)) with
  | some e => (List.range (e.2 - e.1)).map (fun k => e.1 + k)
  | none => [r]

/-- Row `r` belongs to a field that an uncorrectable error of a row pair spoils (R396). -/
def fuseSpoilt (worn : List Nat) (r : Nat) : Bool := worn.any (fun p => decide (r ∈ fuseRowsOf (2 * p) ++ fuseRowsOf (2 * p + 1)))

/-- The array as it is sensed (R396): a spoilt field is all ones, ROOT_KEY and IDK_WRAP are absent. -/
def sensedRows (otp : NMap Nat) (worn : List Nat) : NMap Nat :=
  (List.range 192).foldl (fun m r => if fuseSpoilt worn r then m.put 0 r (if 32 ≤ r ∧ r < 59 then 0 else 2 ^ 32 - 1) else m) otp

/-- The row pairs that sensing finds with an uncorrectable error, kind 6 of the units that fail; what has worn out stays so. -/
def Chip.fuseFound (c : Chip) (fails : List (Nat × Nat)) : Chip :=
  { c with sec := { c.sec with worn := fails.foldl (fun w k => if k.1 = 6 ∧ k.2 < 96 then insNew k.2 w else w) c.sec.worn } }

/-- The fuses are sensed (R396, R397): behaviour follows the array, the identity key is unwrapped, and each row pair with an
uncorrectable error raises FUSE_ECC. -/
def State.sense (s : State) : State :=
  let c := s.chip
  let rows := sensedRows s.otp c.sec.worn
  let id := idUnwrap (fun r => rows.get 0 r)
  let lc := lifecycleOf (rows.get 0 0)
  let ok := decide (lc = 1 ∨ lc = 2)
  let c0 : Chip := { c with sec := { c.sec with sensed := rows, shown := rows,
                                                 idScalar := if ok then id.1.getD 0 else 0 } }
  let c1 := if c0.fiOpen then c0 else c0.injectClear
  let c2 := c1.sec.worn.foldl (fun c p => c.raise fFUSE (2 * p)) c1
  { s with chip := if ok && id.2 then c2.raise fFUSE 32 else c2 }

/-- A DEV reset (R65, R69): everything of the survival table's DEV column, at once; TIME runs again (R95).
`by_` 0 for GLB_RESET, 1 for PERST_N and a function-level reset, whose end reports no STATUS. -/
def Chip.devReset (c : Chip) (by_ : Nat) : Chip :=
  let c1 := c.deviceReset rkDEV
  let c2 : Chip := { c1 with ctl := { c1.ctl with rst := some (1, by_) } }
  if c.stopped 3 0 then c2.timeReleased else c2

/-- The sections of an image take effect: what the image supplies returns to it, and every domain runs. -/
def Chip.imageFields (c : Chip) : Chip :=
  { c with fld := c.fld.filter (fun e => match e.1.f.r with
    | .GLB_PORT_PIPE => false
    | .GLB_QUOTA_W0 => false
    | .GLB_QUOTA_W1 => false
    | .GLB_QUOTA_W2 => false
    | .GLB_QUOTA_W3 => false
    | .GLB_QUOTA_W4 => false
    | .GLB_QUOTA_W5 => false
    | .GLB_QUOTA_W6 => false
    | .GLB_QUOTA_W7 => false
    | .GLB_QUOTA_W8 => false
    | .GLB_QUOTA_W9 => false
    | _ => true) }

/-- IMAGE_APPLY (R49, R66): after a boot the sections are applied; after a STRUCT reset's load the DEV-scope reset too. -/
def imageApply (c : Chip) : Chip :=
  match c.img.load with
  | none => c
  | some l =>
    match l.ready with
    | none => c
    | some im =>
      let c0 := c.unstage l
      let c1 := if l.byReset then c0.deviceReset rkSTRUCT else c0
      let c2 := ({ c1 with img := { inForce := some im, load := none }, ctl := { c1.ctl with stopped := [], rst := none } }).imageFields
      let c3 := ((c2.set Fd.GLB_IMG_CTRL_STATUS 0 0 sDONE).set Fd.GLB_IMG_CTRL_DETAIL 0 0 0).set Fd.GLB_IMG_CTRL_SLOT_USED 0 0 l.src
      let c4 := if l.byReset then c3.set Fd.GLB_RESET_STATUS 0 0 sDONE else c3
      c4.timeReleased

/-! ## GLB_RESET (R64 to R69) -/

/-- The sources of a STRUCT reset requested by master `m` (R54): the first, then those that follow a failure. -/
def Chip.structSources (c : Chip) (m : Nat) : List Nat :=
  match c.get Fd.GLB_IMG_CTRL_SRC 0 0 with
  | 1 => [0]
  | 2 => [1]
  | 3 => [2]
  | _ =>
    let host := if m < 32 then [2] else []
    match c.pins.bootSrc with
    | 0 => [0, 1]
    | 1 => [0, 1] ++ host
    | 2 => [2]
    | _ => if c.lifecycle = 2 then [0, 1] ++ host else []

/-- A write of GLB_RESET with KIND `k` and INDEX `i`. A DEV reset aborts a reset that runs; any other finds it BUSY. KIND 0
requests nothing (log 61). The domain of a HALL, PIPE or PORT reset is stopped after it (R67; log 85). -/
def resetCmd (m k i : Nat) (c : Chip) : Chip :=
  let st := Fd.GLB_RESET_STATUS
  let args (c : Chip) : Chip := (c.set Fd.GLB_RESET_INDEX 0 0 i).set Fd.GLB_RESET_KIND 0 0 k
  if k = 1 then ((args c).devReset 0).set st 0 0 sBUSY
  else
    let srcs := c.structSources m
    let range := (decide (k = 3) && decide (i < 32) && c.hallPresent i) || (decide (k = 4) && decide (i < 4)) || (decide (k = 5) && decide (i < 96)) ||
      decide (k = 0 ∨ k = 2)
    let dom := if k = 3 then 5 else if k = 4 then 1 else 0
    c.command st 0 0 m (addrOf .GLB_RESET 0 0) args
      [(decide (k = 2) && decide (srcs.head? = some 2) && decide (32 ≤ m), sPRIV),
       (decide (k = 2) && !c.stopped 6 0, sQUIESCE),
       (decide (3 ≤ k ∧ k ≤ 5) && range && !c.quiesced dom i, sQUIESCE),
       (decide (k = 2) && (decide (srcs = []) || (decide (srcs.head? = some 2) && decide (c.get Fd.GLB_IMG_ADDR_LO_ADDR 0 0 % 16 ≠ 0))), sARG),
       (decide (5 < k) || !range, sARG)]
      (fun c =>
        let busy (c : Chip) : Chip := ({ c with ctl := { c.ctl with rst := some (k, i) } }).set st 0 0 sBUSY
        match k with
        | 2 => (busy c).loadStart (srcs.headD 0) srcs.tail true
        | 3 => ({ c.hallReset i with ctl := { (c.hallReset i).ctl with hallResets := c.ctl.hallResets ++ [(i, 0)] } } |> busy).markStopped 5 i
        | 4 => (busy (c.pipeReset i)).markStopped 1 i
        | 5 => (busy (c.portReset i)).markStopped 0 i
        | _ => c)

/-- RESET_COMPLETE: a DEV, PIPE or PORT reset ends; `pass` is the self-test of a fenced pipeline. -/
def resetComplete (pass : Bool) (c : Chip) : Chip :=
  let done (c : Chip) (code : Nat) : Chip := ({ c with ctl := { c.ctl with rst := none } }).set Fd.GLB_RESET_STATUS 0 0 code
  match c.ctl.rst with
  | some (1, 0) => done c sDONE
  | some (1, _) => { c with ctl := { c.ctl with rst := none } }
  | some (4, p) => let r := c.pipeBack p pass; done r.2 r.1
  | some (5, n) => let r := c.portBack n; done r.2 r.1
  | _ => c

/-- HALL_RESET_COMPLETE: no work of the old generation of hall `h` remains (R344). -/
def hallResetComplete (h : Nat) (c : Chip) : Chip :=
  if !(c.ctl.hallResets.any (fun x => decide (x.1 = h))) || !c.hallQuiet h then c
  else
    let c1 : Chip := { c with ctl := { c.ctl with hallResets := c.ctl.hallResets.filter (fun x => decide (x.1 ≠ h)) } }
    match c1.ctl.rst with
    | some (3, i) => if i = h then ({ c1 with ctl := { c1.ctl with rst := none } }).set Fd.GLB_RESET_STATUS 0 0 sDONE else c1
    | _ => c1

/-- A guarded write of GLB_RESET: with the KG lock armed it starts nothing (R11). -/
def State.resetWrite (s : State) (m k i : Nat) : Host.Outcome State Fault Refusal :=
  s.regWrite m .GLB_RESET 0 0 (fun kg c =>
    if kg then resetCmd m (k % 8) (i % 128) c else c.plainWrite m false .GLB_RESET 0 0 (i % 128 * 2 ^ 8 + k % 8))

/-- RESET_DEV. -/
def execResetDev (m : Nat) (s : State) : Host.Outcome State Fault Refusal := s.resetWrite m 1 0
/-- RESET_STRUCT. -/
def execResetStruct (m : Nat) (s : State) : Host.Outcome State Fault Refusal := s.resetWrite m 2 0
/-- RESET_HALL. -/
def execResetHall (m h : Nat) (s : State) : Host.Outcome State Fault Refusal := s.resetWrite m 3 h
/-- RESET_PIPE. -/
def execResetPipe (m p : Nat) (s : State) : Host.Outcome State Fault Refusal := s.resetWrite m 4 p
/-- RESET_PORT. -/
def execResetPort (m n : Nat) (s : State) : Host.Outcome State Fault Refusal := s.resetWrite m 5 n
/-- RESET_COMPLETE. -/
def execResetComplete (pass : Bool) (s : State) : Host.Outcome State Fault Refusal := .next (s.onChip (resetComplete pass))
/-- HALL_RESET_COMPLETE. -/
def execHallResetComplete (h : Nat) (s : State) : Host.Outcome State Fault Refusal := .next (s.onChip (hallResetComplete h))
/-- IMAGE_APPLY. -/
def execImageApply (s : State) : Host.Outcome State Fault Refusal := .next (s.onChip imageApply)
/-- QSC_STOP. -/
def execQscStop (m dom idx : Nat) (s : State) : Host.Outcome State Fault Refusal :=
  s.regWrite m .GLB_QSC_CMD 0 0 (fun _ => qscCmd m 1 dom idx)
/-- QSC_RELEASE. -/
def execQscRelease (m dom idx : Nat) (s : State) : Host.Outcome State Fault Refusal :=
  s.regWrite m .GLB_QSC_CMD 0 0 (fun _ => qscCmd m 2 dom idx)
/-- QUIESCED. -/
def execQuiesced (s : State) : Host.Outcome State Fault Refusal := .next (s.onChip quiescedEvt)

end Sys2Proof.Machine
end

