-- ==== Sys2Proof/Machine/Power.lean ====
section
/-! DEFINITION. Power states, rails, reset pins, the host link, and the thermal and voltage monitors (R52, R70 to R75, R331,
R419, R422, R432 to R435, R454 to R462). -/

namespace Sys2Proof.Machine

/-! ## STEP (R72, R73, R432) -/

/-- The pipelines that run, neither fenced nor parked. -/
def Chip.pipesRunning (c : Chip) : List Nat := (List.range 4).filter (fun p => !c.isFenced 1 p && !c.parked p)

/-- The slots of 1 µs at step `k` (R72): 3 for each CORE_CLK of each running pipeline. -/
def Chip.slotRate (c : Chip) (k : Nat) : Nat := c.pipesRunning.length * 3 * ([3000, 2250, 1500, 750].getD k 750)

/-- Slot use of the 1 µs that ends at TIME_CLK edge `t`. -/
def Chip.slotUse (c : Chip) (t : Nat) : Nat :=
  (c.pipesRunning.flatMap (fun p => (c.pipe p).used)).foldl (fun a e => if e.1 ≤ t ∧ t < e.1 + 1000 then a + e.2 else a) 0

/-- The trigger for 3.0 GHz: slot use above 80 %, or a vestibule above 8 KiB. -/
def Chip.loadHigh (c : Chip) : Bool :=
  decide (80 * c.slotRate c.tim.step < 100 * c.slotUse c.tim.clk) || (List.range 96).any (fun n => decide (8192 < c.vestLevel n))

/-- Slot use has stayed below 40 % of the next lower step's rate for 100 µs, since the last step change at the least. It is highest
at the edges at which a slot carried a header. -/
def Chip.loadLow (c : Chip) : Bool :=
  let low (t : Nat) : Bool := decide (100 * c.slotUse t < 40 * c.slotRate (c.tim.step + 1))
  decide (c.tim.stepAt + 100000 ≤ c.tim.clk) && low (c.tim.clk - 100000) && low c.tim.clk &&
    (c.pipesRunning.flatMap (fun p => (c.pipe p).used)).all (fun e => decide (e.1 + 100000 < c.tim.clk) || low e.1)

/-- The clock after a setting or the heat has changed: held while heat asks for it, at 3.0 GHz with STEP_EN = 0. -/
def Chip.settleClock (c : Chip) : Chip :=
  if !c.running then c
  else if c.throttled then c.setStep c.heldStep
  else if c.flag Fd.GLB_PWR_CTRL_STEP_EN 0 0 then c
  else c.setStep 0

/-- STEP_UP: the trigger of R72 holds. -/
def stepUp (c : Chip) : Chip :=
  if c.flag Fd.GLB_PWR_CTRL_STEP_EN 0 0 && c.running && !c.throttled && c.loadHigh then c.setStep 0 else c

/-- STEP_DOWN: one step, not below STEP_FLOOR, once the load has been low for 100 µs. -/
def stepDown (c : Chip) : Chip :=
  if c.flag Fd.GLB_PWR_CTRL_STEP_EN 0 0 && c.running && !c.throttled && c.loadLow && decide (c.tim.step < c.get Fd.GLB_PWR_CTRL_STEP_FLOOR 0 0) then
    c.setStep (c.tim.step + 1)
  else c

/-! ## STANDBY (R75) -/

/-- The PCIe link leaves L0 (R419): the host's settings of the functions go with it, VF Enable among them (PRESUMED, log 136). -/
def Chip.hostLinkLost (c : Chip) : Chip :=
  let c1 : Chip := { c with bus := { c.bus with vfEnable := false } }
  if c.pins.linkUp then ({ c1 with pins := { c1.pins with linkUp := false } }).raise fHOSTLINK 0 else c1

/-- Entry: frames in flight are lost and not counted, optics, core and the main rails go off; commands that run are aborted, but
for a fuse burn (R69); time runs on. `held` when heat or a rail forces it (R433, R434). -/
def Chip.enterStandby (c : Chip) (held : Bool) : Chip :=
  if c.ctl.standby then { c with ctl := { c.ctl with standbyHeld := c.ctl.standbyHeld || held } }
  else
    let c0 := if c.ctl.parking.isEmpty then c else c.unset Fd.GLB_PWR_CTRL_STATUS 0 0
    let c1 := c0.timeStandby.hostLinkLost
    let c2 : Chip := { c1 with
      pins := { c1.pins with pwrGood := false },
      bus := { c1.bus with kgOpen := false },
      engs := [],
      atr := Atr.reset, ports := [], pipes := c1.pipes.map (fun e => (e.1, { e.2 with buf := [], learnQ := [], tcamOp := none })),
      jobs := [], snaps := [], img := { c1.img with load := none },
      sec := { c1.sec with ce := none, ke := none, rng := none, burn := c1.sec.burn.filter (fun j => decide (j.op = 0 ∨ j.b = 1)) },
      ctl := { c1.ctl with standby := true, standbyHeld := held, qsc := none, rst := none, hallJob := none, parking := [],
                           unparking := [], hallResets := [] } }
    (c2.idxWith Fd.PRT_LINK_STATUS_STATE).foldl (fun c n => if c.isFenced 0 n then c else c.unset Fd.PRT_LINK_STATUS_STATE n 0) c2

/-- BOOT of the fault history counts a PIN and each exit from STANDBY (R425). -/
def Chip.bootCount (c : Chip) : Chip := c.cntWrap Fd.FLT_HIST_STATUS_BOOT 0 0 1

/-- Exit: the settings return as the survival table states, the fuses are sensed, the spare map is restored, a boot is due. -/
def State.exitStandby (s : State) : State :=
  let c := (s.chip.deviceReset rkSTANDBY).timeStandbyExit
  let c1 : Chip := { c with img := { inForce := none, load := none },
                            ctl := { c.ctl with standby := false, standbyHeld := false, bootDue := true }, tim := { c.tim with step := 0 } }
  let s1 : State := ({ s with chip := c1.bootCount }).sense
  { s1 with chip := s1.chip.rebuildSpares }

/-- A condition that holds the device in STANDBY stands (R435). -/
def Chip.standbyBarred (c : Chip) : Bool := c.ctl.standbyHeld && (c.flt.therm || !c.flt.voltCrit.isEmpty)

/-! ## GLB_PWR_CTRL (R70, R71, R74) -/

/-- Pipeline `p` leaves PARK. -/
def Chip.unparkPipe (c : Chip) (p : Nat) : Chip :=
  if !c.parked p then c
  else
    ({ c with ctl := { c.ctl with stopped := without (1, p) c.ctl.stopped, unparking := insNew p c.ctl.unparking } }).set
      Fd.GLB_PWR_CTRL_PARKED 0 0 (setBit (c.get Fd.GLB_PWR_CTRL_PARKED 0 0) p false)

/-- A write of GLB_PWR_CTRL. One that would change PARK or STANDBY while its STATUS is BUSY is refused whole, STEP_FLOOR and STEP_EN
with it (R20; DESIGN CHOICE, log 137). A PARK request that is rejected leaves PARK as it was (R16, R18); STEP_FLOOR and STEP_EN
are settings, not of the request, and are written (log 86). -/
def pwrCtrlWrite (m : Nat) (kg : Bool) (v : Nat) (c : Chip) : Chip :=
  let st := Fd.GLB_PWR_CTRL_STATUS
  let cur := c.get Fd.GLB_PWR_CTRL_PARK 0 0
  let want := bits 23 20 v
  let stby := bitOf v 1
  if c.get st 0 0 = sBUSY ∧ (want ≠ cur ∨ (stby && kg) = true) then (c.stateErr).refuse m .GLB_PWR_CTRL 0 0
  else
    let up := (List.range 4).filter (fun p => bitOf want p && !bitOf cur p)
    let down := (List.range 4).filter (fun p => !bitOf want p && bitOf cur p)
    let en := c.flag Fd.GLB_PWR_CTRL_STEP_EN 0 0
    let c1 := (c.set Fd.GLB_PWR_CTRL_STEP_FLOOR 0 0 (bits 5 4 v)).set Fd.GLB_PWR_CTRL_STEP_EN 0 0 (v % 2)
    let c2 := (if en && !bitOf v 0 then c1.fullSpeed else c1).settleClock
    let bad := up.any (fun p => (List.range 96).any (fun n => decide (c.portPipe n = p)))
    let c3 := if bad then c2 else down.foldl (fun c p => c.unparkPipe p) (c2.set Fd.GLB_PWR_CTRL_PARK 0 0 want)
    let c4 := if bad then c3.outcome st 0 0 sSTATE
      else if up.isEmpty then c3
      else ({ c3 with ctl := { c3.ctl with parking := c3.ctl.parking ++ up } }).set st 0 0 sBUSY
    if !stby then c4
    else if kg then ((c4.set Fd.GLB_PWR_CTRL_STANDBY 0 0 1).set st 0 0 sDONE).enterStandby false
    else c4.kgRefuse m .GLB_PWR_CTRL 0 0

/-- The present value of GLB_PWR_CTRL's writable fields but STANDBY. -/
def Chip.pwrCtrl (c : Chip) : Nat :=
  c.get Fd.GLB_PWR_CTRL_PARK 0 0 * 2 ^ 20 + c.get Fd.GLB_PWR_CTRL_STEP_FLOOR 0 0 * 16 + c.get Fd.GLB_PWR_CTRL_STEP_EN 0 0

/-- PARK_COMPLETE. -/
def parkComplete (p : Nat) (c : Chip) : Chip :=
  if !(decide (p ∈ c.ctl.parking)) || !c.quiet 1 p then c
  else
    let left := without p c.ctl.parking
    let c1 := ({ c with ctl := { c.ctl with parking := left, stopped := insNew (1, p) c.ctl.stopped } }).set
      Fd.GLB_PWR_CTRL_PARKED 0 0 (setBit (c.get Fd.GLB_PWR_CTRL_PARKED 0 0) p true)
    if left.isEmpty then c1.set Fd.GLB_PWR_CTRL_STATUS 0 0 sDONE else c1

/-- PIPE_UNPARKED: 5 µs after PARK is written 0. -/
def pipeUnparked (p : Nat) (c : Chip) : Chip := { c with ctl := { c.ctl with unparking := without p c.ctl.unparking } }

/-- QSC_TIMEOUT: the STOP that runs returns its domain to running; so for a FREEZE and a PARK (R60, R358). -/
def qscTimeout (c : Chip) : Chip :=
  match c.ctl.qsc, c.ctl.hallJob with
  | some _, _ => ({ c with ctl := { c.ctl with qsc := none } }).set Fd.GLB_QSC_CMD_STATUS 0 0 sTIMEOUT
  | none, some (2, _) => ({ c with ctl := { c.ctl with hallJob := none } }).set Fd.GLB_HALL_CMD_STATUS 0 0 sTIMEOUT
  | _, _ =>
    if c.ctl.parking.isEmpty then c
    else
      let cur := c.ctl.parking.foldl (fun v p => setBit v p false) (c.get Fd.GLB_PWR_CTRL_PARK 0 0)
      (({ c with ctl := { c.ctl with parking := [] } }).set Fd.GLB_PWR_CTRL_PARK 0 0 cur).set Fd.GLB_PWR_CTRL_STATUS 0 0 sTIMEOUT

/-- STANDBY_EXIT_WRITE: the side-band's guarded write of STANDBY = 0 (R75, R435). A write that does not leave STANDBY writes the
live fields; with the KG lock armed it is recorded where it would change STANDBY (R71). -/
def standbyExitWrite (v : Nat) (s : State) : State :=
  let c := s.chip
  let live (c : Chip) : Chip :=
    ((((c.rearm).set Fd.GLB_PWR_CTRL_PARK 0 0 (bits 23 20 v)).set Fd.GLB_PWR_CTRL_STEP_FLOOR 0 0 (bits 5 4 v)).set
      Fd.GLB_PWR_CTRL_STEP_EN 0 0 (v % 2))
  if !c.ctl.standby || !c.pins.auxGood then s
  else if !c.priv mSB then s.onChip (fun c => (c.rearm).logErr mSB (addrOf .GLB_PWR_CTRL 0 0) true kPRIV)
  else if !c.bus.kgOpen then
    if bitOf v 1 = c.flag Fd.GLB_PWR_CTRL_STANDBY 0 0 then s.onChip live
    else s.onChip (fun c => (live c).kgRefuse mSB .GLB_PWR_CTRL 0 0)
  else if bitOf v 1 then s.onChip (fun c => (live c).set Fd.GLB_PWR_CTRL_STANDBY 0 0 1)
  else if c.standbyBarred then s.onChip (fun c => (live c).refuse mSB .GLB_PWR_CTRL 0 0)
  else (s.onChip Chip.rearm).exitStandby

/-! ## Power-on, rails and pins -/

/-- POR's reset of the state, with the fuses sensed and the spare map restored. -/
def State.coldReset (s : State) (kind : Nat) (fails : List (Nat × Nat)) : State :=
  let c := s.chip.deviceReset kind
  let c1 : Chip := { c with img := { inForce := none, load := none }, ctl := { c.ctl with bootDue := true } }
  let s1 : State := ({ s with chip := c1.fuseFound fails }).sense
  let c2 := if kind = rkPOR then s1.chip.rebuildSpares else s1.chip
  { s1 with chip := c2.selfTests fails }

/-- POR: power applied, every rail good, RESET_N released. -/
def por (bootSrc sbAddr : Nat) (fails : List (Nat × Nat)) (s : State) : State :=
  let s1 := (s.onChip (fun c => { c with ctl := { c.ctl with standby := false, standbyHeld := false } })).coldReset rkPOR fails
  s1.onChip (fun c => { c with pins := { c.pins with
    auxGood := true, holdup := false, vin48 := true, pwrEn := true, pwrGood := true, resetN := true, linkUp := false,
    bootSrc := bootSrc % 4, sbAddr := sbAddr % 8 } })

/-- AUX_GOOD_RISE: the auxiliary domain starts. A loss of V3P3_AUX has always been POR. -/
def auxGoodRise (sbAddr : Nat) (s : State) : State :=
  if s.chip.pins.auxGood then s
  else
    let s1 := (s.onChip (fun c => { c with ctl := { c.ctl with standby := false, standbyHeld := false } })).coldReset rkPOR []
    s1.onChip (fun c => { c with pins := { c.pins with auxGood := true, holdup := false, linkUp := false, sbAddr := sbAddr % 8 } })

/-- AUX_LOSS: the auxiliary domain runs on from hold-up. -/
def auxLoss (c : Chip) : Chip :=
  if !c.pins.auxGood then c else { c with pins := { c.pins with auxGood := false, holdup := true } }

/-- AUX_HOLDUP_EXPIRE: the module takes POR. -/
def auxHoldupExpire (fails : List (Nat × Nat)) (s : State) : State :=
  if !s.chip.pins.holdup then s
  else
    (s.coldReset rkPOR fails).onChip (fun c => { c with
      pins := { c.pins with holdup := false, pwrGood := false, linkUp := false },
      ctl := { c.ctl with standby := false, standbyHeld := false } })

/-- VOLT_CRIT of rail `r` (R434). -/
def Chip.voltCritical (c : Chip) (r : Nat) : Chip :=
  let c1 := ({ c with flt := { c.flt with voltCrit := insNew r c.flt.voltCrit } }).raise fVOLTC r
  if r = 0 ∨ 3 ≤ r then c1.enterStandby true else c1

def vin48Rise (c : Chip) : Chip := { c with pins := { c.pins with vin48 := true } }

/-- VIN48_FALL: the main regulators stop; a loss while they run enters STANDBY through VOLT_CRIT (R458, R460). Below 38 V the rail
is outside both its bands (R434). -/
def vin48Fall (c : Chip) : Chip :=
  let c1 : Chip := { c with pins := { c.pins with vin48 := false, pwrGood := false } }
  if c.ctl.standby || !c.pins.auxGood || !c.pins.pwrGood then c1
  else
    let c2 := if 0 ∈ c.flt.voltWarn then c1
      else ({ c1 with flt := { c1.flt with voltWarn := insNew 0 c1.flt.voltWarn } }).raise fVOLTW 0
    c2.voltCritical 0

/-- PWR_GOOD_RISE: the main rails are within their bands. -/
def pwrGoodRise (bootSrc : Nat) (c : Chip) : Chip :=
  if c.pins.pwrEn && c.pins.auxGood && c.pins.vin48 && !c.ctl.standby && !c.pins.pwrGood then
    { c with pins := { c.pins with pwrGood := true, bootSrc := if c.pins.resetN then bootSrc % 4 else c.pins.bootSrc } }
  else c

def pwrEnFall (c : Chip) : Chip :=
  let c1 : Chip := { c with pins := { c.pins with pwrEn := false, pwrGood := false } }
  if c.pins.auxGood then c1.enterStandby false else c1

def pwrEnRise (s : State) : State :=
  if s.chip.pins.pwrEn then s
  else
  let s1 := s.onChip (fun c => { c with pins := { c.pins with pwrEn := true } })
  if s.chip.ctl.standby && s.chip.pins.auxGood && !s.chip.standbyBarred then s1.exitStandby else s1

/-- RESET_N_ASSERT: a low level of at least 2 µs is a PIN reset (R461). -/
def resetNAssert (lowNs : Nat) (s : State) : State :=
  if lowNs < 2000 ∨ !s.chip.pins.auxGood then s
  else
    let link := s.chip.pins.linkUp
    let s1 := s.coldReset rkPIN []
    s1.onChip (fun c =>
      let c1 := ({ c with pins := { c.pins with resetN := false, linkUp := false } }).bootCount
      if link then c1.raise fHOSTLINK 0 else c1)

/-- RESET_N_RELEASE: the straps are sampled, the units test themselves, a boot is due. -/
def resetNRelease (bootSrc sbAddr : Nat) (fails : List (Nat × Nat)) (s : State) : State :=
  if s.chip.pins.resetN then s
  else
    let s1 := (s.onChip (fun c => { c.fuseFound fails with
      pins := { c.pins with resetN := true, bootSrc := bootSrc % 4, sbAddr := sbAddr % 8 }, ctl := { c.ctl with bootDue := true } })).sense
    s1.onChip (fun c => c.selfTests fails)

/-- PERST_N_ASSERT: acts as a DEV reset; the link goes down, every function's configuration space is reset (R462). -/
def perstNAssert (c : Chip) : Chip :=
  let c1 : Chip := { c with pins := { c.pins with perstN := false, linkUp := false },
                            bus := { c.bus with vfEnable := false, cplAbort := [], aerAbort := [] } }
  if c.running then c1.devReset 1 else c1

def perstNRelease (c : Chip) : Chip := { c with pins := { c.pins with perstN := true } }

/-- HOST_LINK_UP: training ends, and the host sets VF Enable as it enumerates the functions (PRESUMED, log 136). -/
def hostLinkUp (c : Chip) : Chip :=
  if c.pins.perstN && c.running then { c with pins := { c.pins with linkUp := true }, bus := { c.bus with vfEnable := true } } else c

/-- TotalVFs of the SR-IOV capability (R332). -/
def Chip.totalVFs (c : Chip) : Nat := min 31 (c.hallLimit - 1)

/-- What a function's configuration space shows (R331): Device ID, Vendor ID, class code, the sizes of BAR0 and BAR2, MSI-X vectors;
whether it carries the ARI, SR-IOV, AER and MSI-X capabilities; the largest payload and read request; the first VF offset and the
VF stride. -/
structure PcieFn where
  deviceId : Nat
  vendorId : Nat
  classCode : Nat
  bar0 : Nat
  bar2 : Nat
  vectors : Nat
  caps : Bool
  maxPayload : Nat
  maxRead : Nat
  vfOffset : Nat
  vfStride : Nat
  deriving DecidableEq, Repr

/-- Function `h`: the PF is 0. Its Vendor ID is the one assigned to Ifenal, which the spec does not give (log 136). -/
def pcieFn (h : Nat) : PcieFn :=
  { deviceId := if h = 0 then 0x9616 else 0x961F, vendorId := Config.freeVendorId % 2 ^ 16, classCode := 0x020000,
    bar0 := if h = 0 then 2 ^ 26 else 2 ^ 20, bar2 := if h = 0 then 2 ^ 16 else 2 ^ 13, vectors := if h = 0 then 64 else 34,
    caps := decide (h = 0), maxPayload := 512, maxRead := 4096, vfOffset := 1, vfStride := 1 }

/-! ## Monitors (R432 to R435) -/

def Chip.critC (c : Chip) : Nat := min 130 (c.get Fd.FLT_THERM_CTRL_CRIT_C 0 0)
def Chip.warnC (c : Chip) : Nat := min c.critC (c.get Fd.FLT_THERM_CTRL_WARN_C 0 0)

/-- A sensor's reading, in 1/16 °C. -/
def Chip.temp (c : Chip) (i : Nat) : Int := signed 16 (c.get Fd.FLT_TEMP_TEMP i 0)

/-- THERM_CRIT holds: the clock is held, if the reaction says so. -/
def Chip.heat (c : Chip) : Chip :=
  let c1 : Chip := { c with flt := { c.flt with therm := true } }
  if c1.throttled then c1.setStep c1.heldStep else c1

/-- THERM_THRESHOLD: sensor `i` now reads `t`. A threshold it has just passed raises its fault. -/
def thermThreshold (i : Nat) (t : Int) (c : Chip) : Chip :=
  if 16 ≤ i then c
  else
    let old := c.temp i
    let c1 := c.set Fd.FLT_TEMP_TEMP i 0 (unsigned 16 t)
    let above (k : Nat) (x : Int) : Bool := decide (16 * (k : Int) < x)
    let c2 := if above c.warnC t && !above c.warnC old then
        ({ c1 with flt := { c1.flt with thermWarn := true } }).raise fTHERMW i else c1
    if above c.critC t && !above c.critC old then (c2.raise fTHERMC i).heat else c2

/-- A write of FLT_THERM_CTRL, which is live: a sensor that is above a threshold only now raises its fault (R432). -/
def Chip.thermMoved (c : Chip) (warn crit : Nat) : Chip :=
  let above (k i : Nat) (c : Chip) : Bool := decide (16 * (k : Int) < c.temp i)
  ((List.range 16).foldl (fun (c : Chip) i =>
    let c1 := if above c.warnC i c && !above warn i c then
        ({ c with flt := { c.flt with thermWarn := true } }).raise fTHERMW i else c
    if above c.critC i c && !above crit i c then (c1.raise fTHERMC i).heat else c1) c).settleClock

def thermCtrlWrite (m : Nat) (kg : Bool) (v : Nat) (c : Chip) : Chip :=
  (c.plainWrite m kg .FLT_THERM_CTRL 0 0 v).thermMoved c.warnC c.critC

/-- A write of FLT_REACT: THERM governs the clock from then on. -/
def reactWrite (m : Nat) (kg : Bool) (v : Nat) (c : Chip) : Chip := (c.plainWrite m kg .FLT_REACT 0 0 v).settleClock

/-- THERM_TRIP: 135 °C, whatever the registers hold (R433). -/
def thermTrip (i : Nat) (t : Int) (c : Chip) : Chip :=
  if 16 ≤ i ∨ t < 135 * 16 then c
  else
    let c1 := c.set Fd.FLT_TEMP_TEMP i 0 (unsigned 16 t)
    let c2 := ((c1.histEntry fTHERMC i 0xFFFF).latchFault fTHERMC).heat
    ({ c2 with flt := { c2.flt with lastUnit := c2.flt.lastUnit.put 0 fTHERMC (i + 1) } }).enterStandby true

/-- STANDBY ends at once when its cause has gone and PWR_EN is high (R460). -/
def State.coolDown (s : State) : State :=
  if s.chip.ctl.standby && s.chip.ctl.standbyHeld && !s.chip.standbyBarred && s.chip.pins.pwrEn && s.chip.pins.auxGood then s.exitStandby else s

/-- THERM_CONDITION_CLEAR: no sensor reads above `t`. -/
def thermConditionClear (t : Int) (bootSrc : Nat) (s : State) : State :=
  let s1 := s.onChip (fun c =>
    let c1 := (List.range 16).foldl (fun (c : Chip) i => if t < c.temp i then c.set Fd.FLT_TEMP_TEMP i 0 (unsigned 16 t) else c) c
    ({ c1 with flt := { c1.flt with therm := c.flt.therm && decide (16 * ((c.critC : Int) - 5) < t),
                                    thermWarn := c.flt.thermWarn && decide (16 * ((c.warnC : Int) - 5) < t) } }).settleClock)
  let s2 := s1.coolDown
  if s1.chip.ctl.standby && !s2.chip.ctl.standby then s2.onChip (fun c => { c with pins := { c.pins with bootSrc := bootSrc % 4 } }) else s2

/-- A rail outside its warning band, and outside its critical band, in mV. -/
def railOut (r mv : Nat) : Bool × Bool :=
  let around (nom w k : Nat) : Bool × Bool :=
    (decide (mv * 100 < nom * (100 - w) ∨ nom * (100 + w) < mv * 100), decide (mv * 100 < nom * (100 - k) ∨ nom * (100 + k) < mv * 100))
  match r with
  | 0 => (decide (mv < 40000 ∨ 60000 < mv), decide (mv < 38000 ∨ 62000 < mv))
  | 1 => around 3300 5 8
  | 2 => around 1800 5 8
  | _ => around (Config.railNominal r) 3 6

/-- VOLT_BAND_EXIT. -/
def voltBandExit (r mv : Nat) (c : Chip) : Chip :=
  if 6 ≤ r then c
  else
    let c1 := c.set Fd.FLT_VMON_MV r 0 mv
    let o := railOut r mv
    let c2 := if o.1 && !decide (r ∈ c.flt.voltWarn) then
        ({ c1 with flt := { c1.flt with voltWarn := insNew r c1.flt.voltWarn } }).raise fVOLTW r else c1
    if o.2 && !decide (r ∈ c.flt.voltCrit) then c2.voltCritical r else c2

/-- VOLT_BAND_RECOVER: back inside a band for 1 ms. -/
def voltBandRecover (r mv : Nat) (s : State) : State :=
  if 6 ≤ r then s
  else
    let o := railOut r mv
    (s.onChip (fun c =>
      let c1 := c.set Fd.FLT_VMON_MV r 0 mv
      { c1 with flt := { c1.flt with voltWarn := if o.1 then c1.flt.voltWarn else without r c1.flt.voltWarn,
                                     voltCrit := if o.2 then c1.flt.voltCrit else without r c1.flt.voltCrit } })).coolDown

/-! ## Execution -/

/-- POR. -/
def execPor (bootSrc sbAddr : Nat) (fails : List (Nat × Nat)) (s : State) : Host.Outcome State Fault Refusal := .next (por bootSrc sbAddr fails s)
/-- AUX_GOOD_RISE. -/
def execAuxGoodRise (sbAddr : Nat) (s : State) : Host.Outcome State Fault Refusal := .next (auxGoodRise sbAddr s)
/-- AUX_LOSS. -/
def execAuxLoss (s : State) : Host.Outcome State Fault Refusal := .next (s.onChip auxLoss)
/-- AUX_HOLDUP_EXPIRE. -/
def execAuxHoldupExpire (fails : List (Nat × Nat)) (s : State) : Host.Outcome State Fault Refusal := .next (auxHoldupExpire fails s)
/-- VIN48_RISE. -/
def execVin48Rise (s : State) : Host.Outcome State Fault Refusal := .next (s.onChip vin48Rise)
/-- VIN48_FALL. -/
def execVin48Fall (s : State) : Host.Outcome State Fault Refusal := .next (s.onChip vin48Fall)
/-- PWR_GOOD_RISE. -/
def execPwrGoodRise (bootSrc : Nat) (s : State) : Host.Outcome State Fault Refusal := .next (s.onChip (pwrGoodRise bootSrc))
/-- PWR_EN_FALL. -/
def execPwrEnFall (s : State) : Host.Outcome State Fault Refusal := .next (s.onChip pwrEnFall)
/-- PWR_EN_RISE. -/
def execPwrEnRise (s : State) : Host.Outcome State Fault Refusal := .next (pwrEnRise s)
/-- RESET_N_ASSERT. -/
def execResetNAssert (lowNs : Nat) (s : State) : Host.Outcome State Fault Refusal := .next (resetNAssert lowNs s)
/-- RESET_N_RELEASE. -/
def execResetNRelease (bootSrc sbAddr : Nat) (fails : List (Nat × Nat)) (s : State) : Host.Outcome State Fault Refusal :=
  .next (resetNRelease bootSrc sbAddr fails s)
/-- PERST_N_ASSERT. -/
def execPerstNAssert (s : State) : Host.Outcome State Fault Refusal := .next (s.onChip perstNAssert)
/-- PERST_N_RELEASE. -/
def execPerstNRelease (s : State) : Host.Outcome State Fault Refusal := .next (s.onChip perstNRelease)
/-- HOST_LINK_DOWN. -/
def execHostLinkDown (s : State) : Host.Outcome State Fault Refusal := .next (s.onChip Chip.hostLinkLost)
/-- HOST_LINK_UP. -/
def execHostLinkUp (s : State) : Host.Outcome State Fault Refusal := .next (s.onChip hostLinkUp)
/-- QSC_TIMEOUT. -/
def execQscTimeout (s : State) : Host.Outcome State Fault Refusal := .next (s.onChip qscTimeout)
/-- PARK_REQUEST: a write that sets bit `p` of PARK and changes nothing else. -/
def execParkRequest (m p : Nat) (s : State) : Host.Outcome State Fault Refusal :=
  s.regWrite m .GLB_PWR_CTRL 0 0 (fun kg => pwrCtrlWrite m kg (if p < 4 then setBit s.chip.pwrCtrl (20 + p) true else s.chip.pwrCtrl))
/-- PARK_COMPLETE. -/
def execParkComplete (p : Nat) (s : State) : Host.Outcome State Fault Refusal := .next (s.onChip (parkComplete p))
/-- UNPARK: a write that clears bit `p` of PARK. -/
def execUnpark (m p : Nat) (s : State) : Host.Outcome State Fault Refusal :=
  s.regWrite m .GLB_PWR_CTRL 0 0 (fun kg => pwrCtrlWrite m kg (if p < 4 then setBit s.chip.pwrCtrl (20 + p) false else s.chip.pwrCtrl))
/-- PIPE_UNPARKED. -/
def execPipeUnparked (p : Nat) (s : State) : Host.Outcome State Fault Refusal := .next (s.onChip (pipeUnparked p))
/-- STANDBY: a guarded write that sets STANDBY. -/
def execStandby (m : Nat) (s : State) : Host.Outcome State Fault Refusal :=
  s.regWrite m .GLB_PWR_CTRL 0 0 (fun kg => pwrCtrlWrite m kg (s.chip.pwrCtrl + 2))
/-- STANDBY_EXIT_WRITE. -/
def execStandbyExitWrite (v : Word) (s : State) : Host.Outcome State Fault Refusal := .next (standbyExitWrite v.toNat s)
/-- STEP_EN_CLEAR: a write that clears STEP_EN. -/
def execStepEnClear (m : Nat) (s : State) : Host.Outcome State Fault Refusal :=
  s.regWrite m .GLB_PWR_CTRL 0 0 (fun kg => pwrCtrlWrite m kg (setBit s.chip.pwrCtrl 0 false))
/-- STEP_UP. -/
def execStepUp (s : State) : Host.Outcome State Fault Refusal := .next (s.onChip stepUp)
/-- STEP_DOWN. -/
def execStepDown (s : State) : Host.Outcome State Fault Refusal := .next (s.onChip stepDown)
/-- THERM_THRESHOLD. -/
def execThermThreshold (i : Nat) (t16 : Int) (s : State) : Host.Outcome State Fault Refusal := .next (s.onChip (thermThreshold i t16))
/-- THERM_TRIP. -/
def execThermTrip (i : Nat) (t16 : Int) (s : State) : Host.Outcome State Fault Refusal := .next (s.onChip (thermTrip i t16))
/-- THERM_CONDITION_CLEAR. -/
def execThermConditionClear (t16 : Int) (bootSrc : Nat) (s : State) : Host.Outcome State Fault Refusal :=
  .next (thermConditionClear t16 bootSrc s)
/-- VOLT_BAND_EXIT. -/
def execVoltBandExit (r mv : Nat) (s : State) : Host.Outcome State Fault Refusal := .next (s.onChip (voltBandExit r mv))
/-- VOLT_BAND_RECOVER. -/
def execVoltBandRecover (r mv : Nat) (s : State) : Host.Outcome State Fault Refusal := .next (voltBandRecover r mv s)

end Sys2Proof.Machine
end

