-- ==== Sys2Proof/Machine/Rings.lean ====
section
/-! DEFINITION. Halls at work (R331 to R356): function level resets, port ownership, mailboxes, and the DMA rings. -/

namespace Sys2Proof.Machine

/-! ## Function level reset of the PF (R333) and port ownership (R335) -/

/-- PF_FLR: it acts as a DEV reset. -/
def pfFlr (c : Chip) : Chip := if c.running then c.devReset 1 else c

/-- Port `n` gets a new owner or becomes shared: its copies go, and the map entries of halls that lose it. -/
def Chip.setOwner (c : Chip) (n owner shared : Nat) : Chip :=
  if c.owner n = owner ∧ b2n (c.shared n) = shared then c
  else
    let c1 := ((c.dropPortQueues n).set Fd.GLB_PORT_OWN_OWNER n 0 owner).set Fd.GLB_PORT_OWN_SHARED n 0 shared
    if shared = 1 then c1
    else
      (List.range 32).foldl (fun (c : Chip) h =>
        if h = 0 ∨ h = owner then c
        else match c.localOf h n with
          | none => c
          | some l => c.set Fd.GLB_HPORT_VALID h l 0) c1

/-- A write of GLB_PORT_OWN_n. -/
def portOwnWrite (m n v : Nat) (c : Chip) : Chip :=
  if !c.quiesced 0 n then c.refuseRunning m .GLB_PORT_OWN n 0 v else c.setOwner n (v % 32) (bits 31 31 v)

/-! ## Mailboxes (R345, R346) -/

def Chip.hallRt (c : Chip) (h : Nat) : HallRt := c.halls.get HallRt.init h
def Chip.setHallRt (c : Chip) (h : Nat) (r : HallRt) : Chip := { c with halls := c.halls.put HallRt.init h r }

/-- A SEND of hall `h`. -/
def mbxSend (m h : Nat) (c : Chip) : Chip :=
  let st := Fd.HAL_MBX_CTRL_STATUS
  let len := c.get Fd.HAL_MBX_CTRL_OUT_LEN h 0
  let late := (c.hallRt h).staleReply
  let c1 := if late then c.setHallRt h { c.hallRt h with staleReply := false } else c
  c1.command st h 0 m (addrOf .HAL_MBX_CTRL h 0) id
    [(!c.genCurrent h || late, sSTALE), (c.stopped 5 h, sQUIESCE), (c.flag Fd.HAL_MBX_CTRL_OUT_FULL h 0, sSTATE),
     (decide (len = 0 ∨ 64 < len), sARG)]
    (fun c =>
      let c2 := (c.set Fd.HAL_MBX_CTRL_OUT_FULL h 0 1).set Fd.HAL_MBX_MGR_GEN h 0 (c.gen h)
      ((c2.setHallRt h { c2.hallRt h with stamped := some (c.gen h) }).irq 0 (34 + h % 30)).set st h 0 sDONE)

/-- A write of HAL_MBX_CTRL: OUT_LEN, then IN_ACK, then SEND. -/
def mbxCtrlWrite (m : Nat) (kg : Bool) (h v : Nat) (c : Chip) : Chip :=
  let c1 := c.plainWrite m kg .HAL_MBX_CTRL h 0 v
  let c2 := if bitOf v 1 then c1.set Fd.HAL_MBX_CTRL_IN_FULL h 0 0 else c1
  if bitOf v 0 then mbxSend m h c2 else c2

/-- The manager's reply: discarded when the hall's generation has changed since its message was stamped. -/
def mbxReply (h len : Nat) (c : Chip) : Chip :=
  match (c.hallRt h).stamped with
  | some g =>
    if g ≠ c.gen h then c.setHallRt h { c.hallRt h with staleReply := true }
    else ((c.set Fd.HAL_MBX_CTRL_IN_FULL h 0 1).set Fd.HAL_MBX_CTRL_IN_LEN h 0 len).irq h 32
  | none => ((c.set Fd.HAL_MBX_CTRL_IN_FULL h 0 1).set Fd.HAL_MBX_CTRL_IN_LEN h 0 len).irq h 32

/-- A write of HAL_MBX_MGR: privileged. -/
def mbxMgrWrite (m : Nat) (kg : Bool) (h v : Nat) (c : Chip) : Chip :=
  let c1 := c.plainWrite m kg .HAL_MBX_MGR h 0 v
  if !c.priv m then c1
  else
    let c2 := if bitOf v 0 then c1.set Fd.HAL_MBX_CTRL_OUT_FULL h 0 0 else c1
    if bitOf v 1 then mbxReply h (bits 22 16 v) c2 else c2

/-- An OUT word while OUT_FULL = 1, and an IN word while IN_FULL = 1, are ignored and recorded; to the hall itself the IN words
are RO. -/
def mbxWordWrite (m : Nat) (kg : Bool) (r : R) (h w v : Nat) (c : Chip) : Chip :=
  let full := if r = .HAL_MBX_OUT then c.flag Fd.HAL_MBX_CTRL_OUT_FULL h 0 else c.flag Fd.HAL_MBX_CTRL_IN_FULL h 0
  if r = .HAL_MBX_IN ∧ 1 ≤ m ∧ m < 32 then c
  else if full && (decide (r = .HAL_MBX_OUT) || c.priv m) then c.refuse m r h w else c.plainWrite m kg r h w v

/-! ## Rings (R348 to R351): `r` 0 to 15 transmit, 16 to 31 receive -/

def Chip.ringOn (c : Chip) (h r : Nat) : Bool := c.flag Fd.HAL_RING_CTRL_EN h r
def Chip.ringSize (c : Chip) (h r : Nat) : Nat := 2 ^ max 6 (min 16 (c.get Fd.HAL_RING_CTRL_SIZE_LOG2 h r))
def Chip.ringRt (c : Chip) (h r : Nat) : RingRt := c.rings.get RingRt.init h r
def Chip.setRingRt (c : Chip) (h r : Nat) (x : RingRt) : Chip := { c with rings := c.rings.put RingRt.init h r x }

/-- A 64-byte aligned address held in a pair of words. -/
def Chip.ringAddr (c : Chip) (f : F) (h r : Nat) : Nat := c.get f h (2 * r + 1) * 2 ^ 32 + c.get f h (2 * r) / 64 * 64

/-- The ring quota of hall `h` for the kind of ring `r`. -/
def Chip.ringQuota (c : Chip) (h r : Nat) : Nat :=
  if r < 16 then c.get Fd.GLB_QUOTA_W9_TX_RINGS h 0 else c.get Fd.GLB_QUOTA_W9_RX_RINGS h 0

/-- Setting EN starts a ring (R349). -/
def Chip.ringStart (c : Chip) (h r : Nat) : Chip :=
  let c1 := ((c.set Fd.HAL_RING_HEAD_HEAD h r 0).set Fd.HAL_RING_TAIL_TAIL h r 0).set Fd.HAL_RING_CPLT_CPL_TAIL h r 0
  (((c1.set Fd.HAL_RING_CPLT_PHASE h r 1).set Fd.HAL_RING_ERR_ERR h r 0).set Fd.HAL_RING_ERR_HALTED h r 0).setRingRt h r RingRt.init

/-- A write of a ring's CTRL. -/
def ringCtrlWrite (m : Nat) (kg : Bool) (h r v : Nat) (c : Chip) : Chip :=
  let on := c.ringOn h r
  if bitOf v 31 && !on && decide (c.ringQuota h r ≤ r % 16) then c.refuse m .HAL_RING_CTRL h r
  else
    let size := c.get Fd.HAL_RING_CTRL_SIZE_LOG2 h r
    let held := on && decide (bits 20 16 v ≠ size) && c.stopped 5 h
    let v1 := if held then v - bits 20 16 v * 2 ^ 16 + size * 2 ^ 16 else v
    let c1 := c.plainWrite m kg .HAL_RING_CTRL h r v1
    let c2 := if held then c1.refuse m .HAL_RING_CTRL h r else c1
    if bitOf v 31 && !on then c2.ringStart h r else c2

/-- A write of a ring's BASE or CPL word `j` (ring and half). -/
def ringAddrWrite (m : Nat) (kg : Bool) (reg : R) (h j v : Nat) (c : Chip) : Chip :=
  if c.ringOn h (j / 2) then c.refuse m reg h j
  else c.plainWrite m kg reg h j (if j % 2 = 0 then v / 64 * 64 else v)

/-- A doorbell: ignored and recorded while CURRENT = 0 (R343). -/
def ringTailWrite (m : Nat) (kg : Bool) (h r v : Nat) (c : Chip) : Chip :=
  if !c.genCurrent h then c.refuse m .HAL_RING_TAIL h r else c.plainWrite m kg .HAL_RING_TAIL h r v

/-- Ring `r` may fetch: it is in service, its hall runs, the host link is up and a DMA engine serves it. -/
def Chip.ringReady (c : Chip) (h r : Nat) : Bool :=
  c.running && c.pins.linkUp && c.hallPresent h && !c.stopping 5 h && c.ringOn h r && !c.flag Fd.HAL_RING_ERR_HALTED h r &&
    (List.range 4).any (fun e => !c.isFenced 3 e)

/-- Descriptors wait. HEAD and TAIL run on modulo 2^16; the entry is the index modulo the size (DEDUCED, log 47). -/
def Chip.ringWork (c : Chip) (h r : Nat) : Bool := decide (c.get Fd.HAL_RING_HEAD_HEAD h r ≠ c.get Fd.HAL_RING_TAIL_TAIL h r)

/-- The words of the next descriptor, `n` bytes long. -/
def Chip.fetchDesc (c : Chip) (h r n : Nat) : List Nat :=
  let a := c.ringAddr Fd.HAL_RING_BASE_ADDR h r + n * (c.get Fd.HAL_RING_HEAD_HEAD h r % c.ringSize h r)
  (List.range (n / 4)).map (fun k => leNat (Mem.read hostBlank c.host (a + 4 * k) 4))

/-- Halt a ring whose descriptor carries another generation (R343). -/
def Chip.ringHalt (c : Chip) (h r : Nat) : Chip :=
  (c.set Fd.HAL_RING_ERR_ERR h r sSTALE).set Fd.HAL_RING_ERR_HALTED h r 1

/-- The interrupt of a ring that has counted FRAMES completions, or whose USEC have passed. -/
def Chip.ringIrq (c : Chip) (h r : Nat) : Chip :=
  let c1 := c.setRingRt h r RingRt.init
  if c.flag Fd.HAL_RING_CTRL_IRQ_EN h r then c1.irq h r else c1

/-- Write the completion of the descriptor at HEAD (R356): `ws` are words 1 to 7. -/
def Chip.complete (c : Chip) (h r kind status : Nat) (ws : List Nat) : Chip :=
  let i := c.get Fd.HAL_RING_HEAD_HEAD h r
  let t := c.get Fd.HAL_RING_CPLT_CPL_TAIL h r
  let n := c.ringSize h r
  let phase := c.get Fd.HAL_RING_CPLT_PHASE h r
  let w0 := phase * 2 ^ 31 + kind * 2 ^ 28 + status * 2 ^ 24 + c.gen h * 2 ^ 16 + i
  let a := c.ringAddr Fd.HAL_RING_CPL_ADDR h r + 32 * (t % n)
  let c1 : Chip := { c with host := Mem.write hostBlank c.host a ((w0 :: ws).flatMap (leBytes 4)) }
  let c2 := (c1.set Fd.HAL_RING_CPLT_CPL_TAIL h r (t + 1)).set Fd.HAL_RING_HEAD_HEAD h r (i + 1)
  let c3 := if (t + 1) % n = 0 then c2.set Fd.HAL_RING_CPLT_PHASE h r (1 - phase) else c2
  let x := c3.ringRt h r
  let c4 := c3.setRingRt h r { since := x.since + 1, first := if x.since = 0 then c3.tim.clk else x.first }
  if c4.get Fd.HAL_RING_IRQ_FRAMES h r ≤ x.since + 1 then c4.ringIrq h r else c4

/-- RING_IRQ_TIMER: USEC µs have passed since the first completion that no interrupt has told of. -/
def ringIrqTimer (h r : Nat) (c : Chip) : Chip :=
  let x := c.ringRt h r
  if x.since = 0 ∨ c.tim.clk < x.first + 1000 * c.get Fd.HAL_RING_IRQ_USEC h r then c else c.ringIrq h r

/-- Free words. -/
def Chip.freeWords : Nat → Chip → List Nat × Chip
  | 0, c => ([], c)
  | n + 1, c =>
    let w := c.free
    let r := Chip.freeWords n w.2
    (w.1 % 2 ^ 32 :: r.1, r.2)

/-! ## Transmit rings (R352, R353) -/

/-- The pipeline that parses for the engine of ring `r`: its own number, or the lowest that runs. -/
def Chip.ringPipe (c : Chip) (h r : Nat) : Option Nat :=
  let e := c.ringEngine h r
  if c.pipeUp e then some e else c.pipesUp.head?

/-- The header of a frame counts on the pipeline that parsed it. -/
def Chip.parsed (c : Chip) (p : Nat) (h : Hdr) : Chip :=
  let c1 := c.evcPulse p evHDRIN 1 (some h)
  if h.exc = 0 then c1 else (c1.cntSat Fd.PIP_PARSE_EXC_COUNT p h.exc 1).evcPulse p evEXC 1 (some h)

/-- A host frame in LOOKUP mode through stages 5 to 8, as if received on port `n`. -/
def Chip.txLookup (c : Chip) (p h n : Nat) (d : List Nat) (ts : Option (Nat × Nat)) (learn : Bool) (hd : Hdr) : Bool × Hdr × Chip :=
  let k := (c.parsed p hd).classify p n d c.tim.devT hd
  let f : Frame := { c.newRx n c.tim.devT d d with
    ended := true, arrived := d.length + 4, handed := true, staged := true, pipe := p, hdr := some k.1, hall := h,
    tsReq := ts }
  let x := k.2.newFrame f
  let r := x.2.stage7In p x.1 n f k.1 h none learn
  (r.1, k.1, r.2.gc x.1)

/-- A host frame in DIRECT mode. -/
def Chip.txDirect (c : Chip) (p h cls : Nat) (e : ESet) (d : List Nat) (ts : Option (Nat × Nat)) (hd : Hdr) : Bool × Hdr × Chip :=
  let h1 : Hdr := { hd with cls := cls, colour := cGREEN, hash := c.hashOf p hd.profile hd.pv }
  let f : Frame := { c.newRx 127 c.tim.devT d d with
    ended := true, arrived := d.length + 4, handed := true, staged := true, pipe := p, hdr := some h1, hall := h,
    tsReq := ts }
  let x := (c.parsed p hd).newFrame f
  let s : St7 := { n := 127, hall := h, d := d, t := f.inRef, h := h1, tr := none, tag := none, pair := none,
                   red := { pass := true, accepted := false, seq := none }, strip := none, gen := none, glocal := 127 }
  let r := x.2.forward p x.1 f s false (some e)
  (r.1, h1, r.2.gc x.1)

/-- The outcome of a transmit descriptor, in the order of R353, with the frame's header as far as it came. -/
def Chip.txFrame (c : Chip) (h p : Nat) (ws : List Nat) : Nat × Hdr × Chip :=
  let w (i : Nat) : Nat := ws.getD i 0
  let len := w 2 % 2 ^ 15
  let d := Mem.read hostBlank c.host (w 1 * 2 ^ 32 + w 0) len
  let direct := bitOf (w 2) 31
  let tgt := w 3 % 2 ^ 19
  let l := tgt % 128
  let glp := direct && bitOf (w 2) 30
  let dev := if glp then (if tgt / 128 = c.galAddr ∧ l < 96 then some l else none) else c.hport h l
  let hd := c.parse p (if direct then 127 else dev.getD 127) true d
  let mine := match dev with
    | none => glp
    | some n => c.hallHas h n && (if direct then c.mayUse h n hd.vid else decide (c.frameHall n hd.vid = some h))
  let ts := if bitOf (w 2) 29 then some (h, w 4 % 2 ^ 16) else none
  if !mine then (sPRIV, hd, c)
  else if len < 60 ∨ 16380 < len then (sARG, hd, c)
  else
    let r : Bool × Hdr × Chip :=
      if direct then
        c.txDirect p h (bits 26 24 (w 2)) (if glp then { ESet.none_ with gals := [tgt] } else { ESet.none_ with ports := [dev.getD 127] })
          d ts hd
      else c.txLookup p h (dev.getD 127) d ts (bitOf (w 2) 28) hd
    if r.1 then (sDONE, r.2.1, r.2.2.stat 3 h 21 1) else (sNOSPACE, r.2.1, r.2.2)

/-! ## Receive rings (R354 to R356) -/

/-- The bytes of a copy to a host: as stage 11 leaves them, or the sampled-record header with the bytes that SNAP keeps. -/
def Chip.hostBytes (c : Chip) (x : Copy) (f : Frame) : List Nat × Chip :=
  if x.kind = 2 then
    let hd := c.recordHeader x f
    (hd.1 ++ f.wire.take (snapLen (c.get Fd.ATR_MIR_CTRL_SNAP (x.sess - 1) 0) f.wire.length), hd.2)
  else
    match f.hdr with
    | none => (padTo 60 f.data, c)
    | some h => (c.editBytes x.edit h f.data false, c)

/-- Words 1 to 7 of the completion of a copy `n` bytes long. -/
def Chip.rxWords (c : Chip) (hall : Nat) (x : Copy) (f : Frame) (n : Nat) : List Nat :=
  let ns := f.devT / 2 ^ 48
  let tag := if f.port < 96 then c.stairTag f.port f.data else none
  let sec := ns / 10 ^ 9
  [c.toLocal hall f.port * 2 ^ 16 + n % 2 ^ 15,
   ((f.hdr.bind (fun h => h.stream)).getD 0xFFFF) % 2 ^ 16 * 2 ^ 16 + x.cls % 8 * 2 ^ 13 + x.colour % 4 * 2 ^ 11 +
     ((f.hdr.map (fun h => h.exc)).getD 0) % 8 * 2 ^ 8 + x.reason,
   (f.hdr.map (fun h => h.vid)).getD 0, ns % 10 ^ 9, sec % 2 ^ 32, sec / 2 ^ 32 % 2 ^ 16 * 2 ^ 16 + f.devT % 2 ^ 48 / 2 ^ 32,
   b2n tag.isSome * 2 ^ 31 + f.epoch % 4 * 2 ^ 28 + ((tag.map (fun g => g.src)).getD 0) % 2 ^ 19]

/-- The head copy of host queue `r` of hall `h` goes to the buffer at HEAD. -/
def Chip.deliver (c : Chip) (h r : Nat) (x : Copy) (f : Frame) : Chip :=
  let q := 16 + r
  let ws := c.fetchDesc h q 16
  if bits 31 24 (ws.getD 3 0) ≠ c.gen h then c.ringHalt h q
  else
    let buf := ws.getD 2 0 % 2 ^ 15
    let b := c.hostBytes x f
    let n := b.1.length
    let kind := if x.kind = 2 then 3 else if x.reason = 0 then 1 else 2
    let pop (c : Chip) : Chip := c.setQueue (128 + h) r ((c.queue (128 + h) r).drop 1)
    if buf < n then
      (((pop b.2).dropCopy (128 + h) x).cntSat Fd.HAL_RING_TOO_BIG_COUNT h q 1).complete h q kind sNOSPACE (b.2.rxWords h x f n)
    else
      let c1 : Chip := { pop b.2 with host := Mem.write hostBlank c.host (ws.getD 1 0 * 2 ^ 32 + ws.getD 0 0) b.1 }
      ((c1.complete h q kind sDONE (b.2.rxWords h x f n)).release x.fid).stat 3 h 22 1

/-! ## The DMA engines' turns (R351) -/

/-- The copy of host queue `r` of hall `h` that would be delivered next: the first that has not aged, once its frame has ended. -/
def Chip.rxHead (c : Chip) (h r : Nat) : Option (Copy × Frame) :=
  match (c.queue (128 + h) r).find? (fun x => !c.stale x) with
  | none => none
  | some x =>
    match c.frame x.fid with
    | none => none
    | some f => if f.ended then some (x, f) else none

/-- The bytes of the next transfer of ring `r` of hall `h`; `none` when it has no work. A descriptor of another generation moves none:
it halts its ring. -/
def Chip.ringNext (c : Chip) (h r : Nat) : Option Nat :=
  if !c.ringReady h r || !c.ringWork h r then none
  else if r < 16 then
    let ws := c.fetchDesc h r 32
    if (c.ringPipe h r).isNone then none
    else some (if bits 31 24 (ws.getD 3 0) = c.gen h then ws.getD 2 0 % 2 ^ 15 else 0)
  else
    let ws := c.fetchDesc h r 16
    (c.rxHead h (r - 16)).map (fun e => if bits 31 24 (ws.getD 3 0) = c.gen h then (c.hostBytes e.1 e.2).1.length else 0)

def Chip.dmaRt (c : Chip) (e : Nat) : DmaRt := c.dma.get DmaRt.init e

/-- The ring of hall `h` whose turn it is at engine `e`, of those that have work, and the bytes of its transfer. -/
def Chip.hallNext (c : Chip) (e h : Nat) : Option (Nat × Nat) :=
  let t := (c.dmaRt e).turn.get 0 h
  let mine := (List.range 32).filter (fun r => decide (c.ringEngine h r = e))
  (mine.filter (fun r => decide (t ≤ r)) ++ mine.filter (fun r => decide (r < t))).findSome? (fun r => (c.ringNext h r).map (fun n => (r, n)))

/-- DMA_WEIGHT × 512 bytes; 0 acts as 1 (R340). -/
def Chip.dmaQuantum (c : Chip) (h : Nat) : Nat := 512 * max 1 (c.get Fd.GLB_QUOTA_W9_DMA_WEIGHT h 0)

/-- Visit the halls (with ring and bytes) in turn, each adding its quantum, until one's deficit covers its transfer: the hall, the ring
and the deficits after it. -/
def Chip.dmaVisit (c : Chip) : Nat → NMap Nat → List (Nat × Nat × Nat) → Option (Nat × Nat × NMap Nat)
  | 0, _, _ => none
  | _ + 1, _, [] => none
  | fuel + 1, m, k :: rest =>
    let d := m.get 0 k.1 + c.dmaQuantum k.1
    if k.2.2 ≤ d then some (k.1, k.2.1, m.put 0 k.1 (d - k.2.2)) else c.dmaVisit fuel (m.put 0 k.1 d) (rest ++ [k])

/-- What engine `e` transfers next: the hall, the ring, and the engine after it. The hall being served goes on while its deficit lasts;
a hall without work has none. -/
def Chip.dmaPick (c : Chip) (e : Nat) : Option (Nat × Nat × DmaRt) :=
  let rt := c.dmaRt e
  let halls := (List.range 32).filterMap (fun h => (c.hallNext e h).map (fun k => (h, k.1, k.2)))
  let m : NMap Nat := rt.defi.filter (fun x => halls.any (fun k => decide (k.1 = x.1)))
  match halls.find? (fun k => decide (k.1 = rt.hall ∧ k.2.2 ≤ m.get 0 k.1)) with
  | some k => some (k.1, k.2.1, { rt with defi := m.put 0 k.1 (m.get 0 k.1 - k.2.2), turn := rt.turn.put 0 k.1 (k.2.1 + 1) })
  | none =>
    let order := halls.filter (fun k => decide (rt.hall < k.1)) ++ halls.filter (fun k => decide (k.1 ≤ rt.hall))
    (c.dmaVisit (halls.length * ((halls.map (fun k => k.2.2)).foldl max 0 / 512 + 1)) m order).map (fun x =>
      (x.1, x.2.1, { hall := x.1, defi := x.2.2, turn := rt.turn.put 0 x.1 (x.2.1 + 1) }))

/-- The engine of ring `r` of hall `h` after it has taken that ring's transfer, when that is the one it takes next. -/
def Chip.dmaTurn (c : Chip) (h r : Nat) : Option Chip :=
  let e := c.ringEngine h r
  match c.dmaPick e with
  | none => none
  | some (h1, r1, rt) => if h1 = h ∧ r1 = r then some { c with dma := c.dma.put DmaRt.init e rt } else none

/-- Words 1 to 7 of a TX completion. Of a frame that was not received the timestamp, its EPOCH and the VID beside TS_ID are free, and
the classification that did not come about is that of the parse (log 5). -/
def Chip.txWords (c : Chip) (h : Hdr) (tsId : Nat) : List Nat × Chip :=
  let fr := Chip.freeWords 5 c
  let g (i : Nat) : Nat := fr.1.getD i 0
  ([0x7F * 2 ^ 16,
    h.stream.getD 0xFFFF % 2 ^ 16 * 2 ^ 16 + h.cls % 8 * 2 ^ 13 + h.colour % 4 * 2 ^ 11 + h.exc % 8 * 2 ^ 8,
    tsId % 2 ^ 16 * 2 ^ 16 + g 0 % 2 ^ 12, g 1, g 2, g 3, g 4 % 4 * 2 ^ 28], fr.2)

/-- TX_DESCRIPTOR: the next descriptor of transmit ring `r`, when its engine comes to it. -/
def txDescriptor (h r : Nat) (c0 : Chip) : Chip :=
  if 16 ≤ r then c0
  else
    match c0.dmaTurn h r, c0.ringPipe h r with
    | some c, some p =>
      let ws := c.fetchDesc h r 32
      if bits 31 24 (ws.getD 3 0) ≠ c.gen h then c.ringHalt h r
      else
        let t := c.txFrame h p ws
        let w := t.2.2.txWords t.2.1 (ws.getD 4 0)
        w.2.complete h r 0 t.1 w.1
    | _, _ => c0

/-- RX_COPY_DELIVER: the next copy of the host queue of receive ring `r`, when the ring's engine comes to it. It waits while its ring is
disabled or has no free buffer, and ages as it waits. -/
def rxCopyDeliver (h r : Nat) (c : Chip) : Chip :=
  if 16 ≤ r ∨ !c.ringReady h (16 + r) then c
  else
    let gone := (c.queue (128 + h) r).takeWhile c.stale
    let c0 := gone.foldl (fun c x => c.dropStale (128 + h) r xAGEDHEAD x)
      (if gone.isEmpty then c else c.setQueue (128 + h) r ((c.queue (128 + h) r).drop gone.length))
    match (c0.queue (128 + h) r).head?, c0.dmaTurn h (16 + r) with
    | some x, some ct =>
      let c1 := ct.readCells x
      if (c1.queue (128 + h) r).head? ≠ some x then c1
      else match c1.frame x.fid with
        | none => c1
        | some f => c1.deliver h r x f
    | _, _ => c0

/-! ## Function level reset of a VF (R333, R344) -/

/-- The write of the head copy of host queue `r` of hall `h` ends at the next 512-byte boundary: how far it had come is free. -/
def Chip.dmaCut (c : Chip) (h r : Nat) : Chip :=
  match c.rxHead h r with
  | none => c
  | some (x, f) =>
    let ws := c.fetchDesc h (16 + r) 16
    let a := ws.getD 1 0 * 2 ^ 32 + ws.getD 0 0
    let b := (c.hostBytes x f).1
    let w := c.free
    let k := w.1 % (b.length + 1)
    if k = 0 then w.2 else { w.2 with host := Mem.write hostBlank w.2.host a (b.take ((a + k + 511) / 512 * 512 - a)) }

/-- Engine `e` drops what it has in flight of hall `h`, at most 64 of the transfers that wait on its rings: how many is free. They leave
no completion; the log and the count show them (R344). -/
def Chip.dmaStale (c : Chip) (h e : Nat) : Chip :=
  let rs := (List.range 32).filter (fun r => decide (c.ringEngine h r = e) && (c.ringNext h r).isSome)
  let held (r : Nat) : Nat :=
    (c.get Fd.HAL_RING_TAIL_TAIL h r + 65536 - c.get Fd.HAL_RING_HEAD_HEAD h r) % 65536
  let w := c.free
  let n := w.1 % (min 64 ((rs.map held).foldl (· + ·) 0) + 1)
  if n = 0 then c
  else
    let c1 := (rs.filter (fun r => decide (16 ≤ r))).foldl (fun c r => c.dmaCut h (r - 16)) w.2
    (((c1.set Fd.HAL_DMA_LOG_STATUS e 0 sSTALE).set Fd.HAL_DMA_LOG_HALL e 0 h).set Fd.HAL_DMA_LOG_GEN e 0 (c.gen h)).cntSat
      Fd.HAL_DMA_STALE_CNT_COUNT e 0 n

/-! ## A DMA engine that is fenced (R431) -/

/-- The header that a transmit descriptor's frame is parsed to, before anything is done with it. -/
def Chip.descHeader (c : Chip) (h r : Nat) (ws : List Nat) : Hdr :=
  let w (i : Nat) : Nat := ws.getD i 0
  let d := Mem.read hostBlank c.host (w 1 * 2 ^ 32 + w 0) (w 2 % 2 ^ 15)
  c.parse ((c.ringPipe h r).getD 0) (if bitOf (w 2) 31 then 127 else (c.hport h (w 3 % 2 ^ 7)).getD 127) true d

/-- A transfer that ring `r` of hall `h` had begun completes as FENCED: a transmit frame is not sent; of a received copy LEN bytes
have been written, how many is free, its buffer is consumed and its frame released. -/
def Chip.completeFenced (c : Chip) (h r : Nat) : Chip :=
  if r < 16 then
    let ws := c.fetchDesc h r 32
    let w := c.txWords (c.descHeader h r ws) (ws.getD 4 0)
    w.2.complete h r 0 sFENCED w.1
  else
    match c.rxHead h (r - 16) with
    | none => c
    | some (x, f) =>
      let ws := c.fetchDesc h r 16
      let b := c.hostBytes x f
      if ws.getD 2 0 % 2 ^ 15 < b.1.length then c
      else
        let w := b.2.free
        let n := w.1 % (b.1.length + 1)
        let c1 := w.2.setQueue (128 + h) (r - 16) ((c.queue (128 + h) (r - 16)).erase x)
        let c2 : Chip := { c1 with host := Mem.write hostBlank c1.host (ws.getD 1 0 * 2 ^ 32 + ws.getD 0 0) (b.1.take n) }
        (c2.complete h r (if x.kind = 2 then 3 else if x.reason = 0 then 1 else 2) sFENCED (c2.rxWords h x f n)).release x.fid

/-- At most `n` transfers of ring `r` of hall `h` complete as FENCED, in the order of the descriptors. A descriptor of another
generation is not begun. -/
def Chip.ringFenced (h r : Nat) : Nat → Chip → Chip
  | 0, c => c
  | n + 1, c =>
    if (c.ringNext h r).isNone || decide (bits 31 24 ((c.fetchDesc h r (if r < 16 then 32 else 16)).getD 3 0) ≠ c.gen h) then c
    else Chip.ringFenced h r n (c.completeFenced h r)

/-- The rings of engine `e`, as (hall, ring), on which a transfer may be under way. -/
def Chip.dmaRings (c : Chip) (e : Nat) : List (Nat × Nat) :=
  (List.range 32).flatMap (fun h =>
    ((List.range 32).filter (fun r => decide (c.ringEngine h r = e) && (c.ringNext h r).isSome)).map (fun r => (h, r)))

/-- Of each ring in turn a free number of transfers had begun, `n` at most of all of them. -/
def Chip.ringsFenced : List (Nat × Nat) → Nat → Chip → Chip
  | [], _, c => c
  | k :: ks, n, c =>
    let w := c.free
    let b := w.1 % (n + 1)
    Chip.ringsFenced ks (n - b) (Chip.ringFenced k.1 k.2 b w.2)

/-- What an engine that is fenced in `c`, and was not in `c0`, had begun, 64 transfers at most, completes as FENCED. -/
def Chip.dmaMoves (c c0 : Chip) : Chip :=
  (List.range 4).foldl (fun (c : Chip) e =>
    if c.isFenced 3 e && !c0.isFenced 3 e then Chip.ringsFenced (c0.dmaRings e) 64 c else c) c

/-- VF_FLR: HALL(h) stops and is reset at once; work that is under way becomes stale. -/
def vfFlr (h : Nat) (c : Chip) : Chip :=
  if h = 0 ∨ 32 ≤ h ∨ !c.hallPresent h ∨ !c.running then c
  else
    let c0 := (List.range 4).foldl (fun (c : Chip) e => c.dmaStale h e) c
    let c1 := (c0.hallReset h).markStopped 5 h
    { c1 with ctl := { c1.ctl with hallResets := c1.ctl.hallResets ++ [(h, 1)] } }

/-! ## The meanings -/

/-- VF_FLR. -/
def execVfFlr (h : Nat) (s : State) : Host.Outcome State Fault Refusal := .next (s.onChip (vfFlr h))
/-- PF_FLR. -/
def execPfFlr (s : State) : Host.Outcome State Fault Refusal := .next (s.onChip pfFlr)
/-- PORT_OWN_WRITE. -/
def execPortOwnWrite (m n : Nat) (v : Word) (s : State) : Host.Outcome State Fault Refusal :=
  s.regWrite m .GLB_PORT_OWN n 0 (fun _ => portOwnWrite m n v.toNat)
/-- SEND: a write of HAL_MBX_CTRL with SEND set. -/
def execMbxSend (m h : Nat) (v : Word) (s : State) : Host.Outcome State Fault Refusal :=
  s.slotWrite m h .HAL_MBX_CTRL h 0 (fun kg => mbxCtrlWrite m kg h (setBit v.toNat 0 true))
/-- IN_ACK, the other fields as they stand. -/
def execMbxInAck (m h : Nat) (s : State) : Host.Outcome State Fault Refusal :=
  s.slotWrite m h .HAL_MBX_CTRL h 0 (fun kg c => mbxCtrlWrite m kg h (c.get Fd.HAL_MBX_CTRL_OUT_LEN h 0 * 2 ^ 16 + 2) c)
/-- REPLY. -/
def execMbxReply (m h len : Nat) (s : State) : Host.Outcome State Fault Refusal :=
  s.slotWrite m h .HAL_MBX_MGR h 0 (fun kg => mbxMgrWrite m kg h (len % 128 * 2 ^ 16 + 2))
/-- OUT_ACK, IN_LEN as it stands. -/
def execMbxOutAck (m h : Nat) (s : State) : Host.Outcome State Fault Refusal :=
  s.slotWrite m h .HAL_MBX_MGR h 0 (fun kg c => mbxMgrWrite m kg h (c.get Fd.HAL_MBX_MGR_IN_LEN h 0 * 2 ^ 16 + 1) c)
/-- RING_ENABLE: a write of a ring's CTRL. -/
def execRingEnable (m h r : Nat) (v : Word) (s : State) : Host.Outcome State Fault Refusal :=
  s.slotWrite m h .HAL_RING_CTRL h r (fun kg => ringCtrlWrite m kg h r v.toNat)
/-- RING_TAIL_WRITE. -/
def execRingTailWrite (m h r tail : Nat) (s : State) : Host.Outcome State Fault Refusal :=
  s.slotWrite m h .HAL_RING_TAIL h r (fun kg => ringTailWrite m kg h r tail)
/-- TX_DESCRIPTOR. -/
def execTxDescriptor (h r : Nat) (s : State) : Host.Outcome State Fault Refusal := .next (s.onChip (txDescriptor h r))
/-- RX_COPY_DELIVER. -/
def execRxCopyDeliver (h r : Nat) (s : State) : Host.Outcome State Fault Refusal := .next (s.onChip (rxCopyDeliver h r))
/-- RING_IRQ_TIMER. -/
def execRingIrqTimer (h r : Nat) (s : State) : Host.Outcome State Fault Refusal := .next (s.onChip (ringIrqTimer h r))

end Sys2Proof.Machine
end

