-- ==== Sys2Proof/Machine/Halls.lean ====
section
/-! DEFINITION. The life of a hall (R357 to R361): the lifecycle commands, the hall state image that SAVE writes, and the checks
and effects of RESTORE. -/

namespace Sys2Proof.Machine

/-! ## Registers as words -/

/-- The word that the stored fields of a single register make. -/
def Chip.regWord (c : Chip) (r : R) (i j : Nat) : Nat :=
  r.rows.foldl (fun a w => match w.acc with
    | .rw => a + c.get w.f i j * 2 ^ w.f.lo
    | .ro => if w.view then a else a + c.get w.f i j * 2 ^ w.f.lo
    | _ => a) 0

/-- The stored fields of a single register from a word. -/
def Chip.setWord (c : Chip) (r : R) (i j v : Nat) : Chip :=
  r.rows.foldl (fun c w => match w.acc with
    | .rw => c.set w.f i j (bits w.f.hi w.f.lo v)
    | .ro => if w.view then c else c.set w.f i j (bits w.f.hi w.f.lo v)
    | _ => c) c

/-- The words of a record of registers (register, its words per port). -/
def Chip.recWords (c : Chip) (rs : List (R × Nat)) (i : Nat) (mine : R → Nat → Bool) : List Nat :=
  rs.flatMap (fun k => (List.range k.2).map (fun j => if mine k.1 j then c.regWord k.1 i j else 0))

/-- Write such a record back. -/
def Chip.putWords (c : Chip) (rs : List (R × Nat)) (i : Nat) (mine : R → Nat → Bool) (ws : List Nat) : Chip :=
  ((rs.flatMap (fun k => (List.range k.2).map (fun j => (k.1, j)))).zip ws).foldl
    (fun c e => if mine e.1.1 e.1.2 then c.setWord e.1.1 i e.1.2 e.2 else c) c

/-- The words of PORT_CFG in the order of the model's layout (DESIGN CHOICE, log 48): the PRT_ registers that hold configuration,
then the SecY, its SAs without their keys. -/
def portCfgRegs : List (R × Nat) :=
  [(.PRT_LINK_CFG, 1), (.PRT_MAC_CTRL, 1), (.PRT_HASH, 8), (.PRT_PMAC_CTRL, 1), (.PRT_ERR_BUDGET, 1), (.PRT_ERR_REACT, 1),
   (.PRT_PARSE_CTRL, 1), (.PRT_PCP_MAP, 1), (.PRT_LEARN_CTRL, 1)] ++
  [(.PRT_MACSEC_CTRL, 1), (.PRT_MACSEC_REPLAY_WINDOW, 1), (.PRT_MACSEC_TX_PN_THRESH, 2), (.PRT_MACSEC_TX_SCI, 2),
   (.PRT_MACSEC_TX_SA_SEL, 1), (.PRT_MACSEC_TX_SA_CTRL, 2), (.PRT_MACSEC_TX_SA_NEXT_PN, 4), (.PRT_MACSEC_TX_SA_SSCI, 2),
   (.PRT_MACSEC_TX_SA_SALT, 6), (.PRT_MACSEC_RX_SC_CTRL, 4), (.PRT_MACSEC_RX_SC_SCI, 8)] ++
  [(.PRT_MACSEC_RX_SA_CTRL, 8), (.PRT_MACSEC_RX_SA_NEXT_PN_LO, 8), (.PRT_MACSEC_RX_SA_NEXT_PN_HI, 8),
   (.PRT_MACSEC_RX_SA_LOWEST_PN_LO, 8), (.PRT_MACSEC_RX_SA_LOWEST_PN_HI, 8), (.PRT_MACSEC_RX_SA_SSCI, 8),
   (.PRT_MACSEC_RX_SA_SALT0, 8), (.PRT_MACSEC_RX_SA_SALT1, 8), (.PRT_MACSEC_RX_SA_SALT2, 8)]

/-- The words of SCHED in the order of the model's layout (DESIGN CHOICE, log 48). -/
def schedRegs : List (R × Nat) :=
  [(.SCH_Q_CFG, 256), (.SCH_BAY_CFG, 64), (.SCH_BAY_RATE, 64), (.SCH_BAY_HI, 64), (.SCH_SVC_CFG, 8), (.SCH_SVC_RATE, 8),
   (.SCH_SVC_HI, 8), (.SCH_PORT_CFG, 1), (.SCH_PORT_RATE, 1), (.SCH_PORT_HI, 1)] ++
  [(.SCH_GCL_CTRL, 1), (.SCH_GCL_CYCLE, 1), (.SCH_GCL_BASE_NS, 1), (.SCH_GCL_BASE_SEC_LO, 1), (.SCH_GCL_BASE_SEC_HI, 1),
   (.SCH_GCL_HOLD, 1), (.SCH_GCL_PEND_CTRL, 1), (.SCH_GCL_PEND_CYCLE, 1), (.SCH_GCL_PEND_BASE_NS, 1),
   (.SCH_GCL_PEND_BASE_SEC_LO, 1), (.SCH_GCL_PEND_BASE_SEC_HI, 1), (.SCH_GCL_W0, 256), (.SCH_GCL_W1, 256)]

def anyReg (_ : R) (_ : Nat) : Bool := true

/-- What a hall's SCHED record carries of port `n`: all of an exclusive port, its own leaf queues of a shared one. -/
def Chip.schedMine (c : Chip) (h n : Nat) (r : R) (j : Nat) : Bool :=
  !c.shared n || (decide (r = .SCH_Q_CFG) && decide (c.qOwner n j = h))

/-! ## What a hall holds -/

/-- The local ports of hall `h` that name a port it has, with the port. -/
def Chip.localPorts (c : Chip) (h : Nat) : List (Nat × Nat) :=
  (List.range 96).filterMap (fun l => match c.hport h l with
    | some n => if c.hallHas h n then some (l, n) else none
    | none => none)

/-- The exclusive ports of hall `h`. -/
def Chip.exclusive (c : Chip) (h : Nat) : List Nat := (List.range 96).filter (fun n => !c.shared n && decide (c.owner n = h))

/-- The active pairs of hall `h` with both ports in its map. -/
def Chip.hallPairs (c : Chip) (h : Nat) : List Nat :=
  c.pairs.filter (fun k => c.hallHas h (c.pairA k) && (c.localOf h (c.pairA k)).isSome && (c.localOf h (c.pairB k)).isSome)

/-- The counter entries of hall `h` (R444): pool, entry, and the index as the hall numbers it. -/
def Chip.hallCounters (c : Chip) (h : Nat) : List (Nat × Nat × Nat) :=
  let ports := c.localPorts h
  let uniq (l : List Nat) : List Nat := l.foldl (fun a x => insNew x a) []
  (ports.filter (fun p => !c.shared p.2)).map (fun p => (0, p.2, p.1)) ++
  ports.flatMap (fun p => ((List.range 256).filter (fun q => decide (c.qOwner p.2 q = h))).map (fun q => (1, 256 * p.2 + q, 256 * p.1 + q))) ++
  (uniq (((c.entries tSTREAM).filter (fun i => decide (c.entryHall tSTREAM i = h))).map
    (fun i => wb ((c.entry tSTREAM i).getD []) 0 15 0))).map (fun x => (2, x, x)) ++
  [(3, h, 0)] ++
  ((uniq ((c.tcam.filter (fun e => e.2.valid && decide (e.2.owner = h))).map (fun e => bits 29 16 (e.2.action.getD 2 0)))).filter
    (fun x => decide (x ≠ 0))).map (fun x => (4, x, x))

/-! ## The hall state image (R359) -/

/-- A section as it is written. -/
structure HSect where
  typ : Nat
  count : Nat
  body : List Nat

/-- Zeros up to a multiple of 64 bytes. -/
def pad64 (d : List Nat) : List Nat := d ++ List.replicate ((64 - d.length % 64) % 64) 0

/-- A table record. -/
def tblRecord (i bank layout : Nat) (ws : List Nat) : List Nat := beBytes 4 i ++ [bank, layout, 0, 0] ++ ws.flatMap (beBytes 4)

def sectOf (typ : Nat) (recs : List (List Nat)) : HSect := { typ := typ, count := recs.length, body := recs.flatten }

/-- The entries of table `t` that hall `h` saves. -/
def Chip.savedEntries (c : Chip) (h t : Nat) (dyn : Bool) : List (List Nat) :=
  ((c.entries t).filter (fun i => decide (c.entryHall t i = h) &&
    (match c.entry t i with
     | none => false
     | some ws => (decide (t ≠ tFDB) || dyn || fdbStatic ws) && (decide (t ≠ tDUP) || decide (dupKind ws = kCBWINDOW))))).map
    (fun i => tblRecord (c.ofIndex h t i) 0 0 (c.wordsOut h t ((c.entry t i).getD [])))

/-- The sections of the image of hall `h`; a section without records is left out. -/
def Chip.hallSections (c : Chip) (h : Nat) (cnt dyn : Bool) : List HSect :=
  let ports := c.localPorts h
  let up := (c.hallRt h).savedUp
  let info := pad64 (((List.range 11).map (fun w => match w with
      | 0 => c.regWord .GLB_QUOTA_W0 h 0 | 1 => c.regWord .GLB_QUOTA_W1 h 0 | 2 => c.regWord .GLB_QUOTA_W2 h 0
      | 3 => c.regWord .GLB_QUOTA_W3 h 0 | 4 => c.regWord .GLB_QUOTA_W4 h 0 | 5 => c.regWord .GLB_QUOTA_W5 h 0
      | 6 => c.regWord .GLB_QUOTA_W6 h 0 | 7 => c.regWord .GLB_QUOTA_W7 h 0 | 8 => c.regWord .GLB_QUOTA_W8 h 0
      | 9 => c.regWord .GLB_QUOTA_W9 h 0 | _ => c.regWord .GLB_QUOTA_W10 h 0) ++
    [c.get Fd.HAL_RX_MAP_MAP h 0, c.regWord .HAL_RX_CFG h 0]).flatMap (beBytes 4))
  let fix (n : Nat) (d : List Nat) : List Nat := (padTo n d).take n
  let port (p : Nat × Nat) : List Nat :=
    fix 512 ([p.1, b2n (c.shared p.2), b2n (decide (p.2 ∈ up)), 0] ++ (c.recWords portCfgRegs p.2 anyReg).flatMap (beBytes 4))
  let sched (p : Nat × Nat) : List Nat := fix 4096 ((c.recWords schedRegs p.2 (c.schedMine h p.2)).flatMap (beBytes 4))
  let cmap (p : Nat × Nat) : List Nat :=
    let j := if c.shared p.2 then h else c.owner p.2
    ([c.regWord .SCH_CLASS_MAP p.2 (2 * j), c.regWord .SCH_CLASS_MAP p.2 (2 * j + 1)]).flatMap (beBytes 4)
  let vids := (List.range 4096).filter (fun v => c.flag Fd.GLB_VSLICE_VALID v 0 && decide (c.get Fd.GLB_VSLICE_HALL v 0 = h))
  let rows := (c.tcam.filter (fun e => e.2.valid && decide (e.2.owner = h))).map (fun e =>
    tblRecord e.1.2 e.1.1 e.2.layout (words20 e.2.value ++ words20 e.2.mask ++ c.actionOut h e.2.action))
  let pair (k : Nat) : List Nat :=
    let w := c.regWord .RED_PAIR_CFG k 0
    let w1 := w - bits 30 24 w * 2 ^ 24 - bits 22 16 w * 2 ^ 16 + c.toLocal h (c.pairB k) * 2 ^ 24 + c.toLocal h (c.pairA k) * 2 ^ 16
    fix 32 (([k, w1, c.regWord .RED_PAIR_MAC_HI k 0, c.regWord .RED_PAIR_MAC_LO k 0, c.regWord .RED_PAIR_SUP k 0,
      c.regWord .RED_PAIR_FALLBACK k 0]).flatMap (beBytes 4))
  let counter (e : Nat × Nat × Nat) : List Nat :=
    beBytes 4 e.2.2 ++ [e.1, c.perEntry e.1, 0, 0] ++ (List.range (c.perEntry e.1)).flatMap (fun x => beBytes 8 (c.cntVal e.1 e.2.1 x))
  ([sectOf 0x101 [info], sectOf 0x102 (ports.map port), sectOf 0x103 (ports.map sched), sectOf 0x104 (ports.map cmap),
    sectOf 0x105 (vids.map (beBytes 4))] ++
   [tFDB, tMCAST, tSTREAM, tPOLICER, tHEALTH, tDUP, tRECOVERY].map (fun t => sectOf (0x106 + t) (c.savedEntries h t dyn)) ++
   [sectOf 0x10D rows, sectOf 0x10E ((c.hallPairs h).map pair),
    sectOf 0x10F (if cnt then (c.hallCounters h).map counter else [])]).filter (fun s => decide (s.count ≠ 0))

/-- The image of hall `h` with its digest. -/
def Chip.hallImage (c : Chip) (h : Nat) (cnt dyn : Bool) : List Nat :=
  let ss := c.hallSections h cnt dyn
  let n := ss.length
  let start := cdiv (64 + 16 * n) 64 * 64
  let places := ss.foldl (fun (a : List Nat × Nat) s => (a.1 ++ [a.2], a.2 + (pad64 s.body).length)) ([], start)
  let total := places.2 + 48
  let im := c.img.inForce
  let top := ((c.localPorts h).map (fun p => p.1 + 1)).foldl max 0
  let head := beBytes 4 0x47574853 ++ [1, 0, b2n cnt * 2 + b2n dyn, h] ++ beBytes 4 total ++ beBytes 2 n ++ beBytes 2 (64 + 16 * n) ++
    beBytes 4 ((im.map (fun i => i.id)).getD 0) ++ beBytes 4 ((im.map (fun i => i.rev)).getD 0) ++ beBytes 16 c.uid ++
    [c.imgQuota h 10, c.gen h, top] ++ List.replicate 21 0
  let table := (ss.zip places.1).flatMap (fun e =>
    beBytes 2 e.1.typ ++ beBytes 2 0 ++ beBytes 4 e.2 ++ beBytes 4 e.1.body.length ++ beBytes 4 e.1.count)
  let body := pad64 (head ++ table) ++ ss.flatMap (fun s => pad64 s.body)
  body ++ sha384 body

/-! ## Reading an image (R360) -/

/-- A section as the table of an image gives it. -/
structure HEntry where
  typ : Nat
  flags : Nat
  off : Nat
  len : Nat
  count : Nat

def hallTable (d : List Nat) : List HEntry :=
  (List.range (beAt d 12 2)).map (fun i =>
    let o := 64 + 16 * i
    { typ := beAt d o 2, flags := beAt d (o + 2) 2, off := beAt d (o + 4) 4, len := beAt d (o + 8) 4, count := beAt d (o + 12) 4 })

/-- Bytes per record of a section; 0 for COUNTERS, whose records differ. -/
def hallRecSize (t : Nat) : Nat :=
  [64, 512, 4096, 8, 4, 40, 24, 72, 40, 40, 40, 72, 200, 32, 0].getD (t - 0x101) 0

/-- The records of a counters section: pool, local index, values. -/
def counterRecs : Nat → List Nat → List (Nat × Nat × List Nat)
  | 0, _ => []
  | n + 1, d =>
    let per := d.getD 5 0
    (d.getD 4 0, beAt d 0 4, (List.range per).map (fun x => beAt d (8 + 8 * x) 8)) :: counterRecs n (d.drop (8 + 8 * per))

/-- The records of section `t` of image `d`. -/
def hallRecs (d : List Nat) (t : Nat) : List (List Nat) :=
  match (hallTable d).find? (fun e => decide (e.typ = t)) with
  | none => []
  | some e => (List.range e.count).map (fun i => slice d (e.off + hallRecSize t * i) (hallRecSize t))

/-- The counter records of image `d`. -/
def hallCounterRecs (d : List Nat) : List (Nat × Nat × List Nat) :=
  match (hallTable d).find? (fun e => decide (e.typ = 0x10F)) with
  | none => []
  | some e => counterRecs e.count (slice d e.off e.len)

/-- Check 2: the first section at fault, 0 for the header, the table or the digest. -/
def hallImageBad (d : List Nat) (supplied : Nat) : Option Nat :=
  let total := beAt d 8 4
  let n := beAt d 12 2
  if beAt d 0 4 ≠ 0x47574853 ∨ d.getD 4 0 ≠ 1 ∨ 3 < d.getD 6 0 ∨ total % 16 ≠ 0 ∨ supplied < total ∨ n = 0 ∨ 16 < n ∨
      beAt d 14 2 ≠ 64 + 16 * n ∨ total < 112 + 16 * n ∨ !zeros d 43 21 then some 0
  else
    let es := hallTable d
    match es.find? (fun e => decide (e.typ < 0x101 ∨ 0x10F < e.typ ∨ e.off % 64 ≠ 0 ∨ e.off < 64 + 16 * n ∨ total < e.off + e.len + 48) ||
        decide (e.typ ≠ 0x10F ∧ e.len ≠ e.count * hallRecSize e.typ) || decide (e.typ = 0x101 ∧ e.count ≠ 1)) with
    | some e => some e.typ
    | none =>
      if !noPair (fun a b => decide (a.typ = b.typ) || overlap a.off a.len b.off b.len) es || !es.any (fun e => decide (e.typ = 0x101)) ||
          decide (slice d (total - 48) 48 ≠ sha384 (d.take (total - 48))) then some 0
      else none

/-- The local ports of an image: number, shared, saved as UP. -/
def imagePorts (d : List Nat) : List (Nat × Bool × Bool) :=
  (hallRecs d 0x102).map (fun r => (r.getD 0 0, decide (r.getD 1 0 = 1), decide (r.getD 2 0 = 1)))

/-- The device port that GLB_HALL_REMAP gives a local port. -/
def Chip.remap (c : Chip) (l : Nat) : Option Nat :=
  if c.flag Fd.GLB_HALL_REMAP_VALID l 0 ∧ c.get Fd.GLB_HALL_REMAP_PORT l 0 < 96 then some (c.get Fd.GLB_HALL_REMAP_PORT l 0) else none

/-- Check 5 for one target port. -/
def Chip.targetBad (c : Chip) (h : Nat) (shared : Bool) (n : Nat) : Bool :=
  !c.stopped 0 n || c.isFenced 0 n || (List.range 32).any (fun k => decide (k ≠ 0 ∧ k ≠ h) && (c.localOf k n).isSome) ||
    (if shared then !c.shared n else c.shared n || decide (c.owner n ≠ 0))

/-- Check 6: the section at fault. -/
def Chip.noRoom (c : Chip) (h : Nat) (d : List Nat) : Option Nat :=
  let info := (hallRecs d 0x101).headD []
  let q (w : Nat) : Nat := beAt info (4 * w) 4
  let idx (t : Nat) : List Nat := (hallRecs d (0x106 + t)).map (fun r => c.toIndex h t (beAt r 0 4))
  let tooMany (t quota : Nat) : Option Nat := if quota < (idx t).length then some (0x106 + t) else none
  let held (t : Nat) : Option Nat :=
    if (idx t).any (fun i => decide (c.tblSize t ≤ i ∨ (t = tDUP ∧ i < c.srcRegion)) || (c.entry t i).isSome) then some (0x106 + t) else none
  let rows := (hallRecs d 0x10D).map (fun r => (r.getD 4 0, beAt r 0 4))
  let tcamBad := rows.any (fun k => decide (3 < k.1 ∨ 6143 < k.2) || ((c.tcam.find k.1 k.2).map (fun r => r.valid)).getD false) ||
    (List.range 4).any (fun b => decide (q 3 % 2 ^ 13 < (rows.filter (fun k => decide (k.1 = b))).length))
  let vidBad := (hallRecs d 0x105).any (fun r => c.flag Fd.GLB_VSLICE_VALID (beAt r 0 4 % 4096) 0)
  let slots := ((List.range 48).filter (fun k => !c.pairActive k)).length
  (if vidBad then some 0x105 else none) <|> tooMany tFDB (q 1 % 2 ^ 19) <|> tooMany tMCAST (q 2 % 2 ^ 17) <|> tooMany tSTREAM (q 4 % 2 ^ 17) <|>
    tooMany tPOLICER (q 5 % 2 ^ 17) <|> tooMany tDUP (q 6 % 2 ^ 18) <|> tooMany tRECOVERY (q 7 % 2 ^ 15) <|>
    held tMCAST <|> held tPOLICER <|> held tHEALTH <|> held tDUP <|> held tRECOVERY <|>
    (if tcamBad then some 0x10D else none) <|> (if slots < (hallRecs d 0x10E).length then some 0x10E else none)

/-- The first check of R360 that fails: its number, the section, the status. -/
def Chip.restoreFail (c : Chip) (h : Nat) (readOk : Bool) (d : List Nat) : Option (Nat × Nat × Nat) :=
  if !readOk then some (1, 0, sTIMEOUT)
  else
    match hallImageBad d (c.get Fd.GLB_HALL_LEN_LEN 0 0) with
    | some t => some (2, t, sARG)
    | none =>
      let im := c.img.inForce
      let classes := (im.map (fun i => i.classQuota.map (fun e => e.1.1))).getD [0, 1]
      let ports := imagePorts d
      if im.map (fun i => i.id) ≠ some (beAt d 16 4) ∨ im.map (fun i => i.rev) ≠ some (beAt d 20 4) ∨ d.getD 40 0 ∉ classes then
        some (3, 0, sARG)
      else if ports.any (fun p => (c.remap p.1).isNone) ||
          !noPair (fun a b => decide (a = b)) (ports.filterMap (fun p => c.remap p.1)) then some (4, 0x102, sARG)
      else if ports.any (fun p => c.targetBad h p.2.1 ((c.remap p.1).getD 96)) then some (5, 0x102, sSTATE)
      else (c.noRoom h d).map (fun t => (6, t, sNOSPACE))

/-! ## Applying an image (R361) -/

/-- An entry of an image as hall `h` of this device holds it: its owner, its ports, and the adjustments of R361. -/
def Chip.restoredWords (c : Chip) (h t : Nat) (ws : List Nat) : List Nat :=
  let w0 := if t = tFDB then wset ws 0 27 23 h else if t = tMCAST then wset ws 3 30 26 h
    else if t = tDUP then wset ws 0 28 24 h else if t = tRECOVERY then wset ws 0 4 0 h else ws
  let w1 := (c.wordsIn h t w0).getD w0
  if t = tFDB ∧ !fdbStatic ws then wset (wset w1 4 31 31 1) 4 2 0 0
  else if t = tPOLICER then
    let cbs := w1.getD 2 0 / 256
    let ebs := w1.getD 2 0 % 256 * 65536 + w1.getD 3 0 / 65536
    (((w1.set 4 (min (cbs * 65536) (2 ^ 32 - 1))).set 5 (min (ebs * 65536) (2 ^ 32 - 1))).set 6 (c.ns / 2 ^ 32 % 2 ^ 32)).set 7
      (c.ns % 2 ^ 32)
  else if t = tHEALTH then wset w1 0 30 30 1
  else if t = tDUP then wset w1 5 31 31 1
  else w1

/-- One record of table `t`; `none` when a hashed insert finds no way. -/
def Chip.restoreEntry (c : Chip) (h t : Nat) (r : List Nat) : Option Chip :=
  let ws := c.restoredWords h t (wordsAt r 8 (tblWords t))
  let put (c : Chip) (i : Nat) : Chip :=
    let c1 := c.putEntry t i ws
    { c1 with tblHall := c1.tblHall.put 0 t i (if t = tSTREAM ∨ t = tPOLICER ∨ t = tHEALTH then h else 0) }
  if tblHashed t then
    let f := c.keyFind t (keyBytes t ws)
    match f.1 with
    | some i => some (put f.2 i)
    | none => (f.2.hashPlace t (f.2.tblSize t) (keyBytes t ws)).map (put f.2)
  else some (put c (c.toIndex h t (beAt r 0 4)))

def Chip.restoreTable (c : Chip) (h : Nat) (d : List Nat) (t : Nat) : Option Chip :=
  (hallRecs d (0x106 + t)).foldl (fun (a : Option Chip) r => a.bind (fun c => c.restoreEntry h t r)) (some c)

/-- One port of an image. -/
def Chip.restorePort (c : Chip) (h l n : Nat) (shared : Bool) (cfg sched cmap : List Nat) : Chip :=
  let c1 := (c.set Fd.GLB_HPORT_PORT h l n).set Fd.GLB_HPORT_VALID h l 1
  let c2 := if shared then c1 else ((c1.dropPortQueues n).set Fd.GLB_PORT_OWN_OWNER n 0 h).dropSaKeys n
  let c3 := if shared then c2 else c2.putWords portCfgRegs n anyReg (wordsAt cfg 4 (portCfgRegs.map (fun r => r.2)).sum)
  let sa (c : Chip) (j : Nat) : Chip :=
    if j < 2 then (c.set Fd.PRT_MACSEC_TX_SA_CTRL_VALID n j 0).set Fd.PRT_MACSEC_TX_SA_CTRL_KEY_LOADED n j 0
    else (c.set Fd.PRT_MACSEC_RX_SA_CTRL_VALID n (j - 2) 0).set Fd.PRT_MACSEC_RX_SA_CTRL_KEY_LOADED n (j - 2) 0
  let c4 := if shared then c3 else (List.range 10).foldl sa c3
  let c5 := c4.putWords schedRegs n (c4.schedMine h n) (wordsAt sched 0 (schedRegs.map (fun r => r.2)).sum)
  (c5.setWord .SCH_CLASS_MAP n (2 * h) (beAt cmap 0 4)).setWord .SCH_CLASS_MAP n (2 * h + 1) (beAt cmap 4 4)

/-- The pairs of an image take the lowest free slots; QUAD_PEER follows its pair. -/
def Chip.restorePairs (c : Chip) (h : Nat) (d : List Nat) : Chip :=
  let recs := hallRecs d 0x10E
  let slots := (List.range 48).filter (fun k => !c.pairActive k)
  let moved := (recs.map (fun r => beAt r 0 4)).zip slots
  (recs.zip slots).foldl (fun (c : Chip) e =>
    let w := beAt e.1 4 4
    let loc (l : Nat) : Nat := (c.hport h l).getD 127
    let peer := bits 7 2 w
    let peer1 := ((moved.find? (fun x => decide (x.1 = peer))).map (fun x => x.2)).getD peer
    let c1 := (((c.setWord .RED_PAIR_CFG e.2 0 w).set Fd.RED_PAIR_CFG_PORT_A e.2 0 (loc (bits 22 16 w))).set Fd.RED_PAIR_CFG_PORT_B e.2 0
      (loc (bits 30 24 w))).set Fd.RED_PAIR_CFG_QUAD_PEER e.2 0 peer1
    (((c1.setWord .RED_PAIR_MAC_HI e.2 0 (beAt e.1 8 4)).setWord .RED_PAIR_MAC_LO e.2 0 (beAt e.1 12 4)).setWord .RED_PAIR_SUP e.2 0
      (beAt e.1 16 4)).setWord .RED_PAIR_FALLBACK e.2 0 (beAt e.1 20 4)) c

/-- One counter record of an image. -/
def Chip.restoreCounter (c : Chip) (h : Nat) (r : Nat × Nat × List Nat) : Chip :=
  let e := match r.1 with
    | 0 => c.hport h r.2.1
    | 1 => (c.hport h (r.2.1 / 256)).map (fun n => 256 * n + r.2.1 % 256)
    | 3 => some h
    | _ => some r.2.1
  match e with
  | none => c
  | some i =>
    r.2.2.zipIdx.foldl (fun (c : Chip) v =>
      { c with cnt := c.cnt.put 0 r.1 (32 * i + v.2) v.1, residue := c.residue.put 0 r.1 (32 * i + v.2) 0 }) c

/-- The tables of an image in the order of their sections. -/
def restoreTables : List Nat := [tFDB, tMCAST, tSTREAM, tPOLICER, tHEALTH, tDUP, tRECOVERY]

/-- What RESTORE applies ahead of the tables: quotas, rings, ports, VIDs. -/
def Chip.restoreBase (c : Chip) (h : Nat) (d : List Nat) : Chip :=
  let ports := imagePorts d
  let cfgs := hallRecs d 0x102
  let scheds := hallRecs d 0x103
  let maps := hallRecs d 0x104
  let info := (hallRecs d 0x101).headD []
  let q (w : Nat) : Nat := beAt info (4 * w) 4
  let c1 := ((((((((((c.setWord .GLB_QUOTA_W0 h 0 (q 0)).setWord .GLB_QUOTA_W1 h 0 (q 1)).setWord .GLB_QUOTA_W2 h 0 (q 2)).setWord
    .GLB_QUOTA_W3 h 0 (q 3)).setWord .GLB_QUOTA_W4 h 0 (q 4)).setWord .GLB_QUOTA_W5 h 0 (q 5)).setWord .GLB_QUOTA_W6 h 0 (q 6)).setWord
    .GLB_QUOTA_W7 h 0 (q 7)).setWord .GLB_QUOTA_W8 h 0 (q 8)).setWord .GLB_QUOTA_W9 h 0 (q 9))
  let c2 := (c1.set Fd.HAL_RX_MAP_MAP h 0 (q 11)).setWord .HAL_RX_CFG h 0 (q 12)
  let c3 := ports.zipIdx.foldl (fun (c : Chip) p => match c.remap p.1.1 with
    | none => c
    | some n => c.restorePort h p.1.1 n p.1.2.1 (cfgs.getD p.2 []) (scheds.getD p.2 []) (maps.getD p.2 [])) c2
  (hallRecs d 0x105).foldl (fun (c : Chip) r =>
    (c.set Fd.GLB_VSLICE_HALL (beAt r 0 4) 0 h).set Fd.GLB_VSLICE_VALID (beAt r 0 4) 0 1) c3

/-- The section of the first record that a table does not take; 0 when all are taken. -/
def Chip.restoreStop (c : Chip) (h : Nat) (d : List Nat) : List Nat → Nat
  | [] => 0
  | t :: ts =>
    match c.restoreTable h d t with
    | none => 0x106 + t
    | some c1 => Chip.restoreStop c1 h d ts

/-- RESTORE after its checks; `none` when a hashed insert fails. -/
def Chip.restoreApply (c : Chip) (h : Nat) (d : List Nat) : Option Chip :=
  let ports := imagePorts d
  let c5 := restoreTables.foldl (fun (a : Option Chip) t => a.bind (fun c => c.restoreTable h d t)) (some (c.restoreBase h d))
  c5.map (fun c =>
    let c6 := (hallRecs d 0x10D).foldl (fun (c : Chip) r =>
      let ws := wordsAt r 8 48
      let act := ws.drop 40
      let row : TcamRow := { valid := true, layout := r.getD 5 0, owner := h, value := num640 (ws.take 20),
                             mask := num640 ((ws.drop 20).take 20), action := wset (actClean (c.actionIn h act)) 7 4 0 h, err := 0 }
      { c with tcam := c.tcam.ins (r.getD 4 0) (beAt r 0 4) row }) c
    let c7 := (hallCounterRecs d).foldl (fun c r => c.restoreCounter h r) (c6.restorePairs h d)
    let excl := (ports.filter (fun p => !p.2.1)).filterMap (fun p => c.remap p.1)
    let up := (ports.filter (fun p => !p.2.1 && p.2.2)).filterMap (fun p => c.remap p.1)
    let c8 := excl.foldl (fun c n => c.markStopped 0 n) (c7.markStopped 5 h)
    ((c8.setHallRt h { c8.hallRt h with savedUp := up }).set Fd.HAL_GEN_GEN h 0 (c8.gen h + 1)).set Fd.HAL_ID_STATE h 0 3)

/-! ## The commands (R357, R358) -/

def opOPEN : Nat := 1
def opFREEZE : Nat := 2
def opSAVE : Nat := 3
def opRESTORE : Nat := 4
def opTHAW : Nat := 5
def opCLOSE : Nat := 6

/-- The states in which a lifecycle command is accepted. -/
def hallOpOk (op st : Nat) : Bool :=
  match op with
  | 1 => decide (st = 1)
  | 2 => decide (st = 2)
  | 3 => decide (st = 3)
  | 4 => decide (st = 1)
  | 5 => decide (st = 3)
  | 6 => decide (st = 2 ∨ st = 3)
  | _ => true

def Chip.hallAddr (c : Chip) : Nat := c.get Fd.GLB_HALL_ADDR_HI_ADDR 0 0 * 2 ^ 32 + c.get Fd.GLB_HALL_ADDR_LO_ADDR 0 0

/-- A write of GLB_HALL_CMD; an unprivileged one starts nothing and leaves the operands (R12). -/
def hallCmd (m op h : Nat) (cnt dyn : Bool) (c : Chip) : Chip :=
  let st := Fd.GLB_HALL_CMD_STATUS
  let there := decide (0 < h ∧ h < 32) && c.hallPresent h
  c.command st 0 0 m (addrOf .GLB_HALL_CMD 0 0)
    (fun c => if c.priv m then
        ((c.set Fd.GLB_HALL_CMD_HALL 0 0 h).set Fd.GLB_HALL_CMD_CNT 0 0 (b2n cnt)).set Fd.GLB_HALL_CMD_DYN 0 0 (b2n dyn)
      else c.logErr m (addrOf .GLB_HALL_CMD 0 0) true kPRIV)
    [(!c.priv m, sPRIV), (there && !hallOpOk op (c.hallState h), sSTATE),
     (!there || decide (op = 0 ∨ 6 < op) || (decide (op = opSAVE ∨ op = opRESTORE) && decide (c.hallAddr % 64 ≠ 0)), sARG)]
    (fun c =>
      let c1 : Chip := ({ c with ctl := { c.ctl with hallJob := some (op, h) } }).set st 0 0 sBUSY
      if op = opRESTORE then (c1.set Fd.GLB_HALL_DETAIL_SECTION 0 0 0).set Fd.GLB_HALL_DETAIL_CHECK 0 0 0 else c1)

/-- CLOSE: the hall is reset as at an FLR, and gives back what it holds (R358). -/
def Chip.hallCloseDo (c : Chip) (h : Nat) : Chip :=
  let ex := c.exclusive h
  let c1 := (c.hallReset h).markStopped 5 h
  let c2 := (List.range 96).foldl (fun (c : Chip) l => (c.unset Fd.GLB_HPORT_VALID h l).unset Fd.GLB_HPORT_PORT h l) c1
  let c3 := ex.foldl (fun c n => c.setOwner n 0 0) c2
  let isQuota (r : R) : Bool := decide (r = .GLB_QUOTA_W0 ∨ r = .GLB_QUOTA_W1 ∨ r = .GLB_QUOTA_W2 ∨ r = .GLB_QUOTA_W3 ∨ r = .GLB_QUOTA_W4 ∨
    r = .GLB_QUOTA_W5 ∨ r = .GLB_QUOTA_W6 ∨ r = .GLB_QUOTA_W7 ∨ r = .GLB_QUOTA_W8 ∨ r = .GLB_QUOTA_W9)
  let c4 : Chip := { c3 with fld := c3.fld.filter (fun e => !(isQuota e.1.f.r && decide (e.1.i = h))) }
  c4.set Fd.HAL_ID_STATE h 0 1

/-- SAVE (R359): the image, or what fits of it (how much the buffer shows after NO_SPACE is free, log 5). -/
def Chip.hallSaveDo (c : Chip) (h : Nat) : Nat × Chip :=
  let d := c.hallImage h (c.flag Fd.GLB_HALL_CMD_CNT 0 0) (c.flag Fd.GLB_HALL_CMD_DYN 0 0)
  let len := c.get Fd.GLB_HALL_LEN_LEN 0 0
  if len < d.length then
    let k := c.free
    let c1 : Chip := { k.2 with host := Mem.write hostBlank k.2.host c.hallAddr (d.take (k.1 % (len + 1))) }
    (sNOSPACE, c1.set Fd.GLB_HALL_RES_BYTES 0 0 d.length)
  else (sDONE, ({ c with host := Mem.write hostBlank c.host c.hallAddr d }).set Fd.GLB_HALL_RES_BYTES 0 0 d.length)

/-- RESTORE (R360, R361): its status, and what it leaves. -/
def Chip.hallRestoreDo (c : Chip) (h : Nat) (readOk : Bool) : Nat × Chip :=
  let len := min (c.get Fd.GLB_HALL_LEN_LEN 0 0) (beNat (Mem.read hostBlank c.host (c.hallAddr + 8) 4))
  let d := Mem.read hostBlank c.host c.hallAddr (max 64 len)
  let fail (check sect code : Nat) : Nat × Chip :=
    (code, (c.set Fd.GLB_HALL_DETAIL_SECTION 0 0 sect).set Fd.GLB_HALL_DETAIL_CHECK 0 0 check)
  match c.restoreFail h readOk d with
  | some f => fail f.1 f.2.1 f.2.2
  | none =>
    match c.restoreApply h d with
    | none => fail 6 ((c.restoreBase h d).restoreStop h d restoreTables) sNOSPACE
    | some c1 => (sDONE, c1.set Fd.GLB_HALL_RES_BYTES 0 0 len)

/-- THAW: the domains run again, and the ports saved as UP are brought up. -/
def Chip.hallThawDo (c : Chip) (h : Nat) : Chip :=
  let c1 := (c.exclusive h).foldl (fun c n => c.markReleased 0 n) (c.markReleased 5 h)
  let up := (c.hallRt h).savedUp
  let c2 := up.foldl (fun c n => if c.owner n = h then linkCmd 0 1 n c else c) (c1.set Fd.HAL_ID_STATE h 0 2)
  c2.setHallRt h { c2.hallRt h with savedUp := [] }

/-- FREEZE when all has come to rest. -/
def Chip.hallFreezeDo (c : Chip) (h : Nat) : Chip :=
  let ex := c.exclusive h
  let up := ex.filter c.isUp
  let c1 := ex.foldl (fun c n => c.markStopped 0 n) (c.markStopped 5 h)
  (c1.setHallRt h { c1.hallRt h with savedUp := up }).set Fd.HAL_ID_STATE h 0 3

/-- HALL_CMD_COMPLETE: the lifecycle command that runs ends; `readOk` is how the host's memory answered RESTORE. -/
def hallCmdComplete (readOk : Bool) (c : Chip) : Chip :=
  let st := Fd.GLB_HALL_CMD_STATUS
  match c.ctl.hallJob with
  | none => c
  | some (op, h) =>
    let done (r : Nat × Chip) : Chip :=
      (({ r.2 with ctl := { r.2.ctl with hallJob := none } }).outcome st 0 0 r.1).hallEvent h
    match op with
    | 1 => done (sDONE, c.set Fd.HAL_ID_STATE h 0 2)
    | 2 => if c.quiet 5 h && (c.exclusive h).all (fun n => c.quiet 0 n) then done (sDONE, c.hallFreezeDo h) else c
    | 3 => done (c.hallSaveDo h)
    | 4 => done (c.hallRestoreDo h readOk)
    | 5 => done (sDONE, c.hallThawDo h)
    | _ => done (sDONE, c.hallCloseDo h)

/-- A write of GLB_HALL_CMD. -/
def State.hallWrite (s : State) (m op h : Nat) (cnt dyn : Bool) : Host.Outcome State Fault Refusal :=
  s.regWrite m .GLB_HALL_CMD 0 0 (fun _ => hallCmd m op h cnt dyn)

/-- OPEN. -/
def execHallOpen (m h : Nat) (s : State) : Host.Outcome State Fault Refusal := s.hallWrite m opOPEN h false false
/-- FREEZE. -/
def execHallFreeze (m h : Nat) (s : State) : Host.Outcome State Fault Refusal := s.hallWrite m opFREEZE h false false
/-- SAVE. -/
def execHallSave (m h : Nat) (cnt dyn : Bool) (s : State) : Host.Outcome State Fault Refusal := s.hallWrite m opSAVE h cnt dyn
/-- RESTORE. -/
def execHallRestore (m h : Nat) (s : State) : Host.Outcome State Fault Refusal := s.hallWrite m opRESTORE h false false
/-- THAW. -/
def execHallThaw (m h : Nat) (s : State) : Host.Outcome State Fault Refusal := s.hallWrite m opTHAW h false false
/-- CLOSE. -/
def execHallClose (m h : Nat) (s : State) : Host.Outcome State Fault Refusal := s.hallWrite m opCLOSE h false false
/-- HALL_CMD_COMPLETE. -/
def execHallCmdComplete (readOk : Bool) (s : State) : Host.Outcome State Fault Refusal := .next (s.onChip (hallCmdComplete readOk))

end Sys2Proof.Machine
end

