-- ==== Sys2Proof/Machine/Counters.lean ====
section
/-! DEFINITION. Statistics (R437 to R444): what a slot sees of the pools, the central reader's pass, snapshots; and the event
counters' control (R445). -/

namespace Sys2Proof.Machine

/-- COUNTER_READER_PASS: the residues go into counter memory; a counter that wraps sets the bit of its pool (R438, R439). -/
def counterReaderPass (c : Chip) : Chip :=
  c.residue.foldl (fun (c : Chip) e =>
    let v := c.cnt.get 0 e.1.1 e.1.2 + e.2
    let c1 : Chip := { c with cnt := c.cnt.put 0 e.1.1 e.1.2 (v % 2 ^ 64), residue := c.residue.del e.1.1 e.1.2 }
    if 2 ^ 64 ≤ v then c1.set Fd.CNT_OVF_STATUS_POOLS 0 0 (setBit (c1.get Fd.CNT_OVF_STATUS_POOLS 0 0) e.1.1 true) else c1) c

/-! ## Snapshots (R442, R443) -/

/-- The host address of a slot's buffer. -/
def Chip.snapAddr (c : Chip) (h : Nat) : Nat := c.get Fd.CNT_SNAP_ADDR_HI_ADDR h 0 * 2 ^ 32 + c.get Fd.CNT_SNAP_ADDR_LO_ADDR h 0

/-- A write of CNT_SNAP_CMD in the slot of hall `h`. -/
def snapCmd (m h op pool clear : Nat) (c : Chip) : Chip :=
  let st := Fd.CNT_SNAP_CMD_STATUS
  c.command st h 0 m (addrOf .CNT_SNAP_CMD h 0) (fun c => (c.set Fd.CNT_SNAP_CMD_POOL h 0 pool).set Fd.CNT_SNAP_CMD_CLEAR h 0 clear)
    [(decide (h = 0) && !c.priv m, sPRIV), (!c.genCurrent h, sSTALE), (c.stopped 5 h, sQUIESCE),
     (decide (op ≠ 1 ∨ pool = 5 ∨ pool = 6) || decide (c.snapAddr h % 64 ≠ 0), sARG)]
    (fun c =>
      let c1 := c.set Fd.CNT_SNAP_CMD_GEN h 0 (c.gen h)
      let need := 64 + 8 * c1.snapTotal h pool
      if c1.get Fd.CNT_SNAP_LEN_LEN h 0 < need then (c1.set Fd.CNT_SNAP_RES_BYTES h 0 need).set st h 0 sNOSPACE
      else
        let j : SnapJob := { gen := c1.gen h, addr := c1.snapAddr h, pool := pool, clear := decide (clear ≠ 0), bytes := none }
        ((({ c1 with snaps := c1.snaps.ins h j }).set Fd.CNT_SNAP_RES_BYTES h 0 0).set st h 0 sBUSY).snapTurn h)

/-- SNAP_COMPLETE: the snapshot that the reader serves is written whole, and the reader turns to the next slot. -/
def snapComplete (h : Nat) (c : Chip) : Chip :=
  match (c.snaps.find h).bind (fun j => j.bytes.map (fun bs => (j.addr, bs))) with
  | none => c
  | some (a, bs) =>
    if !c.pins.linkUp then c
    else
      let c1 : Chip := { c with snaps := c.snaps.del h, host := Mem.write hostBlank c.host a bs }
      ((c1.set Fd.CNT_SNAP_RES_BYTES h 0 bs.length).set Fd.CNT_SNAP_CMD_STATUS h 0 sDONE).snapTurn h

/-! ## Event counters' control (R445) -/

/-- A write of a block's EVC_CTRL: pipelines 0 to 3, and the atrium as block 4. -/
def evcCtrlWrite (blk v : Nat) (c : Chip) : Chip :=
  if blk < 4 then
    let c1 := c.set Fd.PIP_EVC_CTRL_FREEZE blk 0 (v % 2)
    if bitOf v 1 then c1.setPipe blk { c1.pipe blk with evc := [], evcSince := [], slots := [] } else c1
  else
    let c1 := c.set Fd.ATR_EVC_CTRL_FREEZE 0 0 (v % 2)
    if bitOf v 1 then { c1 with aevc := [] } else c1

/-- FREEZE of a block. -/
def Chip.evcFrozen (c : Chip) (blk : Nat) : Nat :=
  if blk < 4 then c.get Fd.PIP_EVC_CTRL_FREEZE blk 0 else c.get Fd.ATR_EVC_CTRL_FREEZE 0 0

/-! ## Execution -/

/-- COUNTER_READER_PASS. -/
def execCounterReaderPass (s : State) : Host.Outcome State Fault Refusal := .next (s.onChip counterReaderPass)
/-- SNAP. -/
def execSnap (m h pool : Nat) (clear : Bool) (s : State) : Host.Outcome State Fault Refusal :=
  s.slotWrite m h .CNT_SNAP_CMD h 0 (fun _ => snapCmd m h 1 (pool % 8) (b2n clear))
/-- SNAP_COMPLETE. -/
def execSnapComplete (h : Nat) (s : State) : Host.Outcome State Fault Refusal := .next (s.onChip (snapComplete h))
/-- A write of the EVC_CTRL of a block. -/
def State.evcWrite (s : State) (m blk : Nat) (v : Chip → Nat) : Host.Outcome State Fault Refusal :=
  if blk < 4 then s.regWrite m .PIP_EVC_CTRL blk 0 (fun _ c => evcCtrlWrite blk (v c) c)
  else s.regWrite m .ATR_EVC_CTRL 0 0 (fun _ c => evcCtrlWrite blk (v c) c)
/-- CLEAR: FREEZE is written as it stands. -/
def execEvcClear (m blk : Nat) (s : State) : Host.Outcome State Fault Refusal := s.evcWrite m blk (fun c => 2 + c.evcFrozen blk)
/-- FREEZE. -/
def execEvcFreeze (m blk : Nat) (s : State) : Host.Outcome State Fault Refusal := s.evcWrite m blk (fun _ => 1)

end Sys2Proof.Machine
end

