-- ==== Sys2Proof/Machine/FaultCommands.lean ====
section
/-! DEFINITION. The fault collector's commands and events (chapter 14): the live conditions (R419), FAULT_N (R422), clearing
(R420, R425), fencing by command (R427), the votes (R423, R424) and fault injection (R436). -/

namespace Sys2Proof.Machine

/-- A command whose fields are PV (R378): an unprivileged master's write changes no field, is recorded, and reports PRIV_ERR. -/
def Chip.pvCommand (c : Chip) (st : F) (i j m : Nat) (args : Chip → Chip) (checks : List (Bool × Nat)) (go : Chip → Chip) : Chip :=
  let a := addrOf st.r i j
  c.command st i j m a (fun c => if c.priv m then args c else c.logErr m a true kPRIV) ((!c.priv m, sPRIV) :: checks) go

/-! ## Conditions -/

/-- The condition of fault `f` (the Condition column of R419). -/
def Chip.fltCondAt (c : Chip) (f : Nat) : Bool :=
  let fenced (k : Nat) : Bool := c.fenced.any (fun x => decide (x.1 = k))
  let source (st : Nat) : Bool := (List.range 8).any (fun e => decide (c.sparesLeft e = 0) &&
    (List.range 6).any (fun s => decide (c.srcState e s = st) && (c.slotLit e s).isSome))
  match f with
  | 0 => c.noImage
  | 4 => decide (c.get Fd.SEC_RNG_STATUS_STATE 0 0 = 4)
  | 5 => decide (c.servo = svHOLDOVER)
  | 6 => decide (c.get Fd.TIM_CYC_STATUS_STATE 0 0 = cyHOLD)
  | 7 => !c.pins.clk10m
  | 9 => fenced 0
  | 11 => (List.range 8).any (fun e => decide (c.sparesLeft e = 0))
  | 12 => source srcDEGRADED
  | 13 => source srcFAILED
  | 14 => fenced 1
  | 18 => decide (c.banksRetired ≠ 0)
  | 19 => fenced 3
  | 20 => c.stairs.any (fun k => decide (c.stairState k = glLOST) || c.isFenced 4 k)
  | 21 => decide (c.galState = gsORPHAN)
  | 22 => c.flt.thermWarn
  | 23 => c.flt.therm
  | 24 => !c.flt.voltWarn.isEmpty
  | 25 => !c.flt.voltCrit.isEmpty
  | 26 => !c.pins.linkUp
  | _ => false

/-- FLT_COND. -/
def Chip.fltCond (c : Chip) : Nat := (List.range 32).foldl (fun a f => a + b2n (c.fltCondAt f) * 2 ^ f) 0

/-- FAULT_N is driven low (R422). -/
def Chip.faultN (c : Chip) : Bool :=
  !c.pins.auxGood || !c.flt.selfTest || c.safe ||
    decide (clear32 (c.get Fd.FLT_STATUS_STATUS 0 0 &&& c.get Fd.FLT_PIN_EN_PIN_EN 0 0) (c.get Fd.FLT_MASK_MASK 0 0) ≠ 0)

/-- COLLECTOR_SELF_TEST: the self-test passes, with the auxiliary rail good and RESET_N high. -/
def collectorSelfTest (c : Chip) : Chip :=
  if c.pins.auxGood && c.pins.resetN then { c with flt := { c.flt with selfTest := true } } else c

/-! ## Clearing -/

/-- A write of FLT_CLEAR (R420). -/
def fltClear (m v : Nat) (c : Chip) : Chip :=
  if !c.priv m then (if v = 0 then c else c.logErr m (addrOf .FLT_CLEAR 0 0) true kPRIV)
  else c.set Fd.FLT_STATUS_STATUS 0 0 (clear32 (c.get Fd.FLT_STATUS_STATUS 0 0) (clear32 v c.fltCond))

/-- A write of FLT_HIST_CLEAR (R425). -/
def fltHistClear (m : Nat) (kg : Bool) (v : Nat) (c : Chip) : Chip :=
  if v % 2 = 0 then c
  else if !c.priv m then c.logErr m (addrOf .FLT_HIST_CLEAR 0 0) true kPRIV
  else if !kg then c.kgRefuse m .FLT_HIST_CLEAR 0 0
  else (({ c with flt := { c.flt with hist := [] } }).set Fd.FLT_HIST_STATUS_OVERWRITTEN 0 0 0).set Fd.FLT_HIST_STATUS_NEWEST 0 0 0

/-! ## FLT_FENCE_CMD -/

/-- INDEX is in range for KIND (R426). -/
def fenceUnit (kind idx : Nat) : Bool :=
  decide ((kind = 0 ∧ idx < 96) ∨ ((kind = 1 ∨ kind = 2 ∨ kind = 3) ∧ idx < 4) ∨ (kind = 4 ∧ idx < 32))

/-- Fence one unit, by command. -/
def Chip.fenceOne (c : Chip) (kind idx : Nat) : Chip :=
  match kind with
  | 0 => c.fencePort idx
  | 1 => c.fencePipe idx
  | 2 => c.fenceTcam idx
  | 3 => c.fenceDma idx
  | _ => c.fenceStair idx

/-- Unit `idx` is the last unfenced pipeline or DMA engine. -/
def Chip.lastUnfenced (c : Chip) (kind idx : Nat) : Bool :=
  decide (kind = 1 ∨ kind = 3) && decide ((List.range 4).filter (fun i => !c.isFenced kind i) = [idx])

/-- A write of FLT_FENCE_CMD with the lock open: 1 FENCE, 2 UNFENCE (R427). -/
def fenceCmd (m op kind idx : Nat) (c : Chip) : Chip :=
  let st := Fd.FLT_FENCE_CMD_STATUS
  let done (c : Chip) : Chip := c.set st 0 0 sDONE
  c.pvCommand st 0 0 m (fun c => (c.set Fd.FLT_FENCE_CMD_KIND 0 0 kind).set Fd.FLT_FENCE_CMD_INDEX 0 0 idx)
    [(c.safe, sSTATE), (decide (op = 1) && c.lastUnfenced kind idx, sSTATE),
     (decide (op = 2) && decide (kind < 2) && c.isFenced kind idx, sSTATE),
     (!decide (op = 1 ∨ op = 2) || !fenceUnit kind idx, sARG)]
    (fun c =>
      if op = 1 then done ((c.fenceOne kind idx).dmaMoves c)
      else if !c.isFenced kind idx then done c
      else if kind = 4 then done ((c.withView (fun c => (c.markUnfenced 4 idx).setStair idx glDOWN)).stairProbe idx)
      else ({ c with flt := { c.flt with fenceOp := some (kind, idx) } }).set st 0 0 sBUSY)

/-- FENCE_CMD_COMPLETE: the unit's self-test has ended. -/
def fenceCmdComplete (pass : Bool) (c : Chip) : Chip :=
  match c.flt.fenceOp with
  | none => c
  | some (kind, idx) =>
    let c1 : Chip := { c with flt := { c.flt with fenceOp := none } }
    if pass then (c1.markUnfenced kind idx).set Fd.FLT_FENCE_CMD_STATUS 0 0 sDONE
    else c1.set Fd.FLT_FENCE_CMD_STATUS 0 0 sFENCED

/-! ## The votes -/

/-- COLLECTOR_OUTVOTED: the copy is reloaded (R423). -/
def collectorOutvoted (copy : Nat) (c : Chip) : Chip :=
  if c.safe || decide (3 ≤ copy) || !c.pins.auxGood then c
  else (c.cntSat Fd.FLT_VOTE_STATUS_CORR 0 0 1).raise fCOLLECTOR copy

/-- SAFE_TRIP: the hardwired path fires (R424). -/
def safeTrip (c : Chip) : Chip :=
  if !c.pins.auxGood then c
  else ({ c with bus := { c.bus with alert := true } }).set Fd.FLT_VOTE_STATUS_SAFE 0 0 1

/-! ## Fault injection -/

/-- TEST_MODE goes high (R417). -/
def fiGateOpen (c : Chip) : Chip := { c with pins := { c.pins with testMode := true } }

/-- TEST_MODE goes low: what was injected is removed. -/
def fiGateClose (c : Chip) : Chip := ({ c with pins := { c.pins with testMode := false } }).injectClear

/-- Run an injected event: the entries it writes are marked. -/
def Chip.injected (c : Chip) (f : Chip → Chip) : Chip :=
  let c1 := f { c with flt := { c.flt with injecting := true } }
  { c1 with flt := { c1.flt with injecting := false } }

/-- RAISE: the event of a fault, with what a rule attaches to that event (R428, R434). DESIGN CHOICE, log 50. -/
def Chip.raiseInjected (c : Chip) (fault idx : Nat) : Chip :=
  if fault = fTCAM ∧ idx < 4 then c.tcamError idx
  else if fault = fVOLTC ∧ (idx = 0 ∨ (3 ≤ idx ∧ idx < 6)) then (c.raise fVOLTC idx).enterStandby true
  else c.raise fault idx

/-- INDEX is in range for a target of ECC1 and ECC2, and of FAIL_UNIT. -/
def eccTarget (target idx : Nat) : Bool := decide ((target = 0 ∧ idx < 64) ∨ (target = 1 ∧ idx < 8) ∨ (target = 2 ∧ idx < 4))
def failTarget (target idx : Nat) : Bool := decide (((target = 0 ∨ target = 1) ∧ idx < 4) ∨ (target = 2 ∧ idx < 48))

/-- A write of FLT_FI_CMD. While the gate is shut it is ignored without a record (R417). -/
def fiCmd (m : Nat) (kg : Bool) (op target fault idx : Nat) (c : Chip) : Chip :=
  let st := Fd.FLT_FI_CMD_STATUS
  if !c.fiOpen then c
  else if !kg then c.kgRefuse m .FLT_FI_CMD 0 0
  else
    c.pvCommand st 0 0 m
      (fun c => ((c.set Fd.FLT_FI_CMD_TARGET 0 0 target).set Fd.FLT_FI_CMD_FAULT 0 0 fault).set Fd.FLT_FI_CMD_INDEX 0 0 idx)
      [(decide (op = 0 ∨ 6 < op) || (decide (op = 1) && decide (29 ≤ fault)) ||
        (decide (op = 2 ∨ op = 3) && !eccTarget target idx) || (decide (op = 4) && !failTarget target idx), sARG)]
      (fun c =>
        let c := c.set st 0 0 sDONE
        match op with
        | 1 => c.injected (fun c => c.raiseInjected fault idx)
        | 2 => { c with flt := { c.flt with eccNext := c.flt.eccNext.put 0 target idx 1 } }
        | 3 => { c with flt := { c.flt with eccNext := c.flt.eccNext.put 0 target idx 2 } }
        | 4 => c.injected (fun c =>
            match target with
            | 0 => c.pipeError idx
            | 1 => (c.dmaError idx).dmaMoves c
            | _ => sourceFailed (idx / 6) (idx % 6) c)
        | 5 =>
          (match bitsOf 3 idx with
           | [] => c
           | [k] => c.injected (fun c => collectorOutvoted k c)
           | _ => safeTrip c)
        | _ => c.injectClear)

/-! ## Execution -/

/-- UNIT_ERROR: an error line (R428). -/
def execUnitError (line : ErrLine) (s : State) : Host.Outcome State Fault Refusal :=
  .next (s.onChip (fun c => (unitError line c).dmaMoves c))

/-- A write of FLT_FENCE_CMD. -/
def State.fenceWrite (s : State) (m op kind idx : Nat) : Host.Outcome State Fault Refusal :=
  s.regWrite m .FLT_FENCE_CMD 0 0 (fun kg c => if kg then fenceCmd m op kind idx c else c.kgRefuse m .FLT_FENCE_CMD 0 0)

/-- A write of FLT_FI_CMD. -/
def State.fiWrite (s : State) (m op target fault idx : Nat) : Host.Outcome State Fault Refusal :=
  s.regWrite m .FLT_FI_CMD 0 0 (fun kg => fiCmd m kg op target fault idx)

/-- FLT_CLEAR. -/
def execFltClear (m : Nat) (v : Word) (s : State) : Host.Outcome State Fault Refusal :=
  s.regWrite m .FLT_CLEAR 0 0 (fun _ => fltClear m v.toNat)
/-- FLT_HIST_CLEAR. -/
def execFltHistClear (m : Nat) (s : State) : Host.Outcome State Fault Refusal :=
  s.regWrite m .FLT_HIST_CLEAR 0 0 (fun kg => fltHistClear m kg 1)
/-- FENCE. -/
def execFence (m kind idx : Nat) (s : State) : Host.Outcome State Fault Refusal := s.fenceWrite m 1 kind idx
/-- UNFENCE. -/
def execUnfence (m kind idx : Nat) (s : State) : Host.Outcome State Fault Refusal := s.fenceWrite m 2 kind idx
/-- FENCE_CMD_COMPLETE. -/
def execFenceCmdComplete (pass : Bool) (s : State) : Host.Outcome State Fault Refusal := .next (s.onChip (fenceCmdComplete pass))
/-- COLLECTOR_OUTVOTED. -/
def execCollectorOutvoted (copy : Nat) (s : State) : Host.Outcome State Fault Refusal := .next (s.onChip (collectorOutvoted copy))
/-- COLLECTOR_SELF_TEST. -/
def execCollectorSelfTest (s : State) : Host.Outcome State Fault Refusal := .next (s.onChip collectorSelfTest)
/-- SAFE_TRIP. -/
def execSafeTrip (s : State) : Host.Outcome State Fault Refusal := .next (s.onChip safeTrip)
/-- FI_GATE_OPEN. -/
def execFiGateOpen (s : State) : Host.Outcome State Fault Refusal := .next (s.onChip fiGateOpen)
/-- FI_GATE_CLOSE. -/
def execFiGateClose (s : State) : Host.Outcome State Fault Refusal := .next (s.onChip fiGateClose)
/-- RAISE. -/
def execFiRaise (m fault idx : Nat) (s : State) : Host.Outcome State Fault Refusal := s.fiWrite m 1 0 fault idx
/-- ECC1. -/
def execFiEcc1 (m target idx : Nat) (s : State) : Host.Outcome State Fault Refusal := s.fiWrite m 2 target 0 idx
/-- ECC2. -/
def execFiEcc2 (m target idx : Nat) (s : State) : Host.Outcome State Fault Refusal := s.fiWrite m 3 target 0 idx
/-- FAIL_UNIT. -/
def execFiFailUnit (m target idx : Nat) (s : State) : Host.Outcome State Fault Refusal := s.fiWrite m 4 target 0 idx
/-- COLLECTOR. -/
def execFiCollector (m copies : Nat) (s : State) : Host.Outcome State Fault Refusal := s.fiWrite m 5 0 0 copies
/-- CLEAR_ALL. -/
def execFiClearAll (m : Nat) (s : State) : Host.Outcome State Fault Refusal := s.fiWrite m 6 0 0 0

end Sys2Proof.Machine
end

