-- ==== Sys2Proof/Machine/Misc.lean ====
section
/-! DEFINITION. The port-to-pipeline crossbar (R32 to R35), the bank command (R252, R253) and the mirror seed (R270). -/

namespace Sys2Proof.Machine

/-- A pipeline is fenced or parked (R34), or on its way into PARK (R74). -/
def Chip.pipeOut (c : Chip) (p : Nat) : Bool := c.isFenced 1 p || c.parked p || decide (p ∈ c.ctl.parking)

/-- A write of GLB_PORT_PIPE_n: refused towards a pipeline that is fenced or parked (R34); a live move when the former is neither
(R33), in the port's resequencer context; with no context free the frames pass without resequencing (DESIGN CHOICE, log 120). From
a pipeline out of service the port is placed, and nothing has to be resequenced. -/
def portPipeWrite (m n p : Nat) (c : Chip) : Chip :=
  let p := p % 4
  let old := c.portPipe n
  if c.pipeOut p then c.refuse m .GLB_PORT_PIPE n 0
  else if p = old then c
  else
    let c1 := (c.set Fd.GLB_PORT_PIPE_PIPE n 0 p).setPort n { c.port n with remapping := false }
    if c.pipeOut old then c1
    else
      let c2 := c1.setPort n { c1.port n with moves := (c1.port n).moves + 1 }
      match c2.moveOf n with
      | some r => c2.putRsq { r with src := old }
      | none =>
        if 1024 ≤ c2.atr.rsq.length then c2.atrCnt xNOCTX 1
        else
          (c2.newRsq { id := 0, move := some n, src := old, flow := 0, port := n, expect := 0, held := [], last := c.tim.clk }).set
            Fd.GLB_PORT_PIPE_MOVE_PENDING n 0 1

/-- PORT_REMAP: the port of a fenced pipeline goes to the surviving pipeline at index n mod k (R35). -/
def portRemap (n : Nat) (c : Chip) : Chip :=
  let up := c.pipesUp
  if !(c.port n).remapping || up.isEmpty then c
  else
    ((c.setPort n { c.port n with remapping := false }).set Fd.GLB_PORT_PIPE_PIPE n 0 (up.getD (n % up.length) 0)).set
      Fd.GLB_PORT_PIPE_REMAPPED n 0 1

/-- A write of ATR_BANK_CMD with the lock open (R253). -/
def bankCmd (m op bank : Nat) (c : Chip) : Chip :=
  let bank := bank % 64
  c.command Fd.ATR_BANK_CMD_STATUS 0 0 m (addrOf .ATR_BANK_CMD 0 0) (fun c => c.set Fd.ATR_BANK_CMD_BANK 0 0 bank)
    [(c.bankRetired bank, sSTATE), (decide (op ≠ 1), sARG)]
    (fun c => (c.retireBank bank).outcome Fd.ATR_BANK_CMD_STATUS 0 0 sDONE)

/-- A write of ATR_MIR_SEED: the LFSR of every session takes the seed (R270, R271). -/
def mirSeedWrite (m : Nat) (kg : Bool) (v : Nat) (c : Chip) : Chip :=
  let c1 := c.plainWrite m kg .ATR_MIR_SEED 0 0 v
  if c.priv m then
    (List.range 15).foldl (fun (c : Chip) s => c.setMir (s + 1) { c.mirRt (s + 1) with lfsr := v % 2 ^ 32 }) c1
  else c1

/-! ## Execution -/

/-- PORT_PIPE_WRITE. -/
def execPortPipeWrite (m n p : Nat) (s : State) : Host.Outcome State Fault Refusal :=
  s.regWrite m .GLB_PORT_PIPE n 0 (fun _ => portPipeWrite m n p)
/-- PORT_REMAP. -/
def execPortRemap (n : Nat) (s : State) : Host.Outcome State Fault Refusal := .next (s.onChip (portRemap n))
/-- RETIRE. -/
def execRetire (m bank : Nat) (s : State) : Host.Outcome State Fault Refusal :=
  s.regWrite m .ATR_BANK_CMD 0 0 (fun kg c => if kg then bankCmd m 1 bank c else c.kgRefuse m .ATR_BANK_CMD 0 0)
/-- MIR_SEED_WRITE. -/
def execMirSeedWrite (m : Nat) (v : Word) (s : State) : Host.Outcome State Fault Refusal :=
  s.regWrite m .ATR_MIR_SEED 0 0 (fun kg => mirSeedWrite m kg v.toNat)

end Sys2Proof.Machine
end

