-- ==== Sys2Proof/Machine/Security.lean ====
section
/-! DEFINITION. The security block (chapter 13): lifecycle and fuses (R398 to R402), the crypto engine (R405 to R409), the key
engine (R410 to R412), the entropy source and the DRBG (R414 to R416). -/

namespace Sys2Proof.Machine

/-! ## Fuses as re-sensed for reading -/

/-- A row as last re-sensed (R397). -/
def Chip.shownRow (c : Chip) (r : Nat) : Nat := c.sec.shown.get 0 r

/-- Some row of `n` from `r` up is not 0. -/
def Chip.shownAny (c : Chip) (r n : Nat) : Bool := (List.range n).any (fun k => decide (c.shownRow (r + k) ≠ 0))

/-- Re-sense the rows that SEC_FUSE_ROW_r reads, and no behaviour (R397). -/
def State.reshow (s : State) : State := s.onChip (fun c => { c with sec := { c.sec with shown := sensedRows s.otp c.sec.worn } })

/-- Burn one row. -/
def State.burnRow (s : State) (row v : Nat) : State := { s with otp := s.otp.burn row v }

/-- The rows ROOT_KEY, whose PROGRAM is an ARG_ERR, and the rows beyond the calibration region (R401). -/
def fuseRowOk (row : Nat) : Bool := decide (row < 192 ∧ ¬ (51 ≤ row ∧ row ≤ 58))

/-- The bits of a row that PROGRAM may burn in the sensed state (R398). -/
def Chip.burnMask (c : Chip) (row : Nat) : Nat :=
  let all := 2 ^ 32 - 1
  match c.lifecycle with
  | 0 => if row = 0 then all - 511 else all
  | 1 =>
    if row = 0 then 0x1F000000 + (if c.ftLock then 0 else 0x70000)
    else if row = 1 then 0xFF
    else if (8 ≤ row ∧ row < 32) ∨ (64 ≤ row ∧ row < 128) then all
    else if 128 ≤ row ∧ row < 184 ∧ !c.ftLock then all
    else 0
  | 2 =>
    if row = 1 then 0xF7
    else if 20 ≤ row ∧ row < 32 then (if c.keyHash 1 = 0 then all else 0)
    else if 64 ≤ row ∧ row < 128 then all
    else 0
  | _ => 0

/-- After burning `data` into row 1, slot `s` would be revoked. -/
def Chip.revokedAfter (c : Chip) (s data : Nat) : Bool :=
  decide (bits (5 + 2 * s) (4 + 2 * s) (c.shownRow 1 ||| data) ≠ 0)

/-- A PROGRAM that R402 forbids: it revokes a slot, and the other holds no hash that stays good. -/
def Chip.revokeBad (c : Chip) (row data : Nat) : Bool :=
  decide (row = 1) &&
    ((decide (bits 5 4 data ≠ 0) && (c.revokedAfter 1 data || !c.shownAny 20 12)) ||
     (decide (bits 7 6 data ≠ 0) && (c.revokedAfter 0 data || !c.shownAny 8 12)))

/-- A write of SEC_FUSE_CMD with the lock open (R400 to R402). -/
def fuseCmd (m op row : Nat) (c : Chip) : Chip :=
  let row := row % 256
  let data := c.get Fd.SEC_FUSE_DATA_DATA 0 0
  let mask := c.burnMask row
  c.pvCommand Fd.SEC_FUSE_CMD_STATUS 0 0 m (fun c => c.set Fd.SEC_FUSE_CMD_ROW 0 0 row)
    [(c.sec.burn.isSome, sSTATE), (fuseRowOk row && (decide (mask = 0) || decide (clear32 data mask ≠ 0)), sSTATE),
     (c.revokeBad row data, sSTATE), (decide (op ≠ 1) || !fuseRowOk row, sARG)]
    (fun c => ({ c with sec := { c.sec with burn := some { op := 0, a := row, b := data, ws := [] } } }).set Fd.SEC_FUSE_CMD_STATUS 0 0 sBUSY)

/-- A write of SEC_LC_CMD with the lock open (R399). From BLANK the root key is drawn; while the DRBG waits, so does the
command. -/
def lcCmd (m op : Nat) (c : Chip) : Chip :=
  let st := Fd.SEC_LC_CMD_STATUS
  let lc := c.lifecycle
  let rng := c.get Fd.SEC_RNG_STATUS_STATE 0 0
  c.pvCommand st 0 0 m id
    [(c.sec.burn.isSome || decide (lc = 3) || (decide (lc = 1) && (!c.shownAny 8 12 || !c.shownAny 32 19)), sSTATE),
     (decide (op ≠ 1), sARG)]
    (fun c =>
      if lc = 0 ∧ rng = 4 then c.set st 0 0 sENTROPY
      else
        let k := if lc = 0 ∧ rng = 2 then c.random 256 else (0, c)
        let job : SecJob := { op := 1, a := lc, b := b2n (decide (lc ≠ 0 ∨ rng = 2)), ws := [k.1] }
        ({ k.2 with sec := { k.2.sec with burn := some job } }).set st 0 0 sBUSY)

/-- The rows and bits that a job burns. -/
def SecJob.rows (j : SecJob) : List (Nat × Nat) :=
  if j.op = 0 then [(j.a, j.b)]
  else if j.a = 0 then (List.range 8).map (fun k => (51 + k, j.ws.getD 0 0 / 2 ^ (32 * (7 - k)) % 2 ^ 32)) ++ [(0, 7)]
  else [(0, if j.a = 1 then 0x38 else 0x1C0)]

/-- FUSE_BURN_COMPLETE: `stuck` names (row, bit) that do not read back as 1 (R401). -/
def fuseBurnComplete (stuck : List (Nat × Nat)) (s : State) : State :=
  match s.chip.sec.burn with
  | none => s
  | some j =>
    if j.op = 1 ∧ j.b = 0 then s
    else
      let good (row v : Nat) : Nat :=
        (bitsOf 32 v).foldl (fun a k => if (row, k) ∈ stuck ∧ !bitOf (s.otp.get 0 row) k then a else a + 2 ^ k) 0
      let bad := j.rows.any (fun e => decide (good e.1 e.2 ≠ e.2 % 2 ^ 32))
      let s1 := (j.rows.foldl (fun (s : State) e => s.burnRow e.1 (good e.1 e.2)) s).reshow
      let st := if j.op = 0 then Fd.SEC_FUSE_CMD_STATUS else Fd.SEC_LC_CMD_STATUS
      s1.onChip (fun c => ({ c with sec := { c.sec with burn := none } }).set st 0 0 (if bad then sECC else sDONE))

/-! ## Results that a read consumes (R409) -/

def Chip.clearCeResult (c : Chip) : Chip :=
  let c1 := (List.range 24).foldl (fun c w => c.set Fd.SEC_CE_RES_RES w 0 0) c
  (c1.set Fd.SEC_CE_RES_INFO_LEN 0 0 0).set Fd.SEC_CE_RES_INFO_RESULT_VALID 0 0 0

def Chip.clearKeResult (c : Chip) : Chip :=
  ((List.range 16).foldl (fun c w => c.set Fd.SEC_KE_OUT_OUT w 0 0) c).set Fd.SEC_KE_RES_INFO_RESULT_VALID 0 0 0

def Chip.clearRngResult (c : Chip) : Chip :=
  ((List.range 8).foldl (fun c w => c.set Fd.SEC_RNG_OUT_OUT w 0 0) c).set Fd.SEC_RNG_INFO_RESULT_VALID 0 0 0

/-- Put bytes into the words of a result buffer, byte 4w in bits [31:24]. -/
def Chip.putBytes (c : Chip) (f : F) (bs : List Nat) : Chip :=
  (List.range (cdiv bs.length 4)).foldl (fun c w => c.set f w 0 (beAt bs (4 * w) 4)) c

/-! ## Crypto engine -/

/-- What the operand buffer holds, as bytes. -/
def Chip.ceOperands (c : Chip) : List Nat := (List.range 64).flatMap (fun w => beBytes 4 (c.get Fd.SEC_CE_OP_OPW w 0))

/-- A write of SEC_CE_CMD (R406, R408). -/
def ceCmd (m op keySel curve : Nat) (c : Chip) : Chip :=
  let st := Fd.SEC_CE_CMD_STATUS
  let rng := c.get Fd.SEC_RNG_STATUS_STATE 0 0
  let draws := decide (op = 3 ∨ op = 6)
  let lc := c.lifecycle
  c.pvCommand st 0 0 m (fun c => (c.set Fd.SEC_CE_CMD_KEY_SEL 0 0 keySel).set Fd.SEC_CE_CMD_CURVE 0 0 curve)
    [(decide (keySel = 1) && decide (c.sec.idScalar = 0 ∨ lc = 0 ∨ lc = 3), sSTATE),
     (decide (op = 6) && (decide (lc ≠ 1) || c.ftLock || c.shownAny 32 19), sSTATE),
     (decide (op = 0 ∨ 6 < op) || (decide (keySel = 1) && decide (curve = 0 ∨ (op ≠ 3 ∧ op ≠ 5))) ||
        (decide (op = 6) && decide (curve = 0)) || (decide (op = 1) && decide (c.get Fd.SEC_CE_OP_OPW 0 0 % 4 ≠ 0)), sARG)]
    (fun c =>
      let c1 := c.clearCeResult
      if draws ∧ rng = 4 then c1.set st 0 0 sENTROPY
      else
        let job : SecJob := { op := op, a := keySel, b := curve, ws := c1.ceOperands }
        (({ c1 with sec := { c1.sec with ce := some job } }).set Fd.SEC_CE_CMD_TRNG_WAIT 0 0 (b2n (draws && decide (rng ≠ 2)))).set st 0 0 sBUSY)

/-- The coordinates of a point as 96 bytes; both zero for the point at infinity. -/
def pointBytes (q : Point) : List Nat :=
  match q with
  | some (x, y) => beBytes 48 x ++ beBytes 48 y
  | none => List.replicate 96 0

/-- A secret scalar is out of its range. -/
def scalarBad (cv : Curve) (d : Nat) : Bool := decide (d = 0 ∨ cv.n ≤ d)

/-- What an operation without a draw ends in: the outcome and the result bytes (R406, R408). -/
def Chip.ceResult (c : Chip) (j : SecJob) : Nat × List Nat :=
  let cv := curveOf j.b
  let f (o : Nat) : Nat := beAt j.ws o 48
  match j.op with
  | 1 =>
    let addr := beAt j.ws 4 4 * 2 ^ 32 + beAt j.ws 0 4
    (sDONE, sha384 (Mem.read hostBlank c.host addr (beAt j.ws 8 4)))
  | 2 =>
    if !onCurve cv (f 0) (f 48) then (sPOINT, [])
    else if ecdsaVerify cv (f 0) (f 48) (f 192) (f 96) (f 144) then (sDONE, []) else (sSIG, [])
  | 4 =>
    if !onCurve cv (f 0) (f 48) then (sPOINT, [])
    else if scalarBad cv (f 96) then (sSCALAR, [])
    else (sDONE, (pointBytes (scalarMul cv (f 96) (some (f 0, f 48)))).take 48)
  | _ =>
    let d := if j.a = 1 then c.sec.idScalar else f 0
    if scalarBad cv d then (sSCALAR, []) else (sDONE, pointBytes (scalarMul cv d (basePoint cv)))

/-- The end of the host slot's operation: the outcome and its result. -/
def Chip.ceEnd (c : Chip) (code : Nat) (res : List Nat) : Chip :=
  let c1 : Chip := { c with sec := { c.sec with ce := none } }
  let c2 := if code = sDONE ∧ res ≠ [] then
      ((c1.putBytes Fd.SEC_CE_RES_RES res).set Fd.SEC_CE_RES_INFO_LEN 0 0 res.length).set Fd.SEC_CE_RES_INFO_RESULT_VALID 0 0 1 else c1
  (c2.set Fd.SEC_CE_CMD_TRNG_WAIT 0 0 0).set Fd.SEC_CE_CMD_STATUS 0 0 code

/-- The wrapped identity key of scalar `d` with IV `iv` (R403): 76 bytes. -/
def Chip.idWrap (c : Chip) (d iv : Nat) : List Nat :=
  let e := gcmSeal (beBytes 32 (Config.freeWrapKey 1 (c.fuseField 51 8) % 2 ^ 256)) (beBytes 12 iv) (beBytes 16 c.uid) (beBytes 48 d)
  beBytes 12 iv ++ e.1 ++ e.2

/-- CE_OP_COMPLETE: the operation of the host slot ends. One that waits for the DRBG, or for the host link, does not. -/
def ceOpComplete (s : State) : State :=
  let c := s.chip
  match c.sec.ce with
  | none => s
  | some j =>
    if c.flag Fd.SEC_CE_CMD_TRNG_WAIT 0 0 || (decide (j.op = 1) && !c.pins.linkUp) then s
    else if j.op = 3 then
      let cv := curveOf j.b
      let d := if j.a = 1 then c.sec.idScalar else beAt j.ws 0 48
      if scalarBad cv d then s.onChip (fun c => c.ceEnd sSCALAR [])
      else
        s.onChip (fun c =>
          let k := c.random (cv.nbits + 64)
          let g := ecdsaSign cv d (extraBitsSecret cv k.1) (beAt j.ws 192 48)
          k.2.ceEnd sDONE (beBytes 48 g.1 ++ beBytes 48 g.2))
    else if j.op = 6 then
      let k := c.random 448
      let iv := k.2.random 96
      let d := extraBitsSecret p384 k.1
      let w := c.idWrap d iv.1
      let s1 : State := { s with chip := iv.2.ceEnd sDONE (pointBytes (scalarMul p384 d (basePoint p384))) }
      ((List.range 19).foldl (fun (s : State) i => s.burnRow (32 + i) (beAt w (4 * i) 4)) s1).reshow
    else s.onChip (fun c => let r := c.ceResult j; c.ceEnd r.1 r.2)

/-! ## Key engine -/

/-- SA `a` that R143 protects: the transmit SA that ENC_SA selects, a receive SA with VALID. -/
def Chip.saProtected (c : Chip) (n dir sc a : Nat) : Bool :=
  if dir = 0 then decide (c.get Fd.PRT_MACSEC_TX_SA_SEL_ENC_SA n 0 = a) else c.flag Fd.PRT_MACSEC_RX_SA_CTRL_VALID n (2 * sc + a)

/-- The bytes of the blob buffer and of the cleartext key. -/
def Chip.keBlob (c : Chip) : List Nat := (List.range 16).flatMap (fun w => beBytes 4 (c.get Fd.SEC_KE_BLOB_BLOB w 0))
def Chip.keKey (c : Chip) : List Nat := (List.range 8).flatMap (fun w => beBytes 4 (c.get Fd.SEC_KE_KEY_KEY w 0))

/-- A write of SEC_KE_CMD (R410, R412): 1 WRAP, 2 UNWRAP, 3 ERASE. -/
def keCmd (m op : Nat) (c : Chip) : Chip :=
  let st := Fd.SEC_KE_CMD_STATUS
  let n := c.get Fd.SEC_KE_TARGET_PORT 0 0
  let dir := c.get Fd.SEC_KE_TARGET_DIR 0 0
  let sc := c.get Fd.SEC_KE_TARGET_SC 0 0
  let a := c.get Fd.SEC_KE_TARGET_SA 0 0
  let blob := c.keBlob
  let len := blob.getD 2 0
  let headOk := decide (blob.getD 0 0 = 1 ∧ blob.getD 1 0 = 1 ∧ (len = 16 ∨ len = 32) ∧ blob.getD 3 0 = 0)
  let rng := c.get Fd.SEC_RNG_STATUS_STATE 0 0
  c.pvCommand st 0 0 m id
    [(decide (c.lifecycle = 0 ∨ c.lifecycle = 3), sSTATE),
     (decide (2 ≤ op) && decide (n < 96) && c.saProtected n dir sc a, sSTATE),
     (decide (c.sku ≠ 0 ∨ op = 0 ∨ 96 ≤ n ∨ (sc ≠ 0 ∧ dir = 0)) ||
        (decide (op = 2) && (!headOk || decide (len ≠ cipherKeyLen (c.msCipher n)))), sARG)]
    (fun c =>
      let c1 := c.clearKeResult
      if op = 1 ∧ rng = 4 then (c1.clearKeKey).set st 0 0 sENTROPY
      else
        let ws := if op = 1 then c1.keKey.take (if c1.flag Fd.SEC_KE_TARGET_KLEN 0 0 then 32 else 16) else blob
        let job : SecJob := { op := op, a := n, b := saIdx dir sc a, ws := ws }
        (({ c1 with sec := { c1.sec with ke := some job } }).set Fd.SEC_KE_CMD_TRNG_WAIT 0 0 (b2n (decide (op = 1 ∧ rng ≠ 2)))).set st 0 0 sBUSY)

/-- KEY_LOADED of the SA that `saIdx` numbers. -/
def Chip.setKeyLoaded (c : Chip) (n x v : Nat) : Chip :=
  if x < 8 then c.set Fd.PRT_MACSEC_TX_SA_CTRL_KEY_LOADED n x v else c.set Fd.PRT_MACSEC_RX_SA_CTRL_KEY_LOADED n (x - 8) v

/-- The key under which the key engine wraps, and what it authenticates beside the text (R411). -/
def Chip.keWrapKey (c : Chip) : List Nat := beBytes 32 (Config.freeWrapKey 0 (c.fuseField 51 8) % 2 ^ 256)
def Chip.keAad (c : Chip) (head : List Nat) : List Nat := head ++ beBytes 16 c.uid

/-- The blob that WRAP makes of a key with IV `iv`: 64 bytes. -/
def Chip.blobOf (c : Chip) (key iv : List Nat) : List Nat :=
  let head := [1, 1, key.length, 0]
  let e := gcmSeal c.keWrapKey iv (c.keAad head) (slice key 0 32)
  head ++ iv ++ e.1 ++ e.2

/-- The key in a blob, when its tag verifies. -/
def Chip.blobKey (c : Chip) (blob : List Nat) : Option (List Nat) :=
  (gcmOpen c.keWrapKey (slice blob 4 12) (c.keAad (blob.take 4)) (slice blob 16 32) (slice blob 48 16)).map (fun pt => pt.take (blob.getD 2 0))

/-- The end of a key engine command: the cleartext key is cleared. -/
def Chip.keEnd (c : Chip) (code : Nat) : Chip :=
  ((({ c with sec := { c.sec with ke := none } }).clearKeKey).set Fd.SEC_KE_CMD_TRNG_WAIT 0 0 0).set Fd.SEC_KE_CMD_STATUS 0 0 code

/-- KE_CMD_COMPLETE (R412). -/
def keCmdComplete (c : Chip) : Chip :=
  match c.sec.ke with
  | none => c
  | some j =>
    if c.flag Fd.SEC_KE_CMD_TRNG_WAIT 0 0 then c
    else
      match j.op with
      | 1 =>
        let iv := c.random 96
        ((iv.2.putBytes Fd.SEC_KE_OUT_OUT (c.blobOf j.ws (beBytes 12 iv.1))).set Fd.SEC_KE_RES_INFO_RESULT_VALID 0 0 1).keEnd sDONE
      | 2 =>
        (match c.blobKey j.ws with
         | none => c.keEnd sSIG
         | some k => (({ c with sec := { c.sec with saKey := c.sec.saKey.ins j.a j.b (beNat k) } }).setKeyLoaded j.a j.b 1).keEnd sDONE)
      | _ => (({ c with sec := { c.sec with saKey := c.sec.saKey.del j.a j.b } }).setKeyLoaded j.a j.b 0).keEnd sDONE

/-! ## Entropy source and DRBG -/

def rngRUN : Nat := 2
def rngWAIT : Nat := 3
def rngERROR : Nat := 4

def Chip.rngState (c : Chip) : Nat := c.get Fd.SEC_RNG_STATUS_STATE 0 0
def Chip.setRng (c : Chip) (s : Nat) : Chip := c.set Fd.SEC_RNG_STATUS_STATE 0 0 s

/-- A run of `41` equal samples (repetition count test): `run` so far, of `last`. -/
def repetition : Nat → Bool → List Bool → Bool
  | _, _, [] => false
  | run, last, b :: l => if b = last then decide (41 ≤ run + 1) || repetition (run + 1) last l else repetition 1 b l

/-- A window fails a health test (R414). -/
def windowFails (w : List Bool) : Bool :=
  match w with
  | [] => true
  | b :: l => repetition 1 b l || decide (624 ≤ (w.filter (fun x => x == b)).length)

/-- GENERATE's 32 bytes. -/
def Chip.generate (c : Chip) : Chip :=
  let r := c.random 256
  ((r.2.putBytes Fd.SEC_RNG_OUT_OUT (beBytes 32 r.1)).set Fd.SEC_RNG_INFO_RESULT_VALID 0 0 1).set Fd.SEC_RNG_CMD_STATUS 0 0 sDONE

/-- What waited for the DRBG goes on: it is in RUN again. -/
def Chip.rngServe (c : Chip) : Chip :=
  let c1 := (c.set Fd.SEC_CE_CMD_TRNG_WAIT 0 0 0).set Fd.SEC_KE_CMD_TRNG_WAIT 0 0 0
  let c2 := if c1.sec.rng = some 2 then ({ c1 with sec := { c1.sec with rng := none } }).generate else c1
  match c2.sec.burn with
  | some j =>
    if j.op = 1 ∧ j.b = 0 then
      let k := c2.random 256
      { k.2 with sec := { k.2.sec with burn := some { j with b := 1, ws := [k.1] } } }
    else c2
  | none => c2

/-- ERROR: what waits completes with ENTROPY_ERR, the fault is raised (R415). -/
def Chip.rngError (c : Chip) : Chip :=
  let c1 := if c.flag Fd.SEC_CE_CMD_TRNG_WAIT 0 0 then c.ceEnd sENTROPY [] else c
  let c2 := if c1.flag Fd.SEC_KE_CMD_TRNG_WAIT 0 0 then c1.keEnd sENTROPY else c1
  let c3 := if c2.sec.rng = some 2 then ({ c2 with sec := { c2.sec with rng := none } }).set Fd.SEC_RNG_CMD_STATUS 0 0 sENTROPY else c2
  let c4 := match c3.sec.burn with
    | some j => if j.op = 1 ∧ j.b = 0 then
        ({ c3 with sec := { c3.sec with burn := none } }).set Fd.SEC_LC_CMD_STATUS 0 0 sENTROPY else c3
    | none => c3
  ((({ c4 with sec := { c4.sec with windows := 0 } }).setRng rngERROR).raise fENTROPY 0)

/-- INIT runs: the device's own after a reset, or the command's. -/
def Chip.rngIniting (c : Chip) : Bool := decide (c.rngState = 1 ∨ c.sec.rng = some 1)

/-- The command INIT ends. -/
def Chip.initEnd (c : Chip) (code : Nat) : Chip :=
  if c.sec.rng = some 1 then ({ c with sec := { c.sec with rng := none } }).set Fd.SEC_RNG_CMD_STATUS 0 0 code else c

/-- ENTROPY_WINDOW: a window of 1 024 samples ends (R414 to R416). -/
def entropyWindow (w : List Bool) (c : Chip) : Chip :=
  if w.length ≠ 1024 ∨ !c.running ∨ c.rngState = 0 then c
  else if windowFails w then
    let run := min 3 (c.get Fd.SEC_RNG_STATUS_FAIL_RUN 0 0 + 1)
    let c1 := (c.cntSat Fd.SEC_RNG_STATUS_FAIL_CNT 0 0 1).set Fd.SEC_RNG_STATUS_FAIL_RUN 0 0 run
    if c.rngState = rngERROR then
      (if c.rngIniting && decide (c.sec.windows = 0) then c1.initEnd sENTROPY
       else if c.rngIniting && decide (run = 3) then ({ c1 with sec := { c1.sec with windows := 0 } }).initEnd sENTROPY
       else c1)
    else if c.rngState = 1 then (if c.sec.windows = 0 ∨ run = 3 then c1.rngError else c1)
    else if run = 3 then c1.rngError
    else c1.setRng rngWAIT
  else
    let c1 := c.set Fd.SEC_RNG_STATUS_FAIL_RUN 0 0 0
    if c.rngIniting then
      if c.sec.windows = 0 then { c1 with sec := { c1.sec with windows := 1 } }
      else (({ c1 with sec := { c1.sec with windows := 0, requests := 0 } }).setRng rngRUN |>.initEnd sDONE).rngServe
    else if c.rngState = rngWAIT then (({ c1 with sec := { c1.sec with requests := 0 } }).setRng rngRUN).rngServe
    else c1

/-- DRBG_RESEED: from the latest passing window. -/
def drbgReseed (c : Chip) : Chip := if c.drbgReady then { c with sec := { c.sec with requests := 0 } } else c

/-- A write of SEC_RNG_CMD (R415, R416): 1 INIT, 2 GENERATE. -/
def rngCmd (m op : Nat) (c : Chip) : Chip :=
  let st := Fd.SEC_RNG_CMD_STATUS
  c.pvCommand st 0 0 m id
    [(decide (op = 1) && decide (c.rngState = 1 ∨ c.rngState = rngRUN ∨ c.rngState = rngWAIT), sSTATE), (decide (op = 0 ∨ 2 < op), sARG)]
    (fun c =>
      if op = 1 then ({ c with sec := { c.sec with rng := some 1, windows := 0 } }).set st 0 0 sBUSY
      else
        let c1 := c.clearRngResult
        if c.rngState = rngERROR then c1.set st 0 0 sENTROPY
        else if c.drbgReady then c1.generate
        else ({ c1 with sec := { c1.sec with rng := some 2 } }).set st 0 0 sBUSY)

/-! ## Execution -/

/-- A write of SEC_CE_CMD. -/
def State.ceWrite (s : State) (m op keySel curve : Nat) : Host.Outcome State Fault Refusal :=
  s.regWrite m .SEC_CE_CMD 0 0 (fun _ => ceCmd m op (keySel % 2) (curve % 2))

/-- ADVANCE. -/
def execLcAdvance (m : Nat) (s : State) : Host.Outcome State Fault Refusal :=
  s.regWrite m .SEC_LC_CMD 0 0 (fun kg c => if kg then lcCmd m 1 c else c.kgRefuse m .SEC_LC_CMD 0 0)
/-- PROGRAM. -/
def execFuseProgram (m row : Nat) (s : State) : Host.Outcome State Fault Refusal :=
  s.regWrite m .SEC_FUSE_CMD 0 0 (fun kg c => if kg then fuseCmd m 1 row c else c.kgRefuse m .SEC_FUSE_CMD 0 0)
/-- FUSE_BURN_COMPLETE. -/
def execFuseBurnComplete (stuck : List (Nat × Nat)) (s : State) : Host.Outcome State Fault Refusal := .next (fuseBurnComplete stuck s)
/-- SHA384. -/
def execCeSha384 (m : Nat) (s : State) : Host.Outcome State Fault Refusal := s.ceWrite m 1 0 0
/-- VERIFY. -/
def execCeVerify (m curve : Nat) (s : State) : Host.Outcome State Fault Refusal := s.ceWrite m 2 0 curve
/-- SIGN. -/
def execCeSign (m keySel curve : Nat) (s : State) : Host.Outcome State Fault Refusal := s.ceWrite m 3 keySel curve
/-- DERIVE. -/
def execCeDerive (m curve : Nat) (s : State) : Host.Outcome State Fault Refusal := s.ceWrite m 4 0 curve
/-- PUBKEY. -/
def execCePubkey (m keySel curve : Nat) (s : State) : Host.Outcome State Fault Refusal := s.ceWrite m 5 keySel curve
/-- IDK_GEN. -/
def execCeIdkGen (m curve : Nat) (s : State) : Host.Outcome State Fault Refusal := s.ceWrite m 6 0 curve
/-- CE_OP_COMPLETE. -/
def execCeOpComplete (s : State) : Host.Outcome State Fault Refusal := .next (ceOpComplete s)
/-- WRAP. -/
def execKeWrap (m : Nat) (s : State) : Host.Outcome State Fault Refusal := s.regWrite m .SEC_KE_CMD 0 0 (fun _ => keCmd m 1)
/-- UNWRAP. -/
def execKeUnwrap (m : Nat) (s : State) : Host.Outcome State Fault Refusal := s.regWrite m .SEC_KE_CMD 0 0 (fun _ => keCmd m 2)
/-- ERASE. -/
def execKeErase (m : Nat) (s : State) : Host.Outcome State Fault Refusal := s.regWrite m .SEC_KE_CMD 0 0 (fun _ => keCmd m 3)
/-- KE_CMD_COMPLETE. -/
def execKeCmdComplete (s : State) : Host.Outcome State Fault Refusal := .next (s.onChip keCmdComplete)
/-- ENTROPY_WINDOW. -/
def execEntropyWindow (samples : List Bool) (s : State) : Host.Outcome State Fault Refusal := .next (s.onChip (entropyWindow samples))
/-- DRBG_RESEED. -/
def execDrbgReseed (s : State) : Host.Outcome State Fault Refusal := .next (s.onChip drbgReseed)
/-- INIT. -/
def execRngInit (m : Nat) (s : State) : Host.Outcome State Fault Refusal := s.regWrite m .SEC_RNG_CMD 0 0 (fun _ => rngCmd m 1)
/-- GENERATE. -/
def execRngGenerate (m : Nat) (s : State) : Host.Outcome State Fault Refusal := s.regWrite m .SEC_RNG_CMD 0 0 (fun _ => rngCmd m 2)

end Sys2Proof.Machine
end

