-- ==== Sys2Proof/Machine/Views.lean ====
section
/-! DEFINITION. What a register reads as: the stored fields, and the fields that show other state of the device (the status,
level, bitmap and counter words of every chapter). -/

namespace Sys2Proof.Machine

/-- A 32-bit map of a predicate on `base`, `base` + 1, and so on. -/
def bitmap (n base : Nat) (p : Nat → Bool) : Nat := (List.range n).foldl (fun a j => a + b2n (p (base + j)) * 2 ^ j) 0

/-- Word `w` of a 128-bit number, word 0 the most significant (R308, R309, R382). -/
def word128 (v w : Nat) : Nat := v / 2 ^ (32 * (3 - w)) % 2 ^ 32

/-- Seconds since the epoch of a device time in 2^-48 ns, its nanoseconds and its 16-bit fraction (R81). -/
def secOf (t : Nat) : Nat := t / 2 ^ 48 / 10 ^ 9
def nsOf (t : Nat) : Nat := t / 2 ^ 48 % 10 ^ 9
def fracOf (t : Nat) : Nat := t / 2 ^ 32 % 2 ^ 16

/-- Half `hi` of a 64-bit value. -/
def half (v hi : Nat) : Nat := if hi = 0 then v % 2 ^ 32 else v / 2 ^ 32 % 2 ^ 32

/-- Word `j` of the timestamp queue entry that the reader sees (R98); 0 while there is none (R99). -/
def Chip.tsqWord (c : Chip) (n j : Nat) (via : Option Nat) : Nat :=
  match tsqHead c n via with
  | none => 0
  | some e =>
    match j with
    | 0 => 2 ^ 31 + b2n e.lostBefore * 2 ^ 30 + e.epoch % 4 * 2 ^ 28 + e.source % 4 * 2 ^ 26 + e.hall % 32 * 2 ^ 21 + e.id % 2 ^ 16
    | 1 => secOf e.devT / 2 ^ 32 % 2 ^ 16 * 2 ^ 16 + fracOf e.devT
    | 2 => secOf e.devT % 2 ^ 32
    | _ => nsOf e.devT

/-- The entries that the reader sees. -/
def Chip.tsqLevel (c : Chip) (n : Nat) (via : Option Nat) : Nat :=
  ((c.tsq.get [] n).filter (fun e => match via with
    | none => true
    | some h => decide (e.hall = h))).length

/-- Word `j` of the first capture of input `x` (R112). -/
def Chip.capWord (c : Chip) (x j : Nat) : Nat :=
  match (c.caps.get [] x).head? with
  | none => 0
  | some e =>
    match j with
    | 0 => 2 ^ 31 + b2n e.rising * 2 ^ 30 + b2n e.angleValid * 2 ^ 29 + e.epoch % 4 * 2 ^ 27 + secOf e.devT / 2 ^ 32 % 2 ^ 16
    | 1 => secOf e.devT % 2 ^ 32
    | 2 => fracOf e.devT * 2 ^ 16
    | 3 => e.acc / 2 ^ 32 % 2 ^ 32
    | 4 => e.acc / 2 ^ 64 % 2 ^ 32
    | _ => nsOf e.devT

/-- Word `w` of history entry `k` (R425). -/
def Chip.histWord (c : Chip) (k w : Nat) : Nat :=
  match c.flt.hist.find? (fun h => decide (h.idx = k)) with
  | none => 0
  | some h =>
    match w with
    | 0 => 2 ^ 31 + b2n h.injected * 2 ^ 30 + h.fault % 64 * 2 ^ 24 + h.unit % 256 * 2 ^ 16 + h.detail % 2 ^ 16
    | 1 => secOf h.devT % 2 ^ 32
    | 2 => nsOf h.devT
    | _ => h.boot % 256 * 2 ^ 24 + secOf h.devT / 2 ^ 32 % 2 ^ 16

/-- Word `j` of pipeline `p`'s first sampled record (R449). -/
def Chip.erecWord (c : Chip) (p j : Nat) : Nat :=
  match (c.pipe p).recs.head? with
  | none => 0
  | some e =>
    match j with
    | 0 => 2 ^ 31 + e.evc % 8 * 2 ^ 28 + e.skid % 16 * 2 ^ 24 + e.port % 128 * 2 ^ 16
    | 1 => e.trig % 2 ^ 32
    | 2 => e.exc % 256 * 2 ^ 24 + e.profile % 16 * 2 ^ 20 + e.dlen % 2 ^ 16
    | 3 => e.cls % 8 * 2 ^ 16 + e.stream % 2 ^ 16
    | _ => e.ns

/-- The first learn record of hall `h` (R211). -/
def Chip.lrnHead (c : Chip) (h : Nat) : Option LrnRec := c.lrn.find? (fun r => decide (r.hall = h))

/-- Word `j` of it, ports in the hall's numbering. -/
def Chip.lrnWord (c : Chip) (h j : Nat) : Nat :=
  match c.lrnHead h with
  | none => 0
  | some r =>
    match j with
    | 0 => 2 ^ 31 + r.reason % 8 * 2 ^ 28 + r.hall % 32 * 2 ^ 23 + c.toLocal h r.port % 128 * 2 ^ 16 + r.fid % 4096
    | 1 => r.mac / 2 ^ 16 % 2 ^ 32
    | 2 => r.mac % 2 ^ 16 * 2 ^ 16 + c.toLocal h r.oldPort % 128
    | _ => r.ns

/-- The largest of a list. -/
def maxOf (l : List Nat) : Nat := l.foldl max 0

/-- The quota words of a hall (R340). -/
def quotaReg (w : Nat) : R :=
  [R.GLB_QUOTA_W0, .GLB_QUOTA_W1, .GLB_QUOTA_W2, .GLB_QUOTA_W3, .GLB_QUOTA_W4, .GLB_QUOTA_W5, .GLB_QUOTA_W6, .GLB_QUOTA_W7,
   .GLB_QUOTA_W8, .GLB_QUOTA_W9].getD w .GLB_QUOTA_W10

/-- Word `w` of the use of each quota of hall `h`, laid out as the quota words (R337): of a quota that holds per bank or per
shared port, the largest use (DEDUCED, log 52). -/
def Chip.useWord (c : Chip) (h w : Nat) : Nat :=
  match w with
  | 0 => c.get Fd.ATR_HALL_USE_USE h 0
  | 1 => c.tblUse tFDB h
  | 2 => c.tblUse tMCAST h
  | 3 => maxOf ((List.range 4).map (fun p => c.rowsOwned p h))
  | 4 => c.tblUse tSTREAM h
  | 5 => c.tblUse tPOLICER h
  | 6 => c.tblUse tDUP h
  | 7 => c.tblUse tRECOVERY h
  | 8 => maxOf (((List.range 96).filter c.shared).map (fun n => c.tsqLevel n (some h))) * 2 ^ 16 +
      (c.lrn.filter (fun r => decide (r.hall = h))).length
  | 9 => ((List.range 16).filter (fun r => c.ringOn h r)).length * 2 ^ 24 +
      ((List.range 16).filter (fun r => c.ringOn h (16 + r))).length * 2 ^ 16
  | _ => 0

/-- A slot of engine `e` whose source is at standby bias: its lanes are all DOWN, INTLK or FENCED, or nothing runs (R126, R131). -/
def Chip.slotDark (c : Chip) (e slot : Nat) : Bool :=
  c.imageOff || !c.running || (slotPorts e slot).all (fun n => decide (c.link n = lDOWN ∨ c.link n = lINTLK ∨ c.link n = lFENCED))

/-- OPT_e_SRC_s_STATUS (R131). BIAS_PCT is 0 from reset; of a source that lights a slot it is free until an event reports it
(log 9). -/
def Chip.srcStatus (c : Chip) (e s : Nat) : Nat :=
  let st := c.srcState e s
  let dark : Bool := match c.slotLit e s with
    | none => false
    | some slot => c.slotDark e slot
  let lit := (c.slotLit e s).isSome && !dark
  let bias := c.get Fd.OPT_SRC_STATUS_BIAS_PCT e s
  (if bias = 0 ∧ lit then Config.freeBias e s c.freeCtr % 256 else bias) * 2 ^ 8 +
    (if dark ∧ (st = srcACTIVE ∨ st = srcDEGRADED) then srcOFF else st)

/-- The fields that show state held elsewhere. -/
def Chip.viewField (c : Chip) (via : Option Nat) (f : F) (i j : Nat) : Nat :=
  match f.r with
  | .GLB_ID => c.sku
  | .GLB_CAP => if f.lo = 30 then c.lifecycle else if f.lo = 16 then c.hallLimit else 1 - c.sku
  | .GLB_UID => word128 c.uid i
  | .GLB_SB_STATUS => 0x40 + c.pins.sbAddr % 8
  | .GLB_IMG_ID => (c.img.inForce.map (fun im => im.id)).getD 0
  | .GLB_IMG_REV => (c.img.inForce.map (fun im => im.rev)).getD 0
  | .GLB_QSC_PORT => bitmap 32 (32 * i) (fun n => c.stopped 0 n)
  | .GLB_QSC_GATE => bitmap 32 (32 * i) (fun n => c.stopped 2 n)
  | .GLB_QSC_HALL => bitmap 32 0 (fun h => c.stopped 5 h)
  | .GLB_QSC_MISC =>
    bitmap 4 0 (fun p => c.stopped 1 p) + b2n (c.stopped 3 0) * 16 + b2n (c.stopped 4 0) * 32 + b2n (c.stopped 6 0) * 64
  | .GLB_PWR_CTRL => c.tim.step
  | .FLT_COND => c.fltCond
  | .FLT_FENCED_PORT => bitmap 32 (32 * i) (fun n => c.isFenced 0 n)
  | .FLT_FENCED_UNIT =>
    bitmap 4 0 (fun p => c.isFenced 1 p) + bitmap 4 0 (fun b => c.isFenced 2 b) * 2 ^ 8 + bitmap 4 0 (fun e => c.isFenced 3 e) * 2 ^ 16
  | .FLT_FENCED_STAIR => bitmap 32 0 (fun k => c.isFenced 4 k)
  | .FLT_HIST_STATUS => c.flt.hist.length
  | .FLT_HIST => c.histWord i j
  | .TIM_TIME_NS => c.nsec
  | .TIM_TIME_SEC_LO => c.secs % 2 ^ 32
  | .TIM_TIME_SEC_HI => if f.lo = 16 then c.secs / 2 ^ 32 else fracOf c.tim.devT
  | .TIM_RATE_LO => unsigned 40 c.tim.rate % 2 ^ 32
  | .TIM_RATE_HI => unsigned 40 c.tim.rate / 2 ^ 32
  | .TIM_CYC_ANGLE => c.angle
  | .TIM_CYC_COUNT => c.cycCount
  | .TIM_CYC_MEAS_FREQ => c.cyc.freq
  | .TIM_CYC_LT_NS => c.nsec
  | .TIM_CAP_STATUS => (c.caps.get [] i).length
  | .TIM_CAP_W => c.capWord i j
  | .TIM_TSQ_STATUS => c.tsqLevel i via
  | .TIM_TSQ_W => c.tsqWord i j via
  | .PRT_VEST_STATUS => cdiv (c.vestLevel i) 64
  | .PRT_PMAC_STATUS => if f.lo = 3 then b2n (c.pmacActive i) else c.verifyState i
  | .PRT_LEARN_STATUS => if f.lo = 31 then b2n (decide (c.learnLimit i ≤ c.learnCount i)) else c.learnCount i
  | .OPT_LANE_STATUS =>
    if f.lo = 0 then b2n (c.rxSignal (12 * i + j))
    else if c.rxSignal (12 * i + j) then Config.freeRxPower i j c.freeCtr else 0xF060
  | .OPT_INTLK => b2n c.intlk
  | .PIP_EVC_COUNT_LO => (c.pipe i).evc.get 0 j % 2 ^ 32
  | .PIP_EVC_COUNT_HI => (c.pipe i).evc.get 0 j / 2 ^ 32
  | .PIP_SLOT_LO => (c.pipe i).slots.get 0 j % 2 ^ 32
  | .PIP_SLOT_HI => (c.pipe i).slots.get 0 j / 2 ^ 32
  | .PIP_EREC_STATUS => (c.pipe i).recs.length
  | .PIP_EREC_W => c.erecWord i j
  | .TBL_FDB_STATUS => if f.lo = 31 then b2n (c.jobs.any (fun e => decide (e.2.op = opAGE))) else (c.entries tFDB).length
  | .TBL_CMD => i
  | .TBL_LRN_REC => c.lrnWord i j
  | .ATR_STATUS => c.banksRetired
  | .ATR_RSQ_STATUS => if f.lo = 16 then c.atr.rsq.length else c.rsqHeld
  | .ATR_EVC_COUNT_LO => c.aevc.get 0 i % 2 ^ 32
  | .ATR_EVC_COUNT_HI => c.aevc.get 0 i / 2 ^ 32
  | .SCH_Q_DEPTH => c.qCells i j
  | .SCH_Q_FRAMES => c.qCopies i j
  | .SCH_BAY_CREDIT => half (unsigned 64 (c.credit i 2 (j / 2))) (j % 2)
  | .SCH_SVC_CREDIT => half (unsigned 64 (c.credit i 1 (j / 2))) (j % 2)
  | .SCH_PORT_CREDIT => half (unsigned 64 (c.credit i 0 0)) (j % 2)
  | .GAL_KEEPER_ID => word128 c.gal.keeper i
  | .GAL_STANDBY_ID => word128 c.gal.standbyId i
  | .GAL_LINK_NBR_ID => word128 (c.nbr i) j
  | .SEC_FUSE_ROW => if 51 ≤ i ∧ i ≤ 58 then 0 else c.shownRow i
  | .SEC_CAL_ROW => c.shownRow (128 + i)
  | .SEC_FI_GATE => b2n c.fiOpen
  | .CNT_DEV => half (c.cnt.get 0 8 i) j
  | .CNT_WIN =>
    half (c.slotCnt i (c.get Fd.CNT_WIN_SEL_POOL i 0) (c.get Fd.CNT_WIN_SEL_BASE i 0 + j / 2)) (j % 2)
  | .HAL_ID => if f.lo = 0 then i else c.get Fd.GLB_QUOTA_W10_CLASS i 0
  | .HAL_GEN => b2n (c.genCurrent i)
  | .HAL_QUOTA => c.regWord (quotaReg j) i 0
  | .HAL_USE => c.useWord i j
  | .HAL_RING_CTRL => c.ringEngine i j
  | .HAL_DMA_STATUS => Config.freeDmaStatus i c.freeCtr % 2 ^ 32
  | _ => c.get f i j

/-- A pair that keeps the read rules of its own chapter, or that has none, is left out of R369 (R81, R82, R101, R142). The other
half of an 8-byte-aligned 64-bit pair, and whether this is the high half. -/
def R.pairHalf (r : R) (i j : Nat) : Option (Bool × R × Nat × Nat) :=
  let twin := if j % 2 = 0 then j + 1 else j - 1
  match r with
  | .CNT_DEV => some (decide (j % 2 = 1), r, i, twin)
  | .CNT_WIN => some (decide (j % 2 = 1), r, i, twin)
  | .SCH_BAY_CREDIT => some (decide (j % 2 = 1), r, i, twin)
  | .SCH_SVC_CREDIT => some (decide (j % 2 = 1), r, i, twin)
  | .SCH_PORT_CREDIT => some (decide (j % 2 = 1), r, i, twin)
  | .PRT_MACSEC_TX_SCI => some (decide (j % 2 = 1), r, i, twin)
  | .HAL_RING_BASE => some (decide (j % 2 = 1), r, i, twin)
  | .HAL_RING_CPL => some (decide (j % 2 = 1), r, i, twin)
  | .ATR_BANK_MAP => some (decide (i % 2 = 1), r, 1 - i, j)
  | .PIP_EVC_COUNT_LO => some (false, .PIP_EVC_COUNT_HI, i, j)
  | .PIP_EVC_COUNT_HI => some (true, .PIP_EVC_COUNT_LO, i, j)
  | .PIP_SLOT_LO => some (false, .PIP_SLOT_HI, i, j)
  | .PIP_SLOT_HI => some (true, .PIP_SLOT_LO, i, j)
  | .ATR_EVC_COUNT_LO => some (false, .ATR_EVC_COUNT_HI, i, j)
  | .ATR_EVC_COUNT_HI => some (true, .ATR_EVC_COUNT_LO, i, j)
  | _ => none

/-- The registers of a SecY, which a KZ9616-SN does not have (R4). -/
def R.isMacsec (r : R) : Bool := decide (0x401000 ≤ r.layout.base ∧ r.layout.base < 0x402000)

/-- A field as master `m` reads it: write-only fields read 0, privileged ones 0 to an unprivileged master (R378); the IN words
of a mailbox are privileged for the manager's writes only (R345). -/
def Chip.fieldRead (c : Chip) (m : Nat) (via : Option Nat) (w : Row) (i j : Nat) : Nat :=
  if w.acc = .wo ∨ (w.pv && !c.priv m && decide (w.f.r ≠ .HAL_MBX_IN)) then 0
  else if w.view then c.viewField via w.f i j % 2 ^ w.f.width else c.get w.f i j

/-- The live value of a single register. -/
def Chip.regLive (c : Chip) (m : Nat) (via : Option Nat) (r : R) (i j : Nat) : Nat :=
  if r = .GLB_UNLOCK then b2n c.bus.kgOpen
  else if r = .OPT_SRC_STATUS then c.srcStatus i j
  else if (r = .FLT_TEMP ∨ r = .FLT_VMON) ∧ c.regWord r i j = 0 then Config.freeWord c.freeCtr % 2 ^ 16
  else if (r.isMacsec && decide (c.sku ≠ 0)) || (decide (r = .FLT_FI_CMD) && !c.fiOpen) then 0
  else r.rows.foldl (fun a w => a + c.fieldRead m via w i j * 2 ^ w.f.lo) 0

/-- The registers whose read value is free: each read draws anew. -/
def R.freeRead (r : R) : Bool :=
  decide (r = .OPT_SRC_STATUS ∨ r = .OPT_LANE_STATUS ∨ r = .HAL_DMA_STATUS ∨ r = .FLT_TEMP ∨ r = .FLT_VMON)

/-- The registers that a full read answers from the reading master's latch (R81, R101). -/
def R.timeLatched (r : R) : Bool :=
  decide (r = .TIM_TIME_SEC_LO ∨ r = .TIM_TIME_SEC_HI ∨ r = .TIM_CYC_COUNT ∨ r = .TIM_CYC_LT_NS)

end Sys2Proof.Machine
end

