-- ==== Sys2Proof/Machine/Registers.lean ====
section
/-! DEFINITION. Register accesses (R9 to R12, R63, R362 to R385): what a write does to each register, what a full and a narrow
read give and change, and the plain register commands. -/

namespace Sys2Proof.Machine

/-! ## Writes with behaviour of their own -/

/-- A write of GLB_UNLOCK (R375). -/
def unlockWrite (m v : Nat) (c : Chip) : Chip :=
  if v = 0x6B5AD2C1 then { c with bus := { c.bus with kgOpen := true } } else c.refuse m .GLB_UNLOCK 0 0

/-- A write of GLB_PRIV_MAP (R377): bits only clear, and not the last. -/
def privMapWrite (m : Nat) (kg : Bool) (v : Nat) (c : Chip) : Chip :=
  if !kg then c.plainWrite m false .GLB_PRIV_MAP 0 0 v
  else
    let pf := v % 2 * c.get Fd.GLB_PRIV_MAP_PF 0 0
    let sb := bits 1 1 v * c.get Fd.GLB_PRIV_MAP_SB 0 0
    let jt := bits 2 2 v * c.get Fd.GLB_PRIV_MAP_JTAG 0 0
    if pf + sb + jt = 0 then c.refuse m .GLB_PRIV_MAP 0 0
    else ((c.set Fd.GLB_PRIV_MAP_PF 0 0 pf).set Fd.GLB_PRIV_MAP_SB 0 0 sb).set Fd.GLB_PRIV_MAP_JTAG 0 0 jt

/-- Hall 16 stands in the way of the DK2408 window (R384). -/
def Chip.dkcBarred (c : Chip) : Bool :=
  decide (c.hallLimit < 17) || decide (c.hallState 16 ≠ 1) || (List.range 128).any (fun l => c.flag Fd.GLB_HPORT_VALID 16 l)

/-- A write of GLB_DKC_CTRL (R383, R384). -/
def dkcWrite (m : Nat) (kg : Bool) (v : Nat) (c : Chip) : Chip :=
  if c.stopped 6 0 && bitOf v 31 && !c.flag Fd.GLB_DKC_CTRL_EN 0 0 && c.dkcBarred then c.refuse m .GLB_DKC_CTRL 0 0
  else c.plainWrite m kg .GLB_DKC_CTRL 0 0 v

/-- A VALID write of GLB_HPORT_h_l that R336 refuses. -/
def Chip.hportBad (c : Chip) (h l n : Nat) : Bool :=
  decide (95 < l ∨ 95 < n) || (!c.shared n && decide (c.owner n ≠ h)) ||
    (List.range 96).any (fun k => decide (k ≠ l) && decide (c.hport h k = some n))

/-- A write of GLB_HPORT_h_l (R336); hall 0's map is RO. -/
def hportWrite (m : Nat) (kg : Bool) (h l v : Nat) (c : Chip) : Chip :=
  if h = 0 then c
  else if c.stopped 6 0 && bitOf v 31 && c.hportBad h l (v % 128) then c.refuse m .GLB_HPORT h l
  else c.plainWrite m kg .GLB_HPORT h l v

/-- A write of GLB_PORT_QOWN_n_k (R335). -/
def qownWrite (m n k v : Nat) (c : Chip) : Chip :=
  if !c.quiesced 0 n then c.refuseRunning m .GLB_PORT_QOWN n k v else c.setWord .GLB_PORT_QOWN n k v

/-- A write of a pair's set-up words (R225). -/
def pairWrite (m : Nat) (kg : Bool) (r : R) (k v : Nat) (c : Chip) : Chip :=
  if c.pairActive k then c.refuse m r k 0 else c.plainWrite m kg r k 0 v

/-- An operand word of a table command slot (R214, R215); a hall's own slot names that hall. -/
def tblOperandWrite (m : Nat) (via : Option Nat) (kg : Bool) (r : R) (h j v : Nat) (c : Chip) : Chip :=
  if c.get Fd.TBL_CMD_STATUS h 0 = sBUSY then c.refuse m r h j
  else
    let c1 := c.plainWrite m kg r h j v
    if r = .TBL_CMD_ARG ∧ (h ≠ 0 ∨ via.isSome) then c1.set Fd.TBL_CMD_ARG_HALL h 0 h else c1

/-- A staging word of a pipeline's TCAM command (R170). -/
def tcamStageWrite (m : Nat) (kg : Bool) (p j v : Nat) (c : Chip) : Chip :=
  if c.get Fd.PIP_TCAM_CMD_STATUS p 0 = sBUSY then c.refuse m .PIP_TCAM_STAGE p j else c.plainWrite m kg .PIP_TCAM_STAGE p j v

/-- The low word of a packet number pair is staged (R82, R142). A non-live pair is not written while its port runs (R63). -/
def pnLowWrite (m : Nat) (r : R) (i j : Nat) (f : F) (live : Bool) (v : Nat) (c : Chip) : Chip :=
  if !live && !c.stopped 0 i then (if v = c.get f i j then c else c.logErr m (addrOf r i j) true kNOTLIVE)
  else { c with bus := { c.bus with staged := c.bus.staged.put 0 (addrOf r i j) v } }

/-- The high word commits the pair. `lowAddr` and `lo` with index `jl` name the low word, `hi` with `j` the high. -/
def pnHighWrite (m : Nat) (r : R) (i j : Nat) (lo hi : F) (jl lowAddr : Nat) (live : Bool) (v : Nat) (c : Chip) : Chip :=
  if !live && !c.stopped 0 i then (if v = c.get hi i j then c else c.logErr m (addrOf r i j) true kNOTLIVE)
  else (c.set lo i jl (c.bus.staged.get 0 lowAddr)).set hi i j v

/-- A write of a register of a SecY (R4, R142). -/
def macsecWrite (m : Nat) (kg : Bool) (r : R) (n j v : Nat) (c : Chip) : Chip :=
  if c.sku ≠ 0 then c.refuse m r n j
  else
    let pn (f : F) (live : Bool) : Chip :=
      if j % 2 = 0 then pnLowWrite m r n j f live v c
      else pnHighWrite m r n j f f (j - 1) (addrOf r n (j - 1)) live v c
    match r with
    | .PRT_MACSEC_CTRL => macsecCtrlWrite m kg n v c
    | .PRT_MACSEC_TX_PN_THRESH => pn Fd.PRT_MACSEC_TX_PN_THRESH_THRESH true
    | .PRT_MACSEC_TX_SA_NEXT_PN => pn Fd.PRT_MACSEC_TX_SA_NEXT_PN_PN false
    | .PRT_MACSEC_RX_SA_LOWEST_PN_LO => pnLowWrite m r n j Fd.PRT_MACSEC_RX_SA_LOWEST_PN_LO_PN false v c
    | .PRT_MACSEC_RX_SA_LOWEST_PN_HI =>
      pnHighWrite m r n j Fd.PRT_MACSEC_RX_SA_LOWEST_PN_LO_PN Fd.PRT_MACSEC_RX_SA_LOWEST_PN_HI_PN j
        (addrOf .PRT_MACSEC_RX_SA_LOWEST_PN_LO n j) false v c
    | _ => c.plainWrite m kg r n j v

/-- A write of a cleartext key word (R410): no read returns it. -/
def keKeyWrite (m w v : Nat) (c : Chip) : Chip :=
  if c.priv m then c.set Fd.SEC_KE_KEY_KEY w 0 v else c.logErr m (addrOf .SEC_KE_KEY w 0) true kPRIV

/-- A guarded command: with the lock armed, a plain write that leaves its KG fields (R11). -/
def guardedWrite (m : Nat) (kg : Bool) (r : R) (i v : Nat) (go : Chip → Chip) (c : Chip) : Chip :=
  if kg then go c else c.plainWrite m false r i 0 v

/-- The effect of a write of `v` to single register (r, i, j) that reaches it; `via` is the hall window that carries it. -/
def regEffect (m : Nat) (via : Option Nat) (r : R) (i j v : Nat) (kg : Bool) (c : Chip) : Chip :=
  if r.isMacsec then macsecWrite m kg r i j v c
  else if via.isSome && decide (r = .TIM_TIME_NS ∨ r = .TIM_TIME_SEC_LO ∨ r = .TIM_TIME_SEC_HI ∨ r = .TIM_CYC_ANGLE ∨
      r = .TIM_CYC_COUNT) then c.refuse m r i j
  else match r with
  | .GLB_UNLOCK => unlockWrite m v c
  | .GLB_DKC_CTRL => dkcWrite m kg v c
  | .GLB_PRIV_MAP => privMapWrite m kg v c
  | .GLB_QSC_CMD => qscCmd m (bits 17 16 v) (bits 2 0 v) (bits 14 8 v) c
  | .GLB_RESET => guardedWrite m kg r i v (resetCmd m (bits 2 0 v) (bits 14 8 v)) c
  | .GLB_PWR_CTRL => pwrCtrlWrite m kg v c
  | .GLB_HALL_CMD => hallCmd m (bits 2 0 v) (bits 20 16 v) (bitOf v 9) (bitOf v 8) c
  | .GLB_PORT_PIPE => portPipeWrite m i (bits 1 0 v) c
  | .GLB_PORT_OWN => portOwnWrite m i v c
  | .GLB_PORT_QOWN => qownWrite m i j v c
  | .GLB_HPORT => hportWrite m kg i j v c
  | .FLT_CLEAR => fltClear m v c
  | .FLT_REACT => reactWrite m kg v c
  | .FLT_THERM_CTRL => thermCtrlWrite m kg v c
  | .FLT_HIST_CLEAR => fltHistClear m kg (v % 2) c
  | .FLT_FENCE_CMD => guardedWrite m kg r i v (fenceCmd m (bits 17 16 v) (bits 26 24 v) (bits 6 0 v)) c
  | .FLT_FI_CMD =>
    if !c.fiOpen then c
    else guardedWrite m kg r i v (fiCmd m true (bits 26 24 v) (bits 22 20 v) (bits 13 8 v) (bits 7 0 v)) c
  | .TIM_RATE_LO => rateLoWrite v c
  | .TIM_RATE_HI => rateHiWrite m v c
  | .TIM_CMD => timCmd m (bits 3 0 v) c
  | .TIM_STEP_SEC_LO => stepOperandWrite m r v c
  | .TIM_STEP_SEC_HI => stepOperandWrite m r v c
  | .TIM_STEP_NS => stepOperandWrite m r v c
  | .TIM_OFFSET => offsetWriteC m v c
  | .TIM_CYC_CTRL => cycCtrlWrite m kg v c
  | .TIM_PPS_CTRL => ppsCtrlWrite m kg v c
  | .TIM_CYC_FREQ => cycFreqWrite v c
  | .TIM_CYC_NOM_FREQ => nomFreqWrite m v c
  | .TIM_EVT_CTRL => evtWrite m r i v c
  | .TIM_EVT_T_LO => evtWrite m r i v c
  | .TIM_EVT_T_MID => evtWrite m r i v c
  | .TIM_EVT_T_HI => evtWrite m r i v c
  | .TIM_EVT_PERIOD => evtWrite m r i v c
  | .TIM_EVT_WIDTH => evtWrite m r i v c
  | .PRT_LINK_CMD => linkCmd m (bits 1 0 v) i c
  | .PRT_PMAC_CTRL => pmacCtrlWrite m i v c
  | .PRT_ERR_BUDGET => errBudgetWrite m i v c
  | .OPT_SPARE_CMD => guardedWrite m kg r i v (spareCmd m (bits 1 0 v) i (bits 5 4 v)) c
  | .PIP_TCAM_STAGE => tcamStageWrite m kg i j v c
  | .PIP_TCAM_CMD => tcamCmd m via (via.getD 0) i (bits 17 16 v) (bits 27 25 v) (bits 24 20 v) (bits 12 0 v) c
  | .PIP_EVC_CTRL => evcCtrlWrite i v c
  | .TBL_CMD => tblCmd m via i (bits 11 8 v) (bits 18 16 v) c
  | .TBL_CMD_IDX => tblOperandWrite m via kg r i j v c
  | .TBL_CMD_ARG => tblOperandWrite m via kg r i j v c
  | .TBL_KEY => tblOperandWrite m via kg r i j v c
  | .TBL_DATA => tblOperandWrite m via kg r i j v c
  | .TBL_SGATE_CTRL => sgateWrite m r i v c
  | .TBL_SGATE_CYCLE => sgateWrite m r i v c
  | .TBL_SGATE_BASE_NS => sgateWrite m r i v c
  | .TBL_SGATE_BASE_SEC_LO => sgateWrite m r i v c
  | .TBL_SGATE_BASE_SEC_HI => sgateWrite m r i v c
  | .TBL_SGATE_REOPEN => if v % 2 = 1 then sgateReopen m i c else c.plainWrite m kg r i j v
  | .TBL_SGLIST_W0 => sglistWrite m r i v c
  | .TBL_SGLIST_W1 => sglistWrite m r i v c
  | .ATR_BANK_CMD => guardedWrite m kg r i v (bankCmd m (bits 17 16 v) (bits 5 0 v)) c
  | .ATR_MIR_SEED => mirSeedWrite m kg v c
  | .ATR_EVC_CTRL => evcCtrlWrite 4 v c
  | .SCH_BAY_CFG => shaperEnableWrite m kg i 0 j v c
  | .SCH_SVC_CFG => shaperEnableWrite m kg i 1 j v c
  | .SCH_PORT_CFG => shaperEnableWrite m kg i 2 j v c
  | .SCH_FLUSH_CMD => flushCmd m via i (bits 17 16 v) (bits 14 8 v) (bits 7 0 v) c
  | .SCH_GCL_CTRL => gclCtrlWrite m r i v c
  | .SCH_GCL_CYCLE => gclCtrlWrite m r i v c
  | .SCH_GCL_BASE_NS => gclCtrlWrite m r i v c
  | .SCH_GCL_BASE_SEC_LO => gclCtrlWrite m r i v c
  | .SCH_GCL_BASE_SEC_HI => gclCtrlWrite m r i v c
  | .SCH_GCL_CMD => gclCmd m (bits 1 0 v) i c
  | .SCH_GCL_W0 => gclEntryWrite m kg r i j v c
  | .SCH_GCL_W1 => gclEntryWrite m kg r i j v c
  | .RED_ROLE_CMD => roleCmd m (bits 17 16 v) (bits 5 0 v) c
  | .RED_PAIR_CFG => pairWrite m kg r i v c
  | .RED_PAIR_MAC_HI => pairWrite m kg r i v c
  | .RED_PAIR_MAC_LO => pairWrite m kg r i v c
  | .RED_PAIR_SUP => pairWrite m kg r i v c
  | .GAL_CTRL => galCtrlWrite m kg v c
  | .GAL_LINK_CFG => linkCfgWrite m kg i v c
  | .GAL_CMD => galCmd m (bits 1 0 v) c
  | .SEC_LC_CMD => guardedWrite m kg r i v (lcCmd m (bits 1 0 v)) c
  | .SEC_FUSE_CMD => guardedWrite m kg r i v (fuseCmd m (bits 1 0 v) (bits 23 16 v)) c
  | .SEC_CE_CMD => ceCmd m (bits 3 0 v) (bits 20 20 v) (bits 16 16 v) c
  | .SEC_KE_CMD => keCmd m (bits 1 0 v) c
  | .SEC_KE_KEY => keKeyWrite m i v c
  | .SEC_RNG_CMD => rngCmd m (bits 1 0 v) c
  | .CNT_SNAP_CMD => snapCmd m i (bits 1 0 v) (bits 18 16 v) (bits 8 8 v) c
  | .HAL_MBX_OUT => mbxWordWrite m kg r i j v c
  | .HAL_MBX_IN => mbxWordWrite m kg r i j v c
  | .HAL_MBX_CTRL => mbxCtrlWrite m kg i v c
  | .HAL_MBX_MGR => mbxMgrWrite m kg i v c
  | .HAL_RING_BASE => ringAddrWrite m kg r i j v c
  | .HAL_RING_CPL => ringAddrWrite m kg r i j v c
  | .HAL_RING_CTRL => ringCtrlWrite m kg i j v c
  | .HAL_RING_TAIL => ringTailWrite m kg i j v c
  | _ => c.plainWrite m kg r i j v

/-! ## An access by address -/

/-- Where an access of master `m` to address `a` of its own map leads: the PF address that the log records, and the target
(R332, R338, R384). A virtual function's addresses are offsets in its window. -/
def Chip.locate (c : Chip) (m a : Nat) : Nat × Target :=
  if 1 ≤ m ∧ m < 32 then
    let pa := 0x2000000 + 0x100000 * m + a % 0x100000
    (pa, if c.hallPresent m then decodeWindow c m (a % 0x100000) else .dead)
  else (a, decodeAddr c a)

/-- A request that R365 rejects: byte enables `be` of a one-word request, or 16 and above for a request of another shape. -/
def rejectKind (be : Nat) : Nat := if be < 16 then kNARROW else kUNALIGNED

/-- A rejected write of a PCIe function: it reports a Completer Abort in its AER status (R366). -/
def Chip.aerReport (c : Chip) (m : Nat) : Chip :=
  if m < 32 then { c with bus := { c.bus with aerAbort := insNew m c.bus.aerAbort } } else c

/-- A rejected read of a PCIe function completes with Completer Abort and returns no data (R366). -/
def Chip.cplReport (c : Chip) (m : Nat) : Chip :=
  if m < 32 then { c with bus := { c.bus with cplAbort := insNew m c.bus.cplAbort } } else c

/-! ## The DK2408 window (R385, R386) -/

/-- A word of the DK2408 window that acts on native state: its block, its offset there and the register. -/
structure DkcWord where
  block : Nat
  off : Nat
  r : R
  i : Nat
  j : Nat

/-- The registers of a block's native state (R385): port blocks, table-command slot 0, hall 0's class map and the service shapers,
the time registers and TIM_PPS_CTRL. -/
def dkcAllowed (block : Nat) (r : R) (j : Nat) : Bool :=
  match block with
  | 1 => r.isPrt
  | 2 => r.slotted
  | 3 => decide (r = .SCH_CLASS_MAP ∧ j < 2) ||
      decide (r = .SCH_SVC_CFG ∨ r = .SCH_SVC_RATE ∨ r = .SCH_SVC_HI ∨ r = .SCH_SVC_CREDIT)
  | _ => decide (r = .TIM_TIME_NS ∨ r = .TIM_TIME_SEC_LO ∨ r = .TIM_TIME_SEC_HI ∨ r = .TIM_PPS_CTRL)

/-- The block of offset `x`, the offset in it, and where the block's native state begins; `none` outside the blocks. PORT_BASE above
72 acts as 72 (R383). -/
def Chip.dkcBlock (c : Chip) (x : Nat) : Option (Nat × Nat × Nat) :=
  let base := min 72 (c.get Fd.GLB_DKC_CTRL_PORT_BASE 0 0)
  if x < 0x1000 then some (0, x, 0)
  else if x < 0x7000 then some (1, (x - 0x1000) % 0x400, 0x400000 + 0x4000 * (base + (x - 0x1000) / 0x400))
  else if 0x10000 ≤ x ∧ x < 0x11000 then some (2, x - 0x10000, 0xC00400)
  else if 0x20000 ≤ x ∧ x < 0x26000 then some (3, (x - 0x20000) % 0x400, 0x1400000 + 0x4000 * (base + (x - 0x20000) / 0x400))
  else if 0x30000 ≤ x ∧ x < 0x31000 then some (4, x - 0x30000, 0x200000)
  else none

/-- The native register of the word at offset `x`. Which one it is stands in the DK2408 manual, so it is free within the block's
native state (log 53). -/
def Chip.dkcWord (c : Chip) (x : Nat) : Option DkcWord :=
  match c.dkcBlock x with
  | none => none
  | some (b, off, base) =>
    match (if b = 0 then none else (Config.dkcReg b off).bind (fun o => decodeNative (base + o % 0x4000))) with
    | none => none
    | some (r, i, j) => if dkcAllowed b r j then some { block := b, off := off, r := r, i := i, j := j } else none

/-- A window word from the native one: each field in its place, a rate field with the code of 1 or 10 Gbit/s, or 0. -/
def Chip.dkcShow (c : Chip) (w : DkcWord) (v : Nat) : Nat :=
  let x := (Config.dkcBits w.block w.off).foldl (fun a f => a ||| bits (f.2.1 + f.2.2 - 1) f.2.1 v % 2 ^ f.2.2 * 2 ^ f.1) 0
  match (if w.block = 1 then Config.dkcRate w.block w.off else none) with
  | none => x % 2 ^ 32
  | some (lo, n) =>
    let code := if c.isUp w.i then (if (c.port w.i).rate = 0 then Config.dkcRateCode 1 else if (c.port w.i).rate = 1 then Config.dkcRateCode 10 else 0)
      else 0
    (x - bits (lo + n - 1) lo x * 2 ^ lo + code % 2 ^ n * 2 ^ lo) % 2 ^ 32

/-- The native word that a write of window word `v` makes of the present one. Table commands go to TABLE 0 and hall 0. -/
def dkcMerge (w : DkcWord) (cur v : Nat) : Nat :=
  let x := (Config.dkcBits w.block w.off).foldl (fun a f =>
    a - bits (f.2.1 + f.2.2 - 1) f.2.1 a * 2 ^ f.2.1 + bits (f.1 + f.2.2 - 1) f.1 v * 2 ^ f.2.1) cur
  let y := match (if w.block = 1 ∧ w.r = .PRT_LINK_CFG then Config.dkcRate w.block w.off else none) with
    | none => x
    | some (lo, n) =>
      let code := bits (lo + n - 1) lo v
      if code = Config.dkcRateCode 1 % 2 ^ n then x - x % 8
      else if code = Config.dkcRateCode 10 % 2 ^ n then x - x % 8 + 1
      else x
  if w.r = .TBL_CMD then y - bits 18 16 y * 2 ^ 16 else if w.r = .TBL_CMD_ARG then y - bits 12 8 y * 2 ^ 8 else y

/-- The bits of `v` that lie in no field with a native equivalent. -/
def dkcSpare (w : DkcWord) (v : Nat) : Bool :=
  let used (b : Nat) : Bool := (Config.dkcBits w.block w.off).any (fun f => decide (f.1 ≤ b ∧ b < f.1 + f.2.2)) ||
    (match Config.dkcRate w.block w.off with
     | some (lo, n) => decide (lo ≤ b ∧ b < lo + n)
     | none => false)
  (List.range 32).any (fun b => bitOf v b && !used b)

/-- The value of the identification word. -/
def dkcIdent (off : Nat) : Nat := if off = 0 then 0x2408C000 else 0

/-- A write of window offset `x`, at address `a`, by a privileged master (R40): the native field is written, what has none is
refused. One access is one record, under the window's address. -/
def Chip.dkcWrite (c : Chip) (m a x v : Nat) : Chip :=
  match c.dkcWord x with
  | none => (c.rearm).logErr m a true (if (c.dkcBlock x).isSome then kREFUSED else kUNDEFINED)
  | some w =>
    let nv := dkcMerge w (c.regLive m none w.r w.i w.j) v
    let c1 := c.logAs a (fun c => c.withWrite m none w.r w.i w.j (fun kg => regEffect m none w.r w.i w.j nv kg))
    if dkcSpare w v && decide (c1.get Fd.GLB_ACCESS_ERR_CNT_COUNT 0 0 = c.get Fd.GLB_ACCESS_ERR_CNT_COUNT 0 0) then c1.logErr m a true kREFUSED
    else c1

/-! ## Write requests -/

/-- A write request of one word (R364 to R367, R373). The DK2408 window serves privileged masters (R40). -/
def busWrite (m a be v : Nat) (c : Chip) : Chip :=
  let p := c.locate m (a / 4 * 4)
  let x := p.1
  if be = 0 then c
  else
    match c.reach m x true with
    | .absent => c
    | .silent => c.rearm
    | k =>
      if be ≠ 15 then ((c.rearm).aerReport m).logErr m x true (rejectKind be)
      else if k = .notReady then (c.rearm).logErr m x true kNOTREADY
      else
        match p.2 with
        | .undefined => (c.rearm).logErr m x true (if (m = mSB ∨ m = mJTAG) ∧ !c.priv m then kPRIV else kUNDEFINED)
        | .dead => (c.rearm).logErr m x true (if (m = mSB ∨ m = mJTAG) ∧ !c.priv m then kPRIV else kREFUSED)
        | .dkc y => if c.priv m then c.dkcWrite m x y v else (c.rearm).logErr m x true kPRIV
        | .reg r i j via => c.withWrite m via r i j (fun kg => regEffect m via r i j v kg)

/-- The same of the machine: in STANDBY, the side-band's write of GLB_PWR_CTRL may end it (R75, R368). -/
def State.busWrite (s : State) (m a be v : Nat) : State :=
  if s.chip.ctl.standby ∧ m = mSB ∧ a / 4 * 4 = 0x500 ∧ be = 15 ∧ s.chip.reach m 0x500 true = .ok then standbyExitWrite v s
  else s.onChip (Sys2Proof.Machine.busWrite m a be v)

/-- A write request of any shape: of two aligned words with every enable set (`be` 16), two full accesses, the lower address first
(R365). -/
def State.busWrites (s : State) (m a be v v2 : Nat) : State :=
  if be = 16 ∧ a % 8 = 0 then (s.busWrite m a 15 v).busWrite m (a + 4) 15 v2 else s.busWrite m a be v

/-! ## Reads -/

/-- Put what a read of master `m` gave: it has completed well. -/
def Chip.readGives (c : Chip) (m v : Nat) : Chip :=
  { c with bus := { c.bus with readData := c.bus.readData.put 0 m v, cplAbort := without m c.bus.cplAbort } }

/-- Copy a value into a latch of master `m`, named by the address of the register that shows it (R81, R101, R369). -/
def Chip.latch (c : Chip) (m addr v : Nat) : Chip := { c with bus := { c.bus with latches := c.bus.latches.put 0 m addr v } }

/-- The bytes that byte enables select. -/
def maskBytes (be v : Nat) : Nat :=
  (List.range 4).foldl (fun a k => if bitOf be k then a + v / 256 ^ k % 256 * 256 ^ k else a) 0

/-- The value of a full read (R81, R101, R369). -/
def Chip.fullValue (c : Chip) (m : Nat) (via : Option Nat) (r : R) (i j : Nat) : Nat :=
  if r.timeLatched then c.bus.latches.get 0 m (addrOf r i j)
  else match r.pairHalf i j with
    | some (true, _) => c.bus.latches.get 0 m (addrOf r i j)
    | _ => c.regLive m via r i j

/-- Every RC field of a single register clears, whoever reads it (R371, R378). -/
def Chip.clearRc (c : Chip) (r : R) (i j : Nat) : Chip :=
  r.rows.foldl (fun (c : Chip) w => if w.acc = .rc && !w.view then c.set w.f i j 0 else c) c

/-- What a full read latches. -/
def Chip.readLatches (c : Chip) (m : Nat) (via : Option Nat) (r : R) (i j : Nat) : Chip :=
  if r = .TIM_TIME_NS then
    (c.latch m (addrOf .TIM_TIME_SEC_LO 0 0) (c.regLive m via .TIM_TIME_SEC_LO 0 0)).latch m (addrOf .TIM_TIME_SEC_HI 0 0)
      (c.regLive m via .TIM_TIME_SEC_HI 0 0)
  else if r = .TIM_CYC_ANGLE then
    (c.latch m (addrOf .TIM_CYC_COUNT 0 0) (c.regLive m via .TIM_CYC_COUNT 0 0)).latch m (addrOf .TIM_CYC_LT_NS 0 0)
      (c.regLive m via .TIM_CYC_LT_NS 0 0)
  else match r.pairHalf i j with
    | some (false, r2, i2, j2) => c.latch m (addrOf r2 i2 j2) (c.regLive m via r2 i2 j2)
    | _ => c

/-- What a full read clears and consumes (R99, R112, R212, R218, R371, R409, R449), whatever the privilege of its master (R378). -/
def Chip.readClears (c : Chip) (via : Option Nat) (r : R) (i j : Nat) : Chip :=
  let c1 := c.clearRc r i j
  let c2 := match r.pairHalf i j with
    | some (false, r2, i2, j2) => c1.clearRc r2 i2 j2
    | _ => c1
  match r with
  | .CNT_DEV => if j = 0 then { c2 with cnt := c2.cnt.put 0 8 i 0 } else c2
  | .TIM_TSQ_W => if j = 3 then tsqPop c2 i via else c2
  | .TIM_CAP_W => if j = 5 then capPop c2 i else c2
  | .TBL_RES_INFO =>
    ((((List.range 16).foldl (fun c w => c.set Fd.TBL_RES_RES i w 0) c2).set Fd.TBL_RES_INFO_RESULT_VALID i 0 0).set
      Fd.TBL_RES_INFO_REPLACED i 0 0).set Fd.TBL_RES_INFO_INDEX_OR_COUNT i 0 0
  | .TBL_LRN_REC =>
    if j = 3 then
      match c2.lrnHead i with
      | none => c2
      | some e => { c2 with lrn := c2.lrn.erase e }
    else c2
  | .SEC_CE_RES_INFO => c2.clearCeResult
  | .SEC_KE_RES_INFO => c2.clearKeResult
  | .SEC_RNG_INFO => c2.clearRngResult
  | .PIP_EREC_W => if j = 4 then c2.setPipe i { c2.pipe i with recs := (c2.pipe i).recs.drop 1 } else c2
  | _ => c2

/-! ## The voted fields (R379, R380) -/
/-- The value that at least two copies hold. -/
def tvMajority (u : TvUpset) : Option Nat :=
  if u.c0 = u.c1 ∨ u.c0 = u.c2 then some u.c0 else if u.c1 = u.c2 then some u.c1 else none

/-- A register voted as a whole: GLB_PORT_OWN_n and GLB_PRIV_MAP (R379). -/
def tvWhole (r : R) : Bool := decide (r = .GLB_PORT_OWN ∨ r = .GLB_PRIV_MAP)

/-- The fields that are voted as one value with the field at bit `lo` (R379): those of a register voted as a whole, in the others
the field alone. -/
def tvRows (r : R) (lo : Nat) : List Row := r.rows.filter (fun w => w.tv && (tvWhole r || decide (w.f.lo = lo)))

/-- The voted value in a copy: of a single field its value, of a register voted as a whole its bits. -/
def tvPart (r : R) (w : Row) (v : Nat) : Nat := if tvWhole r then bits w.f.hi w.f.lo v else v

/-- Copy `k` of the value that is voted with the field at bit `lo`. -/
def Chip.tvCopy (c : Chip) (k : Nat) (r : R) (i j lo : Nat) : Nat :=
  (tvRows r lo).foldl (fun x w =>
    let a := c.copyOf 0 (fdefault c w.f i j) w.f i j
    x + (if k = 0 then a else c.copyOf k a w.f i j) * 2 ^ (if tvWhole r then w.f.lo else 0)) 0

/-- The three copies that State holds. -/
def Chip.tvHeld (c : Chip) (r : R) (i j lo : Nat) : TvUpset :=
  { addr := addrOf r i j, lo := lo, c0 := c.tvCopy 0 r i j lo, c1 := c.tvCopy 1 r i j lo, c2 := c.tvCopy 2 r i j lo }

/-- An upset strikes: copies come to differ. -/
def Chip.tvStrike (c : Chip) (u : TvUpset) : Chip :=
  match decodeNative u.addr with
  | none => c
  | some (r, i, j) =>
    if u.c0 = u.c1 ∧ u.c1 = u.c2 then c
    else (tvRows r u.lo).foldl (fun c w => c.setCopies w.f i j (tvPart r w u.c0) (tvPart r w u.c1) (tvPart r w u.c2)) c

/-- The recovery value and the further action of R379. Of a word of ATR_BANK_MAP, the bits on which the copies differ become 1; the
banks that its first copy marks count as retired already (DEDUCED, log 54). -/
def Chip.tvRecover (c : Chip) (r : R) (i j lo : Nat) (u : TvUpset) : Chip :=
  match r with
  | .GLB_PORT_PIPE => (c.unset Fd.GLB_PORT_PIPE_PIPE i 0).fencePort i
  | .GLB_PORT_OWN => ((c.unset Fd.GLB_PORT_OWN_SHARED i 0).unset Fd.GLB_PORT_OWN_OWNER i 0).fencePort i
  | .OPT_SPARE_MAP =>
    let c1 := c.rebuildSpares
    r.rows.foldl (fun (c : Chip) w => if w.tv then c.set w.f i j (c1.get w.f i j) else c) c
  | .ATR_BANK_MAP =>
    (bitsOf 32 ((u.c0 ^^^ u.c1) ||| (u.c0 ^^^ u.c2))).foldl (fun (c : Chip) b =>
      if c.bankRetired (32 * i + b) then c else c.retireBank (32 * i + b)) (c.set Fd.ATR_BANK_MAP_MAP i 0 u.c0)
  | .FLT_MASK => c.set Fd.FLT_MASK_MASK 0 0 0
  | _ => (tvRows r lo).foldl (fun c w => c.unset w.f i j) c

/-- The check of a voted value (R380): one copy that differs is rewritten from the other two; where no two agree, the recovery value
goes into all three. -/
def Chip.tvCheck (c : Chip) (r : R) (i j lo : Nat) : Chip :=
  let u := c.tvHeld r i j lo
  if u.c0 = u.c1 ∧ u.c1 = u.c2 then c
  else
    match tvMajority u with
    | some v => ((tvRows r lo).foldl (fun (c : Chip) (w : Row) => c.set w.f i j (tvPart r w v)) c).cntSat Fd.GLB_TV_STATUS_CORR 0 0 1
    | none =>
      (((c.tvRecover r i j lo u).set Fd.GLB_TV_STATUS_UNCORR 0 0 1).set Fd.GLB_TV_ADDR_ADDR 0 0 u.addr).raise fTV 0

/-- The check of a register's voted fields when it is read. -/
def Chip.tvReadCheck (c : Chip) (r : R) (i j : Nat) : Chip :=
  (r.rows.filter (fun w => w.tv)).foldl (fun c w => c.tvCheck r i j w.f.lo) c

/-- The scrub: every value with a copy that differs is checked. -/
def Chip.tvScrubAll (c : Chip) : Chip :=
  (c.fld.filter (fun e => decide (e.1.copy ≠ 0))).foldl (fun c e => c.tvCheck e.1.f.r e.1.i e.1.j e.1.f.lo) c

/-- TV_SCRUB: the upsets since the last scrub have struck, and every voted field is checked. Without the logic's clock the copies
stay as they are struck. -/
def tvScrub (us : List TvUpset) (c : Chip) : Chip :=
  let c1 := us.foldl (fun c u => c.tvStrike u) c
  if c.running then c1.tvScrubAll else c1

/-! ## Register reads -/

/-- The read of a single register through the window of `via`: hidden where R339 gives 0, a copy without side effects on a
shared port. Its voted fields are checked first (R380). -/
def Chip.regRead (ch : Chip) (m : Nat) (via : Option Nat) (r : R) (i j be : Nat) : Chip :=
  let c := ch.tvReadCheck r i j
  let bar : Option Nat := match via with
    | some h => if r.isPrt || r.isSch then apertureBar c h r i j else none
    | none => none
  let copy := bar.isSome && c.shared i && decide (bar = some kPRIV) && ((via.map (fun h => c.hallHas h i)).getD false)
  let c0 : Chip := if r.freeRead then { c with freeCtr := c.freeCtr + 1 } else c
  if bar.isSome && !copy then c.readGives m 0
  else if be ≠ 15 then c0.readGives m (maskBytes be (c.regLive m via r i j))
  else
    let c1 := (c0.readLatches m via r i j).readGives m (c.fullValue m via r i j)
    if copy then c1 else c1.readClears via r i j

/-- A read of window offset `x`, at address `a`, by a privileged master (R385): the native fields, with the side effects of a full
read of their register; 0 where there is none. -/
def Chip.dkcRead (c : Chip) (m a x be : Nat) : Chip :=
  match c.dkcBlock x with
  | none => (c.readGives m 0).logErr m a false kUNDEFINED
  | some (b, off, _) =>
    if b = 0 then c.readGives m (maskBytes be (dkcIdent off))
    else
      match c.dkcWord x with
      | none => c.readGives m 0
      | some w =>
        let c1 := if be = 15 then c.regRead m none w.r w.i w.j 15 else c
        let v := if be = 15 then c1.bus.readData.get 0 m else c.regLive m none w.r w.i w.j
        c1.readGives m (maskBytes be (c.dkcShow w v))

/-- A read request of one word (R365 to R368). -/
def busRead1 (m a be : Nat) (c : Chip) : Chip :=
  let p := c.locate m (a / 4 * 4)
  let x := p.1
  match c.reach m x false with
  | .absent => c
  | .silent => if be = 0 then c else c.readGives m 0
  | k =>
    if be = 0 then c
    else if 16 ≤ be then (c.cplReport m).logErr m x false kUNALIGNED
    else if k = .notReady then (c.readGives m 0).logErr m x false kNOTREADY
    else
      match p.2 with
      | .undefined => (c.readGives m 0).logErr m x false kUNDEFINED
      | .dead => c.readGives m 0
      | .dkc y => if c.priv m then c.dkcRead m x y be else c.readGives m 0
      | .reg r i j via => c.regRead m via r i j be

/-- A read request of any shape: of two aligned words with every enable set (`be` 16), two full accesses, the lower address first;
what the master gets holds the lower word in its low half (R365). -/
def busRead (m a be : Nat) (c : Chip) : Chip :=
  if be = 16 ∧ a % 8 = 0 then
    match c.reach m (c.locate m a).1 false with
    | .absent => c
    | _ =>
      let c1 := busRead1 m a 15 c
      let c2 := busRead1 m (a + 4) 15 c1
      c2.readGives m (c1.bus.readData.get 0 m + 2 ^ 32 * c2.bus.readData.get 0 m)
  else busRead1 m a be c

/-! ## Execution -/

/-- A full read by master `m` of native address `a`; virtual functions do not reach the native map. -/
def State.readFull (s : State) (m a : Nat) : Host.Outcome State Fault Refusal :=
  .next (s.onChip (fun c => if 1 ≤ m ∧ m < 32 then c else busRead m a 15 c))

/-- A full read of a hall's register: at offset `x` of its own window by a virtual function, at address `a` by another master. -/
def State.readHall (s : State) (m a x : Nat) : Host.Outcome State Fault Refusal :=
  .next (s.onChip (busRead m (if 1 ≤ m ∧ m < 32 then x else a) 15))

/-- TIME_LATCH_READ. -/
def execTimeLatchRead (m : Nat) (s : State) : Host.Outcome State Fault Refusal := s.readHall m 0x200010 0x2000
/-- CYC_ANGLE_LATCH_READ. -/
def execCycAngleLatchRead (m : Nat) (s : State) : Host.Outcome State Fault Refusal := s.readHall m 0x200108 0x2010
/-- TSQ_ENTRY_READ: the final word of a timestamp queue, or of a capture FIFO. -/
def execTsqEntryRead (m : Nat) (cap : Bool) (n : Nat) (s : State) : Host.Outcome State Fault Refusal :=
  if cap then s.readFull m (0x20031C + 0x20 * (n % 4)) else s.readHall m (0x204010 + 0x20 * (n % 96)) (0x3010 + 0x20 * (n % 96))
/-- TBL_RES_READ of the slot of hall `h`. -/
def execTblResRead (m h : Nat) (s : State) : Host.Outcome State Fault Refusal :=
  s.readHall m (if h = 0 then 0xC00540 else 0x2004540 + 0x100000 * (h % 32)) 0x4540
/-- LRN_REC_READ of hall `h`. -/
def execLrnRecRead (m h : Nat) (s : State) : Host.Outcome State Fault Refusal :=
  s.readHall m (if h = 0 then 0xC0060C else 0x200460C + 0x100000 * (h % 32)) 0x460C
/-- REGISTER_WRITE: byte enables `be`; 16 stands for two words with every enable set, 17 and 18 for the longer requests that R365
rejects. -/
def execRegisterWrite (m addr be : Nat) (v : BitVec 64) (s : State) : Host.Outcome State Fault Refusal :=
  .next (s.busWrites m addr be (v.toNat % 2 ^ 32) (v.toNat / 2 ^ 32))
/-- UNLOCK. -/
def execUnlock (m : Nat) (v : Word) (s : State) : Host.Outcome State Fault Refusal :=
  s.regWrite m .GLB_UNLOCK 0 0 (fun _ => unlockWrite m v.toNat)
/-- KG_LOCK_TIMEOUT. -/
def execKgLockTimeout (s : State) : Host.Outcome State Fault Refusal := .next (s.onChip Chip.rearm)
/-- ACCESS_ERR_READ. -/
def execAccessErrRead (m : Nat) (s : State) : Host.Outcome State Fault Refusal := s.readFull m 0x30
/-- RC_FIELD_READ. -/
def execRcFieldRead (m addr be : Nat) (s : State) : Host.Outcome State Fault Refusal := .next (s.onChip (busRead m addr be))
/-- PAIR_LOW_READ. -/
def execPairLowRead (m addr be : Nat) (s : State) : Host.Outcome State Fault Refusal := .next (s.onChip (busRead m addr be))
/-- PRIV_MAP_WRITE. -/
def execPrivMapWrite (m : Nat) (v : Word) (s : State) : Host.Outcome State Fault Refusal :=
  s.regWrite m .GLB_PRIV_MAP 0 0 (fun kg => privMapWrite m kg v.toNat)
/-- TV_SCRUB. -/
def execTvScrub (upsets : List TvUpset) (s : State) : Host.Outcome State Fault Refusal :=
  .next (s.onChip (tvScrub upsets))
/-- DKC_ENABLE_WRITE. -/
def execDkcEnableWrite (m : Nat) (v : Word) (s : State) : Host.Outcome State Fault Refusal :=
  s.regWrite m .GLB_DKC_CTRL 0 0 (fun kg => dkcWrite m kg v.toNat)
/-- CE_RES_READ: 0 SEC_CE_RES_INFO, 1 SEC_KE_RES_INFO, 2 SEC_RNG_INFO. -/
def execCeResRead (m which : Nat) (s : State) : Host.Outcome State Fault Refusal :=
  s.readFull m (match which with | 0 => 0x1C01280 | 1 => 0x1C02140 | _ => 0x1C03030)
/-- EVC_RECORD_READ. -/
def execEvcRecordRead (m p : Nat) (s : State) : Host.Outcome State Fault Refusal := s.readFull m (0x800A14 + 0x100000 * (p % 4))

end Sys2Proof.Machine
end

