-- ==== Sys2Proof/Machine/SideBand.lean ====
section
/-! DEFINITION. The side-band I2C target (R387 to R393) and the JTAG register access (R473). -/

namespace Sys2Proof.Machine

/-! ## Side-band -/

/-- The packet error code of SMBus: CRC-8 of polynomial x^8 + x^2 + x + 1. -/
def crc8Bit : Nat → Nat → Nat
  | 0, x => x
  | n + 1, x => crc8Bit n (if 128 ≤ x then (2 * x % 256) ^^^ 7 else 2 * x % 256)

def crc8 (bs : List Nat) : Nat := bs.foldl (fun a b => crc8Bit 8 (a ^^^ (b % 256))) 0

/-- The target's address byte, with the direction bit. -/
def Chip.sbAddrByte (c : Chip) (read : Nat) : Nat := 2 * (0x40 + c.pins.sbAddr % 8) + read

/-- A NACKed transaction is recorded (R366, R388), where a refused access is recorded at all (R368, R461). -/
def Chip.sbNack (c : Chip) (addr : Nat) (write : Bool) (kind : Nat) : Chip :=
  match c.reach mSB addr write with
  | .absent => c
  | .silent => if write then c.rearm else c
  | _ => (if write then c.rearm else c).logErr mSB addr write kind

def Chip.sbAborted (c : Chip) : Chip := c.cntSat Fd.GLB_SB_STATUS_ABORTED 0 0 1

/-- A write that had not ended is discarded by what follows it on the bus (R389, R391). -/
def Chip.sbDrop (c : Chip) : Chip :=
  if c.bus.sbOpen then ({ c with bus := { c.bus with sbOpen := false } }).sbAborted else c

/-- SB_WRITE: the bytes after the address byte, up to a STOP or repeated START, or not yet ended. Of a transaction NACKed before
its address the record holds address 0 (log 55). -/
def sbWrite (x : SbXfer) (s0 : State) : State :=
  let bs := x.bytes.map (fun b => b.toNat)
  let s := s0.onChip Chip.sbDrop
  let c := s.chip
  let addr := leNat (slice bs 2 4)
  if !c.pins.auxGood ∨ bs = [] then s
  else if bs.head? ≠ some 1 then s.onChip (fun c => c.sbNack 0 true kNARROW)
  else if 2 ≤ bs.length ∧ bs[1]? ≠ some 8 then s.onChip (fun c => c.sbNack 0 true kNARROW)
  else if 7 ≤ bs.length ∧ addr % 4 ≠ 0 then s.onChip (fun c => c.sbNack addr true kUNALIGNED)
  else if !x.stopped then s.onChip (fun c => { c with bus := { c.bus with sbOpen := true } })
  else if bs.length < 10 ∨ (bs.length = 10 ∧ c.flag Fd.GLB_SB_CTRL_PEC_REQ 0 0) then s.onChip Chip.sbAborted
  else if 11 ≤ bs.length ∧ bs[10]? ≠ some (crc8 (c.sbAddrByte 0 :: bs.take 10)) then
    s.onChip (fun c => c.cntSat Fd.GLB_SB_STATUS_PEC_ERR 0 0 1)
  else s.busWrite mSB addr 15 (leNat (slice bs 6 4))

/-- SB_READ: `readBytes` of the device's bytes were taken: COUNT, four data bytes, PEC. -/
def sbRead (x : SbXfer) (c0 : Chip) : Chip :=
  let bs := x.bytes.map (fun b => b.toNat)
  let c := c0.sbDrop
  let addr := leNat (slice bs 2 4)
  if !c.pins.auxGood ∨ bs = [] then c
  else if bs.head? ≠ some 2 then c.sbNack 0 false kNARROW
  else if 2 ≤ bs.length ∧ bs[1]? ≠ some 4 then c.sbNack 0 false kNARROW
  else if 6 ≤ bs.length ∧ addr % 4 ≠ 0 then c.sbNack addr false kUNALIGNED
  else if bs.length < 6 then c
  else
    let c1 := busRead mSB addr 15 c
    let v := c1.bus.readData.get 0 mSB
    if (if c.flag Fd.GLB_SB_CTRL_PEC_REQ 0 0 then 6 else 5) ≤ x.readBytes then c1
    else if 2 ≤ x.readBytes then ({ c with freeCtr := c1.freeCtr }).readGives mSB (v % 256 ^ (x.readBytes - 1))
    else c

/-- SB_SCL_TIMEOUT: a write in progress is discarded and counted. -/
def sbSclTimeout (c : Chip) : Chip := c.sbDrop

/-- The level of ALERT_N: low is true. -/
def Chip.alertLow (c : Chip) : Bool := c.bus.alert && c.flag Fd.GLB_SB_CTRL_ALERT_EN 0 0

/-- SB_ALERT_RESPONSE: the device answers with its own address byte and releases ALERT_N until a new condition. -/
def sbAlertResponse (c : Chip) : Chip :=
  if c.alertLow && c.pins.auxGood then ({ c with bus := { c.bus with alert := false } }).readGives mSB (c.sbAddrByte 0) else c

/-! ## JTAG -/

/-- The chip's count of refused accesses has moved by one: the access at `addr` was refused. A read of the count itself, which
clears it, is not. -/
def refusedSince (addr : Nat) (c0 c1 : Chip) : Bool :=
  decide (addr ≠ 0x38) &&
  decide (c1.get Fd.GLB_ACCESS_ERR_CNT_COUNT 0 0 = (c0.get Fd.GLB_ACCESS_ERR_CNT_COUNT 0 0 + 1) % 2 ^ 31)

/-- An access at `addr` that is ignored without a record (R368, R461). -/
def Chip.jtagSilent (c : Chip) (addr : Nat) (write : Bool) : Bool := decide (c.reach mJTAG addr write = .silent)

/-- Set REGDR's captured fields. -/
def Chip.setJtag (c : Chip) (busy err : Bool) (addr data : Nat) : Chip :=
  { c with bus := { c.bus with jtagBusy := busy, jtagErr := err, jtagAddr := addr, jtagData := data } }

/-- REG_ACCESS: Update-DR with GO. -/
def regAccess (go isWrite : Bool) (addr data : Nat) (s : State) : State :=
  let c := s.chip
  if !go || !c.pins.auxGood then s
  else if c.bus.jtagBusy then s.onChip (fun c => { c with bus := { c.bus with jtagErr := true } })
  else if addr % 4 ≠ 0 then
    s.onChip (fun c =>
      let c1 := if isWrite then c.rearm else c
      (if c.jtagSilent addr isWrite then c1 else c1.logErr mJTAG addr isWrite kUNALIGNED).setJtag false true addr 0)
  else if isWrite then
    let s1 := s.busWrite mJTAG addr 15 data
    s1.onChip (fun c1 => c1.setJtag true (refusedSince 0 c c1 || c.jtagSilent addr true) addr 0)
  else
    s.onChip (fun c =>
      let c1 := busRead mJTAG addr 15 c
      c1.setJtag true (refusedSince addr c c1 || c.jtagSilent addr false) addr (c1.bus.readData.get 0 mJTAG))

/-- REG_ACCESS_COMPLETE. -/
def regAccessComplete (c : Chip) : Chip := { c with bus := { c.bus with jtagBusy := false } }

/-! ## Execution -/

/-- SB_WRITE. -/
def execSbWrite (x : SbXfer) (s : State) : Host.Outcome State Fault Refusal := .next (sbWrite x s)
/-- SB_READ. -/
def execSbRead (x : SbXfer) (s : State) : Host.Outcome State Fault Refusal := .next (s.onChip (sbRead x))
/-- SB_SCL_TIMEOUT. -/
def execSbSclTimeout (s : State) : Host.Outcome State Fault Refusal := .next (s.onChip sbSclTimeout)
/-- SB_ALERT_RESPONSE. -/
def execSbAlertResponse (s : State) : Host.Outcome State Fault Refusal := .next (s.onChip sbAlertResponse)
/-- REG_ACCESS. -/
def execRegAccess (go isWrite : Bool) (addr : Nat) (data : Word) (s : State) : Host.Outcome State Fault Refusal :=
  .next (regAccess go isWrite addr data.toNat s)
/-- REG_ACCESS_COMPLETE. -/
def execRegAccessComplete (s : State) : Host.Outcome State Fault Refusal := .next (s.onChip regAccessComplete)

end Sys2Proof.Machine
end

