-- ==== Sys2Proof/Machine/Dispatch.lean ====
section
/-! DEFINITION. One arm per command: its meaning. -/

namespace Sys2Proof.Machine

def exec (i : Instr) (s : State) : Host.Outcome State Fault Refusal :=
  match i with
  | .por bootSrc sbAddr fails => Sys2Proof.Machine.execPor bootSrc sbAddr fails s
  | .auxGoodRise sbAddr => Sys2Proof.Machine.execAuxGoodRise sbAddr s
  | .auxLoss => Sys2Proof.Machine.execAuxLoss s
  | .auxHoldupExpire fails => Sys2Proof.Machine.execAuxHoldupExpire fails s
  | .vin48Rise => Sys2Proof.Machine.execVin48Rise s
  | .vin48Fall => Sys2Proof.Machine.execVin48Fall s
  | .pwrGoodRise bootSrc => Sys2Proof.Machine.execPwrGoodRise bootSrc s
  | .pwrEnFall => Sys2Proof.Machine.execPwrEnFall s
  | .pwrEnRise => Sys2Proof.Machine.execPwrEnRise s
  | .resetNAssert lowNs => Sys2Proof.Machine.execResetNAssert lowNs s
  | .resetNRelease bootSrc sbAddr fails => Sys2Proof.Machine.execResetNRelease bootSrc sbAddr fails s
  | .perstNAssert => Sys2Proof.Machine.execPerstNAssert s
  | .perstNRelease => Sys2Proof.Machine.execPerstNRelease s
  | .hostLinkDown => Sys2Proof.Machine.execHostLinkDown s
  | .boot => Sys2Proof.Machine.execBoot s
  | .imageHeaderCheck readOk => Sys2Proof.Machine.execImageHeaderCheck readOk s
  | .imageBodyCheck readOk eccOk => Sys2Proof.Machine.execImageBodyCheck readOk eccOk s
  | .imageApply => Sys2Proof.Machine.execImageApply s
  | .resetDev m => Sys2Proof.Machine.execResetDev m s
  | .resetStruct m => Sys2Proof.Machine.execResetStruct m s
  | .resetHall m h => Sys2Proof.Machine.execResetHall m h s
  | .resetPipe m p => Sys2Proof.Machine.execResetPipe m p s
  | .resetPort m n => Sys2Proof.Machine.execResetPort m n s
  | .hallResetComplete h => Sys2Proof.Machine.execHallResetComplete h s
  | .qscStop m dom idx => Sys2Proof.Machine.execQscStop m dom idx s
  | .qscRelease m dom idx => Sys2Proof.Machine.execQscRelease m dom idx s
  | .quiesced => Sys2Proof.Machine.execQuiesced s
  | .qscTimeout => Sys2Proof.Machine.execQscTimeout s
  | .parkRequest m p => Sys2Proof.Machine.execParkRequest m p s
  | .parkComplete p => Sys2Proof.Machine.execParkComplete p s
  | .unpark m p => Sys2Proof.Machine.execUnpark m p s
  | .pipeUnparked p => Sys2Proof.Machine.execPipeUnparked p s
  | .standby m => Sys2Proof.Machine.execStandby m s
  | .standbyExitWrite v => Sys2Proof.Machine.execStandbyExitWrite v s
  | .stepEnClear m => Sys2Proof.Machine.execStepEnClear m s
  | .stepUp => Sys2Proof.Machine.execStepUp s
  | .stepDown => Sys2Proof.Machine.execStepDown s
  | .portPipeWrite m n p => Sys2Proof.Machine.execPortPipeWrite m n p s
  | .portRemap n => Sys2Proof.Machine.execPortRemap n s
  | .rxFrameStart n data => Sys2Proof.Machine.execRxFrameStart n data s
  | .headerHandoff p n arrived => Sys2Proof.Machine.execHeaderHandoff p n arrived s
  | .rxFrameEnd n e => Sys2Proof.Machine.execRxFrameEnd n e s
  | .stage8Complete p => Sys2Proof.Machine.execStage8Complete p s
  | .learnInsert p => Sys2Proof.Machine.execLearnInsert p s
  | .txSelect n => Sys2Proof.Machine.execTxSelect n s
  | .txCopyEnd n => Sys2Proof.Machine.execTxCopyEnd n s
  | .preemptFragmentEnd n sent => Sys2Proof.Machine.execPreemptFragmentEnd n sent s
  | .shaperRefill => Sys2Proof.Machine.execShaperRefill s
  | .gateListBoundary n => Sys2Proof.Machine.execGateListBoundary n s
  | .holdAssert n => Sys2Proof.Machine.execHoldAssert n s
  | .streamGateBoundary g => Sys2Proof.Machine.execStreamGateBoundary g s
  | .streamGateReopen m g => Sys2Proof.Machine.execStreamGateReopen m g s
  | .atriumSweepPass => Sys2Proof.Machine.execAtriumSweepPass s
  | .atriumSweepDone => Sys2Proof.Machine.execAtriumSweepDone s
  | .rsqReturn n => Sys2Proof.Machine.execRsqReturn n s
  | .rsqTimeout x => Sys2Proof.Machine.execRsqTimeout x s
  | .rsqContextFree x => Sys2Proof.Machine.execRsqContextFree x s
  | .dupSweepPass => Sys2Proof.Machine.execDupSweepPass s
  | .agerPass => Sys2Proof.Machine.execAgerPass s
  | .counterReaderPass => Sys2Proof.Machine.execCounterReaderPass s
  | .supFrameTx k => Sys2Proof.Machine.execSupFrameTx k s
  | .proxySupTx k idx => Sys2Proof.Machine.execProxySupTx k idx s
  | .timeLatchRead m => Sys2Proof.Machine.execTimeLatchRead m s
  | .cycAngleLatchRead m => Sys2Proof.Machine.execCycAngleLatchRead m s
  | .rateLoStage m v => Sys2Proof.Machine.execRateLoStage m v s
  | .rateCommit m v => Sys2Proof.Machine.execRateCommit m v s
  | .stepAbs m => Sys2Proof.Machine.execStepAbs m s
  | .stepRel m => Sys2Proof.Machine.execStepRel m s
  | .servoClear m => Sys2Proof.Machine.execServoClear m s
  | .offsetWrite m v => Sys2Proof.Machine.execOffsetWrite m v s
  | .ppsInEdge => Sys2Proof.Machine.execPpsInEdge s
  | .clk10mLost => Sys2Proof.Machine.execClk10mLost s
  | .cycRefEdge => Sys2Proof.Machine.execCycRefEdge s
  | .cycRefLoss => Sys2Proof.Machine.execCycRefLoss s
  | .cycSecondRecompute => Sys2Proof.Machine.execCycSecondRecompute s
  | .cycFreqWrite m v => Sys2Proof.Machine.execCycFreqWrite m v s
  | .eventSlotEnable m k v => Sys2Proof.Machine.execEventSlotEnable m k v s
  | .eventSlotFire k => Sys2Proof.Machine.execEventSlotFire k s
  | .toutPulseEnd x => Sys2Proof.Machine.execToutPulseEnd x s
  | .ppsOutRise => Sys2Proof.Machine.execPpsOutRise s
  | .ppsOutFall => Sys2Proof.Machine.execPpsOutFall s
  | .capInEdge x rising stableNs => Sys2Proof.Machine.execCapInEdge x rising stableNs s
  | .tsqEntryRead m cap n => Sys2Proof.Machine.execTsqEntryRead m cap n s
  | .bringUp m n => Sys2Proof.Machine.execBringUp m n s
  | .takeDown m n => Sys2Proof.Machine.execTakeDown m n s
  | .retrain m n => Sys2Proof.Machine.execRetrain m n s
  | .rxSignalDetect n => Sys2Proof.Machine.execRxSignalDetect n s
  | .clockRecovered n => Sys2Proof.Machine.execClockRecovered n s
  | .anComplete n fullDuplex => Sys2Proof.Machine.execAnComplete n fullDuplex s
  | .linkUp n => Sys2Proof.Machine.execLinkUp n s
  | .lockLost n dark => Sys2Proof.Machine.execLockLost n dark s
  | .intlkOpen => Sys2Proof.Machine.execIntlkOpen s
  | .intlkClosed => Sys2Proof.Machine.execIntlkClosed s
  | .sourceDegraded e src bias => Sys2Proof.Machine.execSourceDegraded e src bias s
  | .sourceFailed e src => Sys2Proof.Machine.execSourceFailed e src s
  | .swap m e slot => Sys2Proof.Machine.execSwap m e slot s
  | .swapSpareReady e => Sys2Proof.Machine.execSwapSpareReady e s
  | .swapSwitchDone e => Sys2Proof.Machine.execSwapSwitchDone e s
  | .swapComplete e => Sys2Proof.Machine.execSwapComplete e s
  | .errBudgetWindow n => Sys2Proof.Machine.execErrBudgetWindow n s
  | .errBudgetWrite m n v => Sys2Proof.Machine.execErrBudgetWrite m n v s
  | .pmacVerify n response => Sys2Proof.Machine.execPmacVerify n response s
  | .macsecCipherWrite m n v => Sys2Proof.Machine.execMacsecCipherWrite m n v s
  | .tcamWrite m h p layout owner row => Sys2Proof.Machine.execTcamWrite m h p layout owner row s
  | .tcamInvalidate m h p layout owner row => Sys2Proof.Machine.execTcamInvalidate m h p layout owner row s
  | .tcamRead m h p layout owner row => Sys2Proof.Machine.execTcamRead m h p layout owner row s
  | .tblSearch m h table => Sys2Proof.Machine.execTblSearch m h table s
  | .tblNext m h table => Sys2Proof.Machine.execTblNext m h table s
  | .tblInsert m h table => Sys2Proof.Machine.execTblInsert m h table s
  | .tblDelete m h table => Sys2Proof.Machine.execTblDelete m h table s
  | .tblFlushPort m h table => Sys2Proof.Machine.execTblFlushPort m h table s
  | .tblFlushHall m h table => Sys2Proof.Machine.execTblFlushHall m h table s
  | .tblAge m h table => Sys2Proof.Machine.execTblAge m h table s
  | .tblCmdComplete h => Sys2Proof.Machine.execTblCmdComplete h s
  | .tblResRead m h => Sys2Proof.Machine.execTblResRead m h s
  | .lrnRecRead m h => Sys2Proof.Machine.execLrnRecRead m h s
  | .redSet m k => Sys2Proof.Machine.execRedSet m k s
  | .redClear m k => Sys2Proof.Machine.execRedClear m k s
  | .retire m bank => Sys2Proof.Machine.execRetire m bank s
  | .mirSeedWrite m v => Sys2Proof.Machine.execMirSeedWrite m v s
  | .flushQueue m h n q => Sys2Proof.Machine.execFlushQueue m h n q s
  | .flushBay m h n b => Sys2Proof.Machine.execFlushBay m h n b s
  | .flushPortQueues m h n => Sys2Proof.Machine.execFlushPortQueues m h n s
  | .gclSwitch m n => Sys2Proof.Machine.execGclSwitch m n s
  | .gclCancel m n => Sys2Proof.Machine.execGclCancel m n s
  | .gclEnableWrite m n v => Sys2Proof.Machine.execGclEnableWrite m n v s
  | .shaperRateWrite m n kind idx v => Sys2Proof.Machine.execShaperRateWrite m n kind idx v s
  | .shaperEnableWrite m n kind idx v => Sys2Proof.Machine.execShaperEnableWrite m n kind idx v s
  | .helloTx k => Sys2Proof.Machine.execHelloTx k s
  | .helloRx k hello => Sys2Proof.Machine.execHelloRx k hello s
  | .stairLinkLost k => Sys2Proof.Machine.execStairLinkLost k s
  | .admitMember m k => Sys2Proof.Machine.execAdmitMember m k s
  | .stairLinkValidWrite m k v => Sys2Proof.Machine.execStairLinkValidWrite m k v s
  | .reportTx => Sys2Proof.Machine.execReportTx s
  | .reportRx k rep => Sys2Proof.Machine.execReportRx k rep s
  | .reportExpire dev => Sys2Proof.Machine.execReportExpire dev s
  | .electSettle => Sys2Proof.Machine.execElectSettle s
  | .elect m => Sys2Proof.Machine.execElect m s
  | .handover m => Sys2Proof.Machine.execHandover m s
  | .epochBuild => Sys2Proof.Machine.execEpochBuild s
  | .epochFrameRx k fr => Sys2Proof.Machine.execEpochFrameRx k fr s
  | .epochAckTimeout => Sys2Proof.Machine.execEpochAckTimeout s
  | .epochApply => Sys2Proof.Machine.execEpochApply s
  | .orphanReelect => Sys2Proof.Machine.execOrphanReelect s
  | .sprayEntryFree dst flow => Sys2Proof.Machine.execSprayEntryFree dst flow s
  | .vfFlr h => Sys2Proof.Machine.execVfFlr h s
  | .pfFlr => Sys2Proof.Machine.execPfFlr s
  | .portOwnWrite m n v => Sys2Proof.Machine.execPortOwnWrite m n v s
  | .mbxSend m h v => Sys2Proof.Machine.execMbxSend m h v s
  | .mbxInAck m h => Sys2Proof.Machine.execMbxInAck m h s
  | .mbxReply m h len => Sys2Proof.Machine.execMbxReply m h len s
  | .mbxOutAck m h => Sys2Proof.Machine.execMbxOutAck m h s
  | .ringEnable m h r v => Sys2Proof.Machine.execRingEnable m h r v s
  | .ringTailWrite m h r tail => Sys2Proof.Machine.execRingTailWrite m h r tail s
  | .txDescriptor h r => Sys2Proof.Machine.execTxDescriptor h r s
  | .rxCopyDeliver h r => Sys2Proof.Machine.execRxCopyDeliver h r s
  | .ringIrqTimer h r => Sys2Proof.Machine.execRingIrqTimer h r s
  | .hallOpen m h => Sys2Proof.Machine.execHallOpen m h s
  | .hallFreeze m h => Sys2Proof.Machine.execHallFreeze m h s
  | .hallSave m h cnt dyn => Sys2Proof.Machine.execHallSave m h cnt dyn s
  | .hallRestore m h => Sys2Proof.Machine.execHallRestore m h s
  | .hallThaw m h => Sys2Proof.Machine.execHallThaw m h s
  | .hallClose m h => Sys2Proof.Machine.execHallClose m h s
  | .hallCmdComplete readOk => Sys2Proof.Machine.execHallCmdComplete readOk s
  | .registerWrite m addr be v => Sys2Proof.Machine.execRegisterWrite m addr be v s
  | .unlock m v => Sys2Proof.Machine.execUnlock m v s
  | .kgLockTimeout => Sys2Proof.Machine.execKgLockTimeout s
  | .accessErrRead m => Sys2Proof.Machine.execAccessErrRead m s
  | .rcFieldRead m addr be => Sys2Proof.Machine.execRcFieldRead m addr be s
  | .pairLowRead m addr be => Sys2Proof.Machine.execPairLowRead m addr be s
  | .privMapWrite m v => Sys2Proof.Machine.execPrivMapWrite m v s
  | .tvScrub upsets => Sys2Proof.Machine.execTvScrub upsets s
  | .dkcEnableWrite m v => Sys2Proof.Machine.execDkcEnableWrite m v s
  | .sbWrite x => Sys2Proof.Machine.execSbWrite x s
  | .sbRead x => Sys2Proof.Machine.execSbRead x s
  | .sbSclTimeout => Sys2Proof.Machine.execSbSclTimeout s
  | .sbAlertResponse => Sys2Proof.Machine.execSbAlertResponse s
  | .regAccess go isWrite addr data => Sys2Proof.Machine.execRegAccess go isWrite addr data s
  | .lcAdvance m => Sys2Proof.Machine.execLcAdvance m s
  | .fuseProgram m row => Sys2Proof.Machine.execFuseProgram m row s
  | .fuseBurnComplete stuck => Sys2Proof.Machine.execFuseBurnComplete stuck s
  | .ceSha384 m => Sys2Proof.Machine.execCeSha384 m s
  | .ceVerify m curve => Sys2Proof.Machine.execCeVerify m curve s
  | .ceSign m keySel curve => Sys2Proof.Machine.execCeSign m keySel curve s
  | .ceDerive m curve => Sys2Proof.Machine.execCeDerive m curve s
  | .cePubkey m keySel curve => Sys2Proof.Machine.execCePubkey m keySel curve s
  | .ceIdkGen m curve => Sys2Proof.Machine.execCeIdkGen m curve s
  | .ceOpComplete => Sys2Proof.Machine.execCeOpComplete s
  | .ceResRead m which => Sys2Proof.Machine.execCeResRead m which s
  | .keWrap m => Sys2Proof.Machine.execKeWrap m s
  | .keUnwrap m => Sys2Proof.Machine.execKeUnwrap m s
  | .keErase m => Sys2Proof.Machine.execKeErase m s
  | .keCmdComplete => Sys2Proof.Machine.execKeCmdComplete s
  | .entropyWindow samples => Sys2Proof.Machine.execEntropyWindow samples s
  | .drbgReseed => Sys2Proof.Machine.execDrbgReseed s
  | .rngInit m => Sys2Proof.Machine.execRngInit m s
  | .rngGenerate m => Sys2Proof.Machine.execRngGenerate m s
  | .fiGateClose => Sys2Proof.Machine.execFiGateClose s
  | .fltClear m v => Sys2Proof.Machine.execFltClear m v s
  | .fltHistClear m => Sys2Proof.Machine.execFltHistClear m s
  | .fence m kind idx => Sys2Proof.Machine.execFence m kind idx s
  | .unfence m kind idx => Sys2Proof.Machine.execUnfence m kind idx s
  | .unitError line => Sys2Proof.Machine.execUnitError line s
  | .pipeSlotTimeout p => Sys2Proof.Machine.execPipeSlotTimeout p s
  | .collectorOutvoted copy => Sys2Proof.Machine.execCollectorOutvoted copy s
  | .safeTrip => Sys2Proof.Machine.execSafeTrip s
  | .thermThreshold x t16 => Sys2Proof.Machine.execThermThreshold x t16 s
  | .thermTrip x t16 => Sys2Proof.Machine.execThermTrip x t16 s
  | .voltBandExit r mv => Sys2Proof.Machine.execVoltBandExit r mv s
  | .voltBandRecover r mv => Sys2Proof.Machine.execVoltBandRecover r mv s
  | .fiRaise m fault idx => Sys2Proof.Machine.execFiRaise m fault idx s
  | .fiEcc1 m target idx => Sys2Proof.Machine.execFiEcc1 m target idx s
  | .fiEcc2 m target idx => Sys2Proof.Machine.execFiEcc2 m target idx s
  | .fiFailUnit m target idx => Sys2Proof.Machine.execFiFailUnit m target idx s
  | .fiCollector m copies => Sys2Proof.Machine.execFiCollector m copies s
  | .fiClearAll m => Sys2Proof.Machine.execFiClearAll m s
  | .snap m h pool clear => Sys2Proof.Machine.execSnap m h pool clear s
  | .snapComplete h => Sys2Proof.Machine.execSnapComplete h s
  | .evcClear m blk => Sys2Proof.Machine.execEvcClear m blk s
  | .evcFreeze m blk => Sys2Proof.Machine.execEvcFreeze m blk s
  | .evcRecordRead m p => Sys2Proof.Machine.execEvcRecordRead m p s
  | .clk10mReturn => Sys2Proof.Machine.execClk10mReturn s
  | .thermConditionClear t16 bootSrc => Sys2Proof.Machine.execThermConditionClear t16 bootSrc s
  | .hostLinkUp => Sys2Proof.Machine.execHostLinkUp s
  | .collectorSelfTest => Sys2Proof.Machine.execCollectorSelfTest s
  | .fiGateOpen => Sys2Proof.Machine.execFiGateOpen s
  | .resetComplete pass => Sys2Proof.Machine.execResetComplete pass s
  | .tcamCmdComplete p => Sys2Proof.Machine.execTcamCmdComplete p s
  | .flushCmdComplete h => Sys2Proof.Machine.execFlushCmdComplete h s
  | .fenceCmdComplete pass => Sys2Proof.Machine.execFenceCmdComplete pass s
  | .regAccessComplete => Sys2Proof.Machine.execRegAccessComplete s

end Sys2Proof.Machine
end

