-- ==== Sys2Proof/Safety.lean ====
section
/-! DEFINITION. The words in which the claims are made: when a write reaches its register, when the OTP array is in its canonical
form, what a master may touch. -/

namespace Sys2Proof.Machine

/-- A write of master `m` to the single register (r, i, j), through the window of hall `via` if any, reaches that register
(R53, R113, R337 to R339, R368, R378, R461): its region answers, the master has the privilege it needs, a virtual function uses
its own window, the window carries the register and its hall may write it. -/
def Chip.serves (c : Chip) (m : Nat) (via : Option Nat) (r : R) (i j : Nat) : Bool :=
  decide (c.reach m (c.accAddr via r i j) true = .ok) && !c.barsWrite m via r &&
    (match via with
     | none => true
     | some h =>
       r.inWindow && !decide (1 ≤ m ∧ m < 32 ∧ h ≠ m) && c.hallPresent h &&
         (if r.isPrt || r.isSch then (apertureBar c h r i j).isNone else true))

/-- A read request of master `m` for address `a` of its own map is answered by the single register (r, i, j), through the
window of hall `via` if any, and nothing of R339 hides it there. -/
def Chip.answersReg (c : Chip) (m a : Nat) (via : Option Nat) (r : R) (i j : Nat) : Prop :=
  (c.locate m a).2 = .reg r i j via ∧ c.reach m (c.locate m a).1 false = .ok ∧
    (via.bind (fun h => if r.isPrt || r.isSch then apertureBar c h r i j else none)) = none

/-- The address at which master `m` finds a register of a hall: offset `x` of its own window for a virtual function, address
`a` for another master. -/
def hallAddrOf (m a x : Nat) : Nat := if 1 ≤ m ∧ m < 32 then x else a

/-- The privileged fields of the PF, the side-band and JTAG: what decides who is privileged (R12, R376). -/
def Chip.privMap (c : Chip) : Nat × Nat × Nat :=
  (c.get Fd.GLB_PRIV_MAP_PF 0 0, c.get Fd.GLB_PRIV_MAP_SB 0 0, c.get Fd.GLB_PRIV_MAP_JTAG 0 0)

/-- The OTP array is in its canonical form: rows strictly rising, no row listed that reads 0. -/
def Otp.wf (o : Otp) : Bool := alSorted natLt o && o.all (fun e => decide (e.2 ≠ 0))

/-- Every fuse burnt in `o` is burnt in `o'` (R396: a fuse bit goes from 0 to 1 and never back). -/
def Otp.keeps (o o' : Otp) : Prop := ∀ r k : Nat, bitOf (o.get 0 r) k = true → bitOf (o'.get 0 r) k = true

/-- A table command of operation `op` on table `t` passes every check of its slot `h` (R17, R190, R214 to R216): the slot is not
BUSY, master `m` may use the table, the command names nothing of another hall, the generation is current where a hall window
carries the command (R343), the hall runs, the table exists, and its operands are in range. -/
def Chip.tblTakes (c : Chip) (m h op t : Nat) : Bool :=
  let i := c.get Fd.TBL_CMD_IDX_INDEX h 0
  decide (c.get Fd.TBL_CMD_STATUS h 0 ≠ sBUSY) && (decide (t < 2) || c.priv m) && !c.foreignCmd h op t &&
    (decide (h = 0) || c.genCurrent h) && !c.stopped 5 h && !decide (t = tGROUTE ∧ (op = opINSERT ∨ op = opDELETE ∨ op = opFLUSHHALL)) &&
    decide (c.tblSize t ≠ 0) && (decide (op ≠ opNEXT) || decide (i < c.tblSize t)) &&
    (!decide (op = opSEARCH ∨ op = opINSERT ∨ op = opDELETE) || !c.byIndex h op t || decide (i < c.tblSize t)) &&
    (!decide (op = opAGE ∨ op = opFLUSHPORT) || decide (t = tFDB)) &&
    (decide (op ≠ opFLUSHPORT) || (c.hport h (c.get Fd.TBL_CMD_ARG_PORT h 0)).isSome) &&
    (decide (op ≠ opINSERT) || (!c.badData t i (c.slotData h t) && (c.wordsIn h t (c.slotData h t)).isSome))

/-- What the start of a table command leaves: the slot BUSY, its job, no result yet, the tables as they were. -/
def Chip.tblStarted (c d : Chip) (h op t : Nat) : Prop :=
  d.get Fd.TBL_CMD_STATUS h 0 = sBUSY ∧ d.jobs.find h = some { op := op, table := t, gen := c.gen h } ∧
    d.get Fd.TBL_RES_INFO_RESULT_VALID h 0 = 0 ∧ d.tbl = c.tbl ∧ d.bus.kgOpen = false

/-- A TCAM command on row `row` of bank `p` from the slot of hall `h` passes every check (R17, R171, R177). -/
def Chip.tcamTakes (c : Chip) (m h p layout row : Nat) : Bool :=
  decide (c.get Fd.PIP_TCAM_CMD_STATUS p 0 ≠ sBUSY) && (decide (h ≠ 0) || c.priv m) &&
    (decide (h = 0) || (decide (c.get Fd.GLB_QUOTA_W3_TCAM h 0 ≠ 0) &&
      ((c.tcam.find p row).all (fun r => !r.valid || decide (r.owner = h))))) &&
    (decide (h = 0) || c.genCurrent h) && !c.isFenced 1 p && !c.isFenced 2 p && !c.stopped 5 h && decide (row ≤ 6143) &&
    (c.img.inForce.bind (fun im => im.layouts.find p layout)).isSome

/-- A flush from the slot of hall `h` of the leaf queues `scope` of port `n` passes every check (R17, R304). -/
def Chip.flushTakes (c : Chip) (h n : Nat) (scope : List Nat) : Bool :=
  (List.range 32).all (fun k => decide (c.get Fd.SCH_FLUSH_CMD_STATUS k 0 ≠ sBUSY)) &&
    (decide (h = 0) || c.genCurrent h) && !c.isFenced 0 n && !c.stopped 5 h && scope.all (fun q => decide (c.qOwner n q = h))

end Sys2Proof.Machine
end

