-- ==== Sys2Proof/Certificates/Slice0/Obligations.lean ====
section
/-! DEFINITION. What is claimed of the device, each claim a proposition for the provers; OBLIGATIONS.json says which rules of the
spec each one states or rests on. -/

open Sys2Proof Sys2Proof.Machine

/-! ## The step and the queue -/

/-- A step takes the command at the front of the queue and runs it on the state with the queue's rest. -/
def Obligations.StepRunsTheFrontCommand : Prop :=
  ∀ (s : State) (i : Instr) (rest : List Instr),
    s.pending = i :: rest → Sys2Proof.Machine.step s = Sys2Proof.Machine.exec i { s with pending := rest }

/-- Every command answers a next state, and none of them reads or changes the queue. -/
def Obligations.EveryCommandKeepsTheQueue : Prop :=
  ∀ (i : Instr) (s : State), ∃ t : State,
    Sys2Proof.Machine.exec i s = .next t ∧ t.pending = s.pending ∧
      ∀ q : List Instr, Sys2Proof.Machine.exec i { s with pending := q } = .next { t with pending := q }

/-- With no command waiting, one edge of TIME_CLK passes while the auxiliary rail is good and RESET_N high, and time stands
otherwise (log 1: the model's choice of what an empty queue does). -/
def Obligations.EmptyQueueIsOneClockEdge : Prop :=
  ∀ s : State, s.pending = [] → ∃ t : State, Sys2Proof.Machine.step s = .next t ∧ t.pending = [] ∧ t.otp = s.otp ∧
    (s.chip.pins.auxGood = true ∧ s.chip.pins.resetN = true →
      t.chip.tim.clk = s.chip.tim.clk + 1 ∧
      t.chip.tim.rate = s.chip.tim.rateNext.getD s.chip.tim.rate ∧ t.chip.tim.rateNext = none ∧
      t.chip.tim.devT = s.chip.tim.devT + ((2 ^ 48 : Int) + s.chip.tim.rate).toNat ∧
      t.chip.cyc.freq = s.chip.cyc.freqNext.getD s.chip.cyc.freq ∧ t.chip.cyc.freqNext = none ∧
      t.chip.cyc.accX = (s.chip.cyc.accX + incOf s.chip.cyc.freq * ((2 ^ 48 : Int) + s.chip.tim.rate).toNat) % 2 ^ 144) ∧
    (s.chip.pins.auxGood = false ∨ s.chip.pins.resetN = false → t = s)

/-! ## Reset -/

/-- What reset leaves: nothing waits, no image is in force, the KG lock is armed, the access log is empty, device time is 0
and no frame, fence or history entry is held; a sample of the registers of each group reads its reset value. That the memories
outside list nothing is the model's choice (log 45), as is that every master is privileged, for no fuse is burnt (log 3). -/
def Obligations.ResetState : Prop :=
  let c := State.reset.chip
  State.reset.pending = [] ∧ c.img.inForce = none ∧ c.bus.kgOpen = false ∧ c.tim.devT = 0 ∧ c.atr.frames = [] ∧
    c.host = [] ∧ c.flash = [] ∧ c.fenced = [] ∧ c.flt.hist = [] ∧
    c.get Fd.GLB_ACCESS_ERR_VALID 0 0 = 0 ∧ c.get Fd.GLB_QSC_TIMEOUT_TIMEOUT_US 0 0 = 1000 ∧
    c.get Fd.GLB_PWR_CTRL_STEP_FLOOR 0 0 = 2 ∧ c.get Fd.GLB_PWR_CTRL_STEP_EN 0 0 = 1 ∧
    c.get Fd.FLT_PIN_EN_PIN_EN 0 0 = 0x02AC621D ∧ c.get Fd.TIM_CYC_NOM_FREQ_UHZ 0 0 = 50000000 ∧
    c.get Fd.ATR_STATUS_FREE 0 0 = 393216 ∧ c.priv 0 = true ∧ c.priv 32 = true ∧ c.priv 33 = true

/-! ## The OTP array -/

/-- Every step keeps the OTP array in its canonical form, and no fuse that is burnt is ever unburnt. -/
def Obligations.EveryStepKeepsTheFuses : Prop :=
  ∀ s t : State, Otp.wf s.otp = true → Sys2Proof.Machine.step s = .next t → Otp.wf t.otp = true ∧ Otp.keeps s.otp t.otp

/-- The OTP array is canonical at reset, and nothing is burnt: the model's choice, for the spec does not say what a module has
burnt (log 3). -/
def Obligations.ResetFusesAreBlank : Prop := Otp.wf State.reset.otp = true ∧ ∀ r : Nat, NMap.get 0 State.reset.otp r = 0

/-- Only a fuse burn that ends, an identity key generation that ends, a spare swap that ends and an interlock that opens change
the OTP array. -/
def Obligations.OnlyBurnsChangeTheFuses : Prop :=
  ∀ (i : Instr) (s t : State), Sys2Proof.Machine.exec i s = .next t →
    (∀ l, i ≠ .fuseBurnComplete l) → i ≠ .ceOpComplete → (∀ e, i ≠ .swapComplete e) → i ≠ .intlkOpen → t.otp = s.otp

/-! ## Frames -/

/-- The frames of events: each of these commands answers a next state in which every part of the state but those named is
unchanged, with the fuses (but where a burn ends), the queue and all of host memory (but at the end of a snapshot) among the rest; and,
of some that write registers, the fields they may write. -/
def Obligations.EventFrames : Prop :=
  ∀ (s : State) (a n x y : Nat) (z : Int) (b b2 : Bool) (data : List Byte) (w : List Bool) (f : List (Nat × Nat)),
    (∀ i ∈ ([.stepUp] : List Instr),
      ∃ t, Sys2Proof.Machine.exec i s = .next t ∧
        t = { s with chip := { s.chip with tim := t.chip.tim } }) ∧
    (∀ i ∈ ([.auxLoss, .vin48Rise, .pwrGoodRise a, .perstNRelease, .ppsOutFall, .clk10mReturn,
      .fiGateOpen] : List Instr),
      ∃ t, Sys2Proof.Machine.exec i s = .next t ∧
        t = { s with chip := { s.chip with pins := t.chip.pins } }) ∧
    (∀ i ∈ ([.hostLinkUp] : List Instr),
      ∃ t, Sys2Proof.Machine.exec i s = .next t ∧
        t = { s with chip := { s.chip with pins := t.chip.pins, bus := t.chip.bus } }) ∧
    (∀ i ∈ ([.ppsOutRise] : List Instr),
      ∃ t, Sys2Proof.Machine.exec i s = .next t ∧
        t = { s with chip := { s.chip with pins := t.chip.pins, tim := t.chip.tim } }) ∧
    (∀ i ∈ ([.toutPulseEnd x] : List Instr),
      ∃ t, Sys2Proof.Machine.exec i s = .next t ∧
        t = { s with chip := { s.chip with pins := t.chip.pins, toutFall := t.chip.toutFall } }) ∧
    (∀ i ∈ ([.cycSecondRecompute] : List Instr),
      ∃ t, Sys2Proof.Machine.exec i s = .next t ∧
        t = { s with chip := { s.chip with cyc := t.chip.cyc } }) ∧
    (∀ i ∈ ([.kgLockTimeout, .sbAlertResponse, .regAccessComplete] : List Instr),
      ∃ t, Sys2Proof.Machine.exec i s = .next t ∧
        t = { s with chip := { s.chip with bus := t.chip.bus } }) ∧
    (∀ i ∈ ([.errBudgetWindow n, .pmacVerify n b] : List Instr),
      ∃ t, Sys2Proof.Machine.exec i s = .next t ∧
        t = { s with chip := { s.chip with ports := t.chip.ports } }) ∧
    (∀ i ∈ ([.shaperRefill] : List Instr),
      ∃ t, Sys2Proof.Machine.exec i s = .next t ∧
        t = { s with chip := { s.chip with tim := t.chip.tim, ports := t.chip.ports } }) ∧
    (∀ i ∈ ([.preemptFragmentEnd n x] : List Instr),
      ∃ t, Sys2Proof.Machine.exec i s = .next t ∧
        t = { s with chip := { s.chip with ports := t.chip.ports, residue := t.chip.residue } }) ∧
    (∀ i ∈ ([.swapSpareReady x, .swapSwitchDone x] : List Instr),
      ∃ t, Sys2Proof.Machine.exec i s = .next t ∧
        t = { s with chip := { s.chip with engs := t.chip.engs } }) ∧
    (∀ i ∈ ([.atriumSweepDone, .rsqContextFree x] : List Instr),
      ∃ t, Sys2Proof.Machine.exec i s = .next t ∧
        t = { s with chip := { s.chip with atr := t.chip.atr } }) ∧
    (∀ i ∈ ([.reportTx, .sprayEntryFree x y] : List Instr),
      ∃ t, Sys2Proof.Machine.exec i s = .next t ∧
        t = { s with chip := { s.chip with gal := t.chip.gal } }) ∧
    (∀ i ∈ ([.collectorSelfTest] : List Instr),
      ∃ t, Sys2Proof.Machine.exec i s = .next t ∧
        t = { s with chip := { s.chip with flt := t.chip.flt } }) ∧
    (∀ i ∈ ([.drbgReseed] : List Instr),
      ∃ t, Sys2Proof.Machine.exec i s = .next t ∧
        t = { s with chip := { s.chip with sec := t.chip.sec } }) ∧
    (∀ i ∈ ([.pipeUnparked x] : List Instr),
      ∃ t, Sys2Proof.Machine.exec i s = .next t ∧
        t = { s with chip := { s.chip with ctl := t.chip.ctl } }) ∧
    (∀ i ∈ ([.rxSignalDetect n, .flushCmdComplete x] : List Instr),
      ∃ t, Sys2Proof.Machine.exec i s = .next t ∧
        t = { s with chip := { s.chip with fld := t.chip.fld } }) ∧
    (∀ i ∈ ([.clockRecovered n, .anComplete n b, .linkUp n, .portRemap n, .gateListBoundary n,
      .holdAssert n] : List Instr),
      ∃ t, Sys2Proof.Machine.exec i s = .next t ∧
        t = { s with chip := { s.chip with fld := t.chip.fld, ports := t.chip.ports } }) ∧
    (∀ i ∈ ([.parkComplete x, .qscTimeout, .hallResetComplete x] : List Instr),
      ∃ t, Sys2Proof.Machine.exec i s = .next t ∧
        t = { s with chip := { s.chip with fld := t.chip.fld, ctl := t.chip.ctl } }) ∧
    (∀ i ∈ ([.quiesced] : List Instr),
      ∃ t, Sys2Proof.Machine.exec i s = .next t ∧
        t = { s with chip := { s.chip with fld := t.chip.fld, tim := t.chip.tim, ctl := t.chip.ctl } }) ∧
    (∀ i ∈ ([.streamGateBoundary x] : List Instr),
      ∃ t, Sys2Proof.Machine.exec i s = .next t ∧
        t = { s with chip := { s.chip with fld := t.chip.fld, sgate := t.chip.sgate } }) ∧
    (∀ i ∈ ([.sbSclTimeout, .safeTrip] : List Instr),
      ∃ t, Sys2Proof.Machine.exec i s = .next t ∧
        t = { s with chip := { s.chip with fld := t.chip.fld, bus := t.chip.bus } }) ∧
    (∀ i ∈ ([.electSettle, .orphanReelect] : List Instr),
      ∃ t, Sys2Proof.Machine.exec i s = .next t ∧
        t = { s with chip := { s.chip with fld := t.chip.fld, gal := t.chip.gal } }) ∧
    (∀ i ∈ ([.counterReaderPass] : List Instr),
      ∃ t, Sys2Proof.Machine.exec i s = .next t ∧
        t = { s with chip := { s.chip with fld := t.chip.fld, cnt := t.chip.cnt, residue := t.chip.residue } }) ∧
    (∀ i ∈ ([.rsqReturn n] : List Instr),
      ∃ t, Sys2Proof.Machine.exec i s = .next t ∧
        t = { s with chip := { s.chip with fld := t.chip.fld, freeCtr := t.chip.freeCtr, atr := t.chip.atr } }) ∧
    (∀ i ∈ ([.rsqTimeout x] : List Instr),
      ∃ t, Sys2Proof.Machine.exec i s = .next t ∧
        t = { s with chip := { s.chip with fld := t.chip.fld, atr := t.chip.atr, cnt := t.chip.cnt } }) ∧
    (∀ i ∈ ([.rxFrameStart n data] : List Instr),
      ∃ t, Sys2Proof.Machine.exec i s = .next t ∧
        t = { s with chip := { s.chip with fld := t.chip.fld
                                           ports := t.chip.ports
                                           atr := t.chip.atr
                                           cnt := t.chip.cnt } }) ∧
    (∀ i ∈ ([.txCopyEnd n] : List Instr),
      ∃ t, Sys2Proof.Machine.exec i s = .next t ∧
        t = { s with chip := { s.chip with fld := t.chip.fld
                                           bus := t.chip.bus
                                           tsq := t.chip.tsq
                                           tsqLost := t.chip.tsqLost
                                           ports := t.chip.ports
                                           atr := t.chip.atr
                                           cnt := t.chip.cnt
                                           residue := t.chip.residue } }) ∧
    (∀ i ∈ ([.eventSlotFire x] : List Instr),
      ∃ t, Sys2Proof.Machine.exec i s = .next t ∧
        t = { s with chip := { s.chip with fld := t.chip.fld
                                           pins := t.chip.pins
                                           bus := t.chip.bus
                                           tim := t.chip.tim
                                           evt := t.chip.evt
                                           toutFall := t.chip.toutFall } }) ∧
    (∀ i ∈ ([.capInEdge x b y] : List Instr),
      ∃ t, Sys2Proof.Machine.exec i s = .next t ∧
        t = { s with chip := { s.chip with fld := t.chip.fld, caps := t.chip.caps } }) ∧
    (∀ i ∈ ([.ppsInEdge, .thermThreshold x z] : List Instr),
      ∃ t, Sys2Proof.Machine.exec i s = .next t ∧
        t = { s with chip := { s.chip with fld := t.chip.fld
                                           bus := t.chip.bus
                                           tim := t.chip.tim
                                           flt := t.chip.flt } }) ∧
    (∀ i ∈ ([.clk10mLost] : List Instr),
      ∃ t, Sys2Proof.Machine.exec i s = .next t ∧
        t = { s with chip := { s.chip with fld := t.chip.fld
                                           pins := t.chip.pins
                                           bus := t.chip.bus
                                           flt := t.chip.flt } }) ∧
    (∀ i ∈ ([.cycRefLoss] : List Instr),
      ∃ t, Sys2Proof.Machine.exec i s = .next t ∧
        t = { s with chip := { s.chip with fld := t.chip.fld
                                           bus := t.chip.bus
                                           cyc := t.chip.cyc
                                           flt := t.chip.flt } }) ∧
    (∀ i ∈ ([.collectorOutvoted x] : List Instr),
      ∃ t, Sys2Proof.Machine.exec i s = .next t ∧
        t = { s with chip := { s.chip with fld := t.chip.fld, bus := t.chip.bus, flt := t.chip.flt } }) ∧
    (∀ i ∈ ([.entropyWindow w] : List Instr),
      ∃ t, Sys2Proof.Machine.exec i s = .next t ∧
        t = { s with chip := { s.chip with fld := t.chip.fld
                                           freeCtr := t.chip.freeCtr
                                           bus := t.chip.bus
                                           sec := t.chip.sec
                                           flt := t.chip.flt } }) ∧
    (∀ i ∈ ([.keCmdComplete] : List Instr),
      ∃ t, Sys2Proof.Machine.exec i s = .next t ∧
        t = { s with chip := { s.chip with fld := t.chip.fld, freeCtr := t.chip.freeCtr, sec := t.chip.sec } }) ∧
    (∀ i ∈ ([.stairLinkLost x, .reportExpire x] : List Instr),
      ∃ t, Sys2Proof.Machine.exec i s = .next t ∧
        t = { s with chip := { s.chip with fld := t.chip.fld
                                           bus := t.chip.bus
                                           gal := t.chip.gal
                                           flt := t.chip.flt } }) ∧
    (∀ i ∈ ([.epochBuild] : List Instr),
      ∃ t, Sys2Proof.Machine.exec i s = .next t ∧
        t = { s with chip := { s.chip with freeCtr := t.chip.freeCtr, gal := t.chip.gal, sec := t.chip.sec } }) ∧
    (∀ i ∈ ([.epochAckTimeout] : List Instr),
      ∃ t, Sys2Proof.Machine.exec i s = .next t ∧
        t = { s with chip := { s.chip with fld := t.chip.fld
                                           freeCtr := t.chip.freeCtr
                                           gal := t.chip.gal
                                           sec := t.chip.sec } }) ∧
    (∀ i ∈ ([.dupSweepPass] : List Instr),
      ∃ t, Sys2Proof.Machine.exec i s = .next t ∧
        t = { s with chip := { s.chip with fld := t.chip.fld
                                           bus := t.chip.bus
                                           tbl := t.chip.tbl
                                           tblEcc := t.chip.tblEcc
                                           tblHall := t.chip.tblHall
                                           flt := t.chip.flt
                                           residue := t.chip.residue } }) ∧
    (∀ i ∈ ([.agerPass] : List Instr),
      ∃ t, Sys2Proof.Machine.exec i s = .next t ∧
        t = { s with chip := { s.chip with fld := t.chip.fld
                                           bus := t.chip.bus
                                           tbl := t.chip.tbl
                                           tblEcc := t.chip.tblEcc
                                           tblHall := t.chip.tblHall
                                           agerNext := t.chip.agerNext
                                           flt := t.chip.flt
                                           residue := t.chip.residue } }) ∧
    (∀ i ∈ ([.tblCmdComplete x] : List Instr),
      ∃ t, Sys2Proof.Machine.exec i s = .next t ∧
        t = { s with chip := { s.chip with fld := t.chip.fld
                                           freeCtr := t.chip.freeCtr
                                           bus := t.chip.bus
                                           tbl := t.chip.tbl
                                           tblEcc := t.chip.tblEcc
                                           tblHall := t.chip.tblHall
                                           jobs := t.chip.jobs
                                           agerNext := t.chip.agerNext
                                           flt := t.chip.flt
                                           residue := t.chip.residue } }) ∧
    (∀ i ∈ ([.tcamCmdComplete x] : List Instr),
      ∃ t, Sys2Proof.Machine.exec i s = .next t ∧
        t = { s with chip := { s.chip with fld := t.chip.fld
                                           pipes := t.chip.pipes
                                           tcam := t.chip.tcam
                                           flt := t.chip.flt } }) ∧
    (∀ i ∈ ([.boot, .imageHeaderCheck b, .imageBodyCheck b b2] : List Instr),
      ∃ t, Sys2Proof.Machine.exec i s = .next t ∧
        t = { s with chip := { s.chip with fld := t.chip.fld
                                           bus := t.chip.bus
                                           img := t.chip.img
                                           ctl := t.chip.ctl
                                           flt := t.chip.flt } }) ∧
    (∀ i ∈ ([.resetComplete b] : List Instr),
      ∃ t, Sys2Proof.Machine.exec i s = .next t ∧
        t = { s with chip := { s.chip with fld := t.chip.fld
                                           ctl := t.chip.ctl
                                           fenced := t.chip.fenced
                                           flt := t.chip.flt } }) ∧
    (∀ i ∈ ([.fenceCmdComplete b] : List Instr),
      ∃ t, Sys2Proof.Machine.exec i s = .next t ∧
        t = { s with chip := { s.chip with fld := t.chip.fld, fenced := t.chip.fenced, flt := t.chip.flt } }) ∧
    (∀ i ∈ ([.ringIrqTimer x y] : List Instr),
      ∃ t, Sys2Proof.Machine.exec i s = .next t ∧
        t = { s with chip := { s.chip with bus := t.chip.bus, rings := t.chip.rings } }) ∧
    (∀ i ∈ ([.snapComplete x] : List Instr),
      ∃ t, Sys2Proof.Machine.exec i s = .next t ∧
        t = { s with chip := { s.chip with fld := t.chip.fld
                                           host := t.chip.host
                                           snaps := t.chip.snaps
                                           cnt := t.chip.cnt
                                           residue := t.chip.residue } }) ∧
    (∀ i ∈ ([.fuseBurnComplete f] : List Instr),
      ∃ t, Sys2Proof.Machine.exec i s = .next t ∧
        t = { s with otp := t.otp, chip := { s.chip with fld := t.chip.fld, sec := t.chip.sec } }) ∧
    (∀ i ∈ ([.ceOpComplete] : List Instr),
      ∃ t, Sys2Proof.Machine.exec i s = .next t ∧
        t = { s with otp := t.otp, chip := { s.chip with fld := t.chip.fld, freeCtr := t.chip.freeCtr, sec := t.chip.sec } }) ∧
    (∃ t, Sys2Proof.Machine.exec (.flushCmdComplete x) s = .next t ∧
      ∀ (g : F) (i j : Nat), (g, i, j) ≠ (Fd.SCH_FLUSH_CMD_STATUS, x, 0) → t.chip.get g i j = s.chip.get g i j) ∧
    (∃ t, Sys2Proof.Machine.exec (.holdAssert n) s = .next t ∧
      ∀ (g : F) (i j : Nat), (g, i, j) ≠ (Fd.SCH_GCL_STATUS_HOLD, n, 0) → t.chip.get g i j = s.chip.get g i j) ∧
    (∃ t, Sys2Proof.Machine.exec (.portRemap n) s = .next t ∧
      ∀ (g : F) (i j : Nat), g.r ≠ .GLB_PORT_PIPE ∨ i ≠ n → t.chip.get g i j = s.chip.get g i j) ∧
    (∃ t, Sys2Proof.Machine.exec (.streamGateBoundary x) s = .next t ∧
      ∀ (g : F) (i j : Nat), g.r ≠ .TBL_SGATE_STATUS ∨ i ≠ x → t.chip.get g i j = s.chip.get g i j) ∧
    (∃ t, Sys2Proof.Machine.exec (.parkComplete x) s = .next t ∧
      ∀ (g : F) (i j : Nat), g.r ≠ .GLB_PWR_CTRL → t.chip.get g i j = s.chip.get g i j) ∧
    (∃ t, Sys2Proof.Machine.exec (.snapComplete x) s = .next t ∧
      ∀ (g : F) (i j : Nat),
        g ≠ Fd.CNT_SNAP_RES_BYTES ∧ g ≠ Fd.CNT_SNAP_CMD_STATUS ∨ i ≠ x → t.chip.get g i j = s.chip.get g i j)

/-- The frames of register accesses: whatever becomes of the access, each of these writes and reads answers a next state in
which every part of the state but those named is unchanged, with the fuses, the queue and all of host memory among the rest. -/
def Obligations.AccessFrames : Prop :=
  ∀ (s : State) (m h n x y k : Nat) (b b2 : Bool) (v : Word) (xf : SbXfer),
    (∀ i ∈ ([.unlock m v, .privMapWrite m v, .dkcEnableWrite m v, .fltClear m v, .streamGateReopen m n,
      .ringTailWrite m h x y] : List Instr),
      ∃ t, Sys2Proof.Machine.exec i s = .next t ∧
        t = { s with chip := { s.chip with fld := t.chip.fld, bus := t.chip.bus } }) ∧
    (∀ i ∈ ([.shaperRateWrite m n x y v] : List Instr),
      ∃ t, Sys2Proof.Machine.exec i s = .next t ∧
        t = { s with chip := { s.chip with fld := t.chip.fld
                                           bus := t.chip.bus
                                           tim := t.chip.tim
                                           ports := t.chip.ports } }) ∧
    (∀ i ∈ ([.rateLoStage m v, .rateCommit m v] : List Instr),
      ∃ t, Sys2Proof.Machine.exec i s = .next t ∧
        t = { s with chip := { s.chip with fld := t.chip.fld, bus := t.chip.bus, tim := t.chip.tim } }) ∧
    (∀ i ∈ ([.offsetWrite m v] : List Instr),
      ∃ t, Sys2Proof.Machine.exec i s = .next t ∧
        t = { s with chip := { s.chip with fld := t.chip.fld
                                           bus := t.chip.bus
                                           tim := t.chip.tim
                                           flt := t.chip.flt } }) ∧
    (∀ i ∈ ([.cycFreqWrite m v] : List Instr),
      ∃ t, Sys2Proof.Machine.exec i s = .next t ∧
        t = { s with chip := { s.chip with fld := t.chip.fld, bus := t.chip.bus, cyc := t.chip.cyc } }) ∧
    (∀ i ∈ ([.eventSlotEnable m x v] : List Instr),
      ∃ t, Sys2Proof.Machine.exec i s = .next t ∧
        t = { s with chip := { s.chip with fld := t.chip.fld, bus := t.chip.bus, evt := t.chip.evt } }) ∧
    (∀ i ∈ ([.tblSearch m h x, .tblNext m h x, .tblInsert m h x, .tblDelete m h x, .tblFlushPort m h x, .tblFlushHall m h x,
      .tblAge m h x] : List Instr),
      ∃ t, Sys2Proof.Machine.exec i s = .next t ∧
        t = { s with chip := { s.chip with fld := t.chip.fld, bus := t.chip.bus, jobs := t.chip.jobs } }) ∧
    (∀ i ∈ ([.tcamWrite m h n x y k, .tcamInvalidate m h n x y k, .tcamRead m h n x y k] : List Instr),
      ∃ t, Sys2Proof.Machine.exec i s = .next t ∧
        t = { s with chip := { s.chip with fld := t.chip.fld
                                           bus := t.chip.bus
                                           pipes := t.chip.pipes
                                           tcam := t.chip.tcam } }) ∧
    (∀ i ∈ ([.gclSwitch m n, .gclCancel m n, .gclEnableWrite m n v, .shaperEnableWrite m n x y v,
      .errBudgetWrite m n v] : List Instr),
      ∃ t, Sys2Proof.Machine.exec i s = .next t ∧
        t = { s with chip := { s.chip with fld := t.chip.fld, bus := t.chip.bus, ports := t.chip.ports } }) ∧
    (∀ i ∈ ([.macsecCipherWrite m n v, .fuseProgram m x, .ceSha384 m, .ceVerify m x, .ceSign m x y, .ceDerive m x,
      .cePubkey m x y, .ceIdkGen m x, .keWrap m, .keUnwrap m, .keErase m] : List Instr),
      ∃ t, Sys2Proof.Machine.exec i s = .next t ∧
        t = { s with chip := { s.chip with fld := t.chip.fld, bus := t.chip.bus, sec := t.chip.sec } }) ∧
    (∀ i ∈ ([.lcAdvance m, .rngInit m, .rngGenerate m] : List Instr),
      ∃ t, Sys2Proof.Machine.exec i s = .next t ∧
        t = { s with chip := { s.chip with fld := t.chip.fld
                                           freeCtr := t.chip.freeCtr
                                           bus := t.chip.bus
                                           sec := t.chip.sec } }) ∧
    (∀ i ∈ ([.elect m, .handover m] : List Instr),
      ∃ t, Sys2Proof.Machine.exec i s = .next t ∧
        t = { s with chip := { s.chip with fld := t.chip.fld, bus := t.chip.bus, gal := t.chip.gal } }) ∧
    (∀ i ∈ ([.admitMember m x, .stairLinkValidWrite m x v] : List Instr),
      ∃ t, Sys2Proof.Machine.exec i s = .next t ∧
        t = { s with chip := { s.chip with fld := t.chip.fld
                                           bus := t.chip.bus
                                           gal := t.chip.gal
                                           flt := t.chip.flt } }) ∧
    (∀ i ∈ ([.mirSeedWrite m v] : List Instr),
      ∃ t, Sys2Proof.Machine.exec i s = .next t ∧
        t = { s with chip := { s.chip with fld := t.chip.fld, bus := t.chip.bus, atr := t.chip.atr } }) ∧
    (∀ i ∈ ([.flushQueue m h n x, .flushBay m h n x, .flushPortQueues m h n] : List Instr),
      ∃ t, Sys2Proof.Machine.exec i s = .next t ∧
        t = { s with chip := { s.chip with fld := t.chip.fld
                                           bus := t.chip.bus
                                           ports := t.chip.ports
                                           atr := t.chip.atr
                                           cnt := t.chip.cnt } }) ∧
    (∀ i ∈ ([.portOwnWrite m n v] : List Instr),
      ∃ t, Sys2Proof.Machine.exec i s = .next t ∧
        t = { s with chip := { s.chip with fld := t.chip.fld
                                           bus := t.chip.bus
                                           atr := t.chip.atr
                                           cnt := t.chip.cnt } }) ∧
    (∀ i ∈ ([.retire m x] : List Instr),
      ∃ t, Sys2Proof.Machine.exec i s = .next t ∧
        t = { s with chip := { s.chip with fld := t.chip.fld
                                           bus := t.chip.bus
                                           ports := t.chip.ports
                                           atr := t.chip.atr
                                           flt := t.chip.flt } }) ∧
    (∀ i ∈ ([.mbxSend m h v, .mbxInAck m h, .mbxReply m h x, .mbxOutAck m h] : List Instr),
      ∃ t, Sys2Proof.Machine.exec i s = .next t ∧
        t = { s with chip := { s.chip with fld := t.chip.fld, bus := t.chip.bus, halls := t.chip.halls } }) ∧
    (∀ i ∈ ([.ringEnable m h x v] : List Instr),
      ∃ t, Sys2Proof.Machine.exec i s = .next t ∧
        t = { s with chip := { s.chip with fld := t.chip.fld, bus := t.chip.bus, rings := t.chip.rings } }) ∧
    (∀ i ∈ ([.hallOpen m h, .hallFreeze m h, .hallSave m h b b2, .hallRestore m h, .hallThaw m h, .hallClose m h] : List Instr),
      ∃ t, Sys2Proof.Machine.exec i s = .next t ∧
        t = { s with chip := { s.chip with fld := t.chip.fld, bus := t.chip.bus, ctl := t.chip.ctl } }) ∧
    (∀ i ∈ ([.redSet m x, .redClear m x] : List Instr),
      ∃ t, Sys2Proof.Machine.exec i s = .next t ∧
        t = { s with chip := { s.chip with fld := t.chip.fld
                                           bus := t.chip.bus
                                           ports := t.chip.ports
                                           tbl := t.chip.tbl
                                           tblEcc := t.chip.tblEcc
                                           tblHall := t.chip.tblHall } }) ∧
    (∀ i ∈ ([.snap m h x b] : List Instr),
      ∃ t, Sys2Proof.Machine.exec i s = .next t ∧
        t = { s with chip := { s.chip with fld := t.chip.fld
                                           bus := t.chip.bus
                                           snaps := t.chip.snaps
                                           cnt := t.chip.cnt
                                           residue := t.chip.residue } }) ∧
    (∀ i ∈ ([.evcClear m x, .evcFreeze m x] : List Instr),
      ∃ t, Sys2Proof.Machine.exec i s = .next t ∧
        t = { s with chip := { s.chip with fld := t.chip.fld
                                           bus := t.chip.bus
                                           pipes := t.chip.pipes
                                           aevc := t.chip.aevc } }) ∧
    (∀ i ∈ ([.fltHistClear m] : List Instr),
      ∃ t, Sys2Proof.Machine.exec i s = .next t ∧
        t = { s with chip := { s.chip with fld := t.chip.fld, bus := t.chip.bus, flt := t.chip.flt } }) ∧
    (∀ i ∈ ([.swap m x y] : List Instr),
      ∃ t, Sys2Proof.Machine.exec i s = .next t ∧
        t = { s with chip := { s.chip with fld := t.chip.fld
                                           bus := t.chip.bus
                                           ports := t.chip.ports
                                           engs := t.chip.engs
                                           atr := t.chip.atr } }) ∧
    (∀ i ∈ ([.bringUp m n, .takeDown m n, .retrain m n] : List Instr),
      ∃ t, Sys2Proof.Machine.exec i s = .next t ∧
        t = { s with chip := { s.chip with fld := t.chip.fld
                                           bus := t.chip.bus
                                           ports := t.chip.ports
                                           atr := t.chip.atr
                                           gal := t.chip.gal
                                           flt := t.chip.flt
                                           cnt := t.chip.cnt } }) ∧
    (∀ i ∈ ([.fence m x y, .unfence m x y] : List Instr), x ≠ 3 →
      ∃ t, Sys2Proof.Machine.exec i s = .next t ∧
        t = { s with chip := { s.chip with fld := t.chip.fld
                                           bus := t.chip.bus
                                           fenced := t.chip.fenced
                                           ports := t.chip.ports
                                           pipes := t.chip.pipes
                                           atr := t.chip.atr
                                           gal := t.chip.gal
                                           flt := t.chip.flt
                                           cnt := t.chip.cnt } }) ∧
    (∀ i ∈ ([.fence m 3 y, .unfence m 3 y] : List Instr),
      ∃ t, Sys2Proof.Machine.exec i s = .next t ∧
        t = { s with chip := { s.chip with fld := t.chip.fld
                                           bus := t.chip.bus
                                           fenced := t.chip.fenced
                                           atr := t.chip.atr
                                           flt := t.chip.flt
                                           cnt := t.chip.cnt
                                           host := t.chip.host
                                           rings := t.chip.rings
                                           freeCtr := t.chip.freeCtr } }) ∧
    (∀ i ∈ ([.rcFieldRead m x y, .pairLowRead m x y, .timeLatchRead m, .cycAngleLatchRead m, .tsqEntryRead m b n,
      .tblResRead m h, .lrnRecRead m h, .accessErrRead m, .ceResRead m x, .evcRecordRead m x, .sbRead xf] : List Instr),
      ∃ t, Sys2Proof.Machine.exec i s = .next t ∧
        t = { s with chip := { s.chip with fld := t.chip.fld
                                           freeCtr := t.chip.freeCtr
                                           bus := t.chip.bus
                                           caps := t.chip.caps
                                           tsq := t.chip.tsq
                                           fenced := t.chip.fenced
                                           ports := t.chip.ports
                                           pipes := t.chip.pipes
                                           lrn := t.chip.lrn
                                           atr := t.chip.atr
                                           gal := t.chip.gal
                                           flt := t.chip.flt
                                           cnt := t.chip.cnt } })

/-! ## Power, rails and pins -/

/-- POR, the rise of V3P3_AUX and the end of hold-up reset the whole device: no image in force, a boot due, device time 0, the KG
lock armed, the fuses sensed from the OTP array, the straps sampled; the OTP array and the memories outside are unchanged. -/
def Obligations.PowerOnResets : Prop :=
  ∀ (s : State) (b a : Nat) (f : List (Nat × Nat)),
    (∃ t, Sys2Proof.Machine.exec (.por b a f) s = .next t ∧ t.otp = s.otp ∧ t.chip.host = s.chip.host ∧
      t.chip.flash = s.chip.flash ∧ t.chip.img.inForce = none ∧ t.chip.img.load = none ∧ t.chip.ctl.bootDue = true ∧
      t.chip.ctl.standby = false ∧ t.chip.bus.kgOpen = false ∧ t.chip.tim.devT = 0 ∧
      t.chip.sec.sensed = sensedRows s.otp (s.chip.fuseFound f).sec.worn ∧
      t.chip.pins.auxGood = true ∧ t.chip.pins.vin48 = true ∧ t.chip.pins.pwrGood = true ∧ t.chip.pins.resetN = true ∧
      t.chip.pins.linkUp = false ∧ t.chip.pins.bootSrc = b % 4 ∧ t.chip.pins.sbAddr = a % 8) ∧
    (s.chip.pins.auxGood = false →
      ∃ t, Sys2Proof.Machine.exec (.auxGoodRise a) s = .next t ∧ t.otp = s.otp ∧ t.chip.host = s.chip.host ∧
        t.chip.flash = s.chip.flash ∧ t.chip.img.inForce = none ∧ t.chip.ctl.bootDue = true ∧ t.chip.ctl.standby = false ∧
        t.chip.bus.kgOpen = false ∧ t.chip.tim.devT = 0 ∧
        t.chip.sec.sensed = sensedRows s.otp s.chip.sec.worn ∧ t.chip.pins.auxGood = true ∧
        t.chip.pins.linkUp = false ∧ t.chip.pins.sbAddr = a % 8) ∧
    (s.chip.pins.holdup = true →
      ∃ t, Sys2Proof.Machine.exec (.auxHoldupExpire f) s = .next t ∧ t.otp = s.otp ∧ t.chip.host = s.chip.host ∧
        t.chip.flash = s.chip.flash ∧ t.chip.img.inForce = none ∧ t.chip.ctl.bootDue = true ∧ t.chip.bus.kgOpen = false ∧
        t.chip.tim.devT = 0 ∧
        t.chip.sec.sensed = sensedRows s.otp (s.chip.fuseFound f).sec.worn ∧ t.chip.pins.holdup = false ∧ t.chip.pins.pwrGood = false ∧
        t.chip.pins.linkUp = false)

/-- The rails, PWR_EN, RESET_N, PERST_N and the host link: a loss of V3P3_AUX starts the hold-up; VIN48 below its range and a low
PWR_EN enter STANDBY at once; PWR_GOOD rises with its rails and samples the straps; a high PWR_EN ends STANDBY, senses the fuses and
makes a boot due; RESET_N low for 2 µs is a PIN reset, and a shorter pulse is none; its release samples the straps; PERST_N is a DEV
reset that keeps the image and device time; a lost link raises HOST_LINK. The OTP array is unchanged by all of them. -/
def Obligations.RailsPinsAndHostLink : Prop :=
  (∀ (s : State) (b a n : Nat) (f : List (Nat × Nat)),
        (s.chip.pins.auxGood = true → ∃ t, Sys2Proof.Machine.exec .auxLoss s = .next t ∧ t.otp = s.otp ∧
          t.chip.pins.auxGood = false ∧ t.chip.pins.holdup = true ∧ t.chip.fld = s.chip.fld) ∧
        (∃ t, Sys2Proof.Machine.exec .vin48Rise s = .next t ∧ t.chip.pins.vin48 = true ∧ t.chip.fld = s.chip.fld) ∧
        (s.chip.ctl.standby = false → s.chip.pins.auxGood = true → s.chip.pins.pwrGood = true →
          ∃ t, Sys2Proof.Machine.exec .vin48Fall s = .next t ∧ t.otp = s.otp ∧ t.chip.pins.vin48 = false ∧
            t.chip.pins.pwrGood = false ∧ t.chip.ctl.standby = true ∧ 0 ∈ t.chip.flt.voltCrit ∧ t.chip.atr = Atr.reset) ∧
        (s.chip.pins.pwrEn = true → s.chip.pins.auxGood = true → s.chip.pins.vin48 = true → s.chip.ctl.standby = false →
          s.chip.pins.pwrGood = false → s.chip.pins.resetN = true →
          ∃ t, Sys2Proof.Machine.exec (.pwrGoodRise b) s = .next t ∧ t.chip.pins.pwrGood = true ∧ t.chip.pins.bootSrc = b % 4 ∧
            t.chip.fld = s.chip.fld) ∧
        (s.chip.pins.auxGood = true → ∃ t, Sys2Proof.Machine.exec .pwrEnFall s = .next t ∧ t.otp = s.otp ∧
          t.chip.pins.pwrEn = false ∧ t.chip.ctl.standby = true ∧ t.chip.pins.pwrGood = false) ∧
        (s.chip.ctl.standby = true → s.chip.pins.auxGood = true → s.chip.pins.pwrEn = false → s.chip.standbyBarred = false →
          ∃ t, Sys2Proof.Machine.exec .pwrEnRise s = .next t ∧ t.otp = s.otp ∧ t.chip.pins.pwrEn = true ∧
            t.chip.ctl.standby = false ∧ t.chip.ctl.bootDue = true ∧ t.chip.img.inForce = none ∧
            t.chip.sec.sensed = sensedRows s.otp s.chip.sec.worn) ∧
        (2000 ≤ n → s.chip.pins.auxGood = true →
          ∃ t, Sys2Proof.Machine.exec (.resetNAssert n) s = .next t ∧ t.otp = s.otp ∧ t.chip.pins.resetN = false ∧
            t.chip.pins.linkUp = false ∧ t.chip.img.inForce = none ∧ t.chip.ctl.bootDue = true ∧ t.chip.tim.devT = 0 ∧
            t.chip.bus.kgOpen = false) ∧
        (n < 2000 → ∃ t, Sys2Proof.Machine.exec (.resetNAssert n) s = .next t ∧ t = s) ∧
        (s.chip.pins.resetN = false →
          ∃ t, Sys2Proof.Machine.exec (.resetNRelease b a f) s = .next t ∧ t.otp = s.otp ∧ t.chip.pins.resetN = true ∧
            t.chip.pins.bootSrc = b % 4 ∧ t.chip.pins.sbAddr = a % 8 ∧ t.chip.ctl.bootDue = true ∧
            t.chip.sec.sensed = sensedRows s.otp (s.chip.fuseFound f).sec.worn)) ∧
  (∀ s : State,
        (s.chip.running = true →
          ∃ t, Sys2Proof.Machine.exec .perstNAssert s = .next t ∧ t.otp = s.otp ∧ t.chip.pins.perstN = false ∧
            t.chip.pins.linkUp = false ∧ t.chip.ctl.rst = some (1, 1) ∧ t.chip.bus.kgOpen = false ∧ t.chip.atr.frames = [] ∧
            t.chip.img.inForce = s.chip.img.inForce ∧ t.chip.tim.devT = s.chip.tim.devT) ∧
        (∃ t, Sys2Proof.Machine.exec .perstNRelease s = .next t ∧ t.chip.pins.perstN = true ∧ t.chip.fld = s.chip.fld) ∧
        (s.chip.pins.linkUp = true → s.chip.safe = false →
          ∃ t, Sys2Proof.Machine.exec .hostLinkDown s = .next t ∧ t.chip.pins.linkUp = false ∧
            bitOf (t.chip.get Fd.FLT_STATUS_STATUS 0 0) fHOSTLINK = true) ∧
        (s.chip.pins.perstN = true → s.chip.running = true →
          ∃ t, Sys2Proof.Machine.exec .hostLinkUp s = .next t ∧ t.chip.pins.linkUp = true ∧
            t.chip.bus.vfEnable = true ∧ t.chip.fld = s.chip.fld))

/-! ## Boot and the structure loader -/

/-- A boot that is due starts the load that the straps ask for, or ends in NO_IMAGE; an image that has passed every check is
applied: it is in force, no load runs, every domain runs. -/
def Obligations.BootAndImageApply : Prop :=
  (∀ s : State, s.chip.ctl.bootDue = true → s.chip.running = true →
      (s.chip.pins.bootSrc = 0 ∨ s.chip.pins.bootSrc = 1 ∨ (s.chip.pins.bootSrc = 3 ∧ s.chip.lifecycle = 2) →
        ∃ t, Sys2Proof.Machine.exec .boot s = .next t ∧ t.chip.ctl.bootDue = false ∧ t.otp = s.otp ∧
          t.chip.img.load = some
            { src := 0, rest := [1], byReset := false,
              addr := s.chip.get Fd.GLB_IMG_ADDR_HI_ADDR 0 0 * 2 ^ 32 + s.chip.get Fd.GLB_IMG_ADDR_LO_ADDR 0 0,
              len := s.chip.get Fd.GLB_IMG_LEN_LEN 0 0, cells := 0, hdrOk := false, staged := [], ready := none } ∧
          t.chip.img.inForce = s.chip.img.inForce ∧ t.chip.get Fd.GLB_IMG_CTRL_STATUS 0 0 = sBUSY) ∧
      (s.chip.pins.bootSrc = 2 ∨ (s.chip.pins.bootSrc = 3 ∧ s.chip.lifecycle ≠ 2) → s.chip.safe = false →
        ∃ t, Sys2Proof.Machine.exec .boot s = .next t ∧ t.chip.ctl.bootDue = false ∧ t.chip.img = s.chip.img ∧ t.otp = s.otp ∧
          bitOf (t.chip.get Fd.FLT_STATUS_STATUS 0 0) fIMAGE = true)) ∧
  (∀ (s : State) (l : Load) (im : Image), s.chip.img.load = some l → l.ready = some im →
      ∃ t, Sys2Proof.Machine.exec .imageApply s = .next t ∧ t.chip.img = { inForce := some im, load := none } ∧
        t.chip.ctl.stopped = [] ∧ t.chip.ctl.rst = none ∧ t.otp = s.otp ∧
        (l.byReset = true → t.chip.bus.kgOpen = false) ∧ (l.byReset = false → t.chip.atr.frames = s.chip.atr.frames))

/-- R49: the loader stages an image in free cells, the header check and then the body check make it ready, and one that is not
ready is not applied; every check, passed or failed, leaves the image in force. The body check goes over the header and the section
table that the header check staged, and the rest of the read. -/
def Obligations.LoaderKeepsTheImageInForce : Prop :=
  ∀ (s : State) (l : Load) (readOk eccOk : Bool) (hd d : List Nat), s.chip.img.load = some l →
    hd = s.chip.source l.src l.addr 0 640 →
    d = l.staged ++ s.chip.source l.src l.addr l.staged.length (beAt l.staged 8 4 - l.staged.length) →
    (l.hdrOk = false → s.chip.headerFail l readOk hd = none →
      ∃ t, Sys2Proof.Machine.exec (.imageHeaderCheck readOk) s = .next t ∧ t.chip.img.inForce = s.chip.img.inForce ∧
        t.chip.img.load = some { l with hdrOk := true, cells := l.stageCells, staged := hd.take (beAt hd 14 2) } ∧
        t.chip.atrFree = (s.chip.atrFree - l.stageCells) % 2 ^ 19) ∧
    (l.hdrOk = true → l.ready = none → bodyFail l.src readOk eccOk d = none →
      ∃ t, Sys2Proof.Machine.exec (.imageBodyCheck readOk eccOk) s = .next t ∧
        t.chip.img.inForce = s.chip.img.inForce ∧
        t.chip.img.load = some { l with ready := some (imageOf l.src d) }) ∧
    (∀ x : Nat × Nat, l.hdrOk = false → s.chip.headerFail l readOk hd = some x →
      ∃ t, Sys2Proof.Machine.exec (.imageHeaderCheck readOk) s = .next t ∧ t.chip.img.inForce = s.chip.img.inForce ∧
        (l.rest = [] → t.chip.img.load = none ∧ t.chip.get Fd.GLB_IMG_CTRL_STATUS 0 0 = x.2 % 16 ∧
          t.chip.get Fd.GLB_IMG_CTRL_DETAIL 0 0 = x.1 % 256)) ∧
    (∀ x : Nat × Nat, l.hdrOk = true → l.ready = none → bodyFail l.src readOk eccOk d = some x →
      ∃ t, Sys2Proof.Machine.exec (.imageBodyCheck readOk eccOk) s = .next t ∧ t.chip.img.inForce = s.chip.img.inForce ∧
        (l.rest = [] → t.chip.img.load = none ∧ t.chip.get Fd.GLB_IMG_CTRL_STATUS 0 0 = x.2 % 16)) ∧
    (l.ready = none → ∃ t, Sys2Proof.Machine.exec .imageApply s = .next t ∧ t = s)

/-! ## Resets -/

/-- A guarded write of GLB_RESET starts each reset: what is cleared at once, and what stays. -/
def Obligations.ResetCommandsStart : Prop :=
  ∀ (s : State) (m x : Nat), s.chip.serves m (viaOf m) .GLB_RESET 0 0 = true → s.chip.bus.kgOpen = true →
    (∃ t, Sys2Proof.Machine.exec (.resetDev m) s = .next t ∧ t.chip.ctl.rst = some (1, 0) ∧
      t.chip.get Fd.GLB_RESET_STATUS 0 0 = sBUSY ∧ t.chip.atr.frames = [] ∧ t.chip.img.inForce = s.chip.img.inForce ∧
      t.chip.tim.devT = s.chip.tim.devT ∧ t.chip.bus.kgOpen = false ∧ t.otp = s.otp) ∧
    (s.chip.get Fd.GLB_RESET_STATUS 0 0 ≠ sBUSY → s.chip.stopped 6 0 = true →
      ∀ (src : Nat) (rest : List Nat), s.chip.structSources m = src :: rest →
      (src = 2 → m < 32 ∧ s.chip.get Fd.GLB_IMG_ADDR_LO_ADDR 0 0 % 16 = 0) →
      ∃ t, Sys2Proof.Machine.exec (.resetStruct m) s = .next t ∧ t.chip.ctl.rst = some (2, 0) ∧
        t.chip.get Fd.GLB_RESET_STATUS 0 0 = sBUSY ∧ t.chip.get Fd.GLB_IMG_CTRL_STATUS 0 0 = sBUSY ∧
        t.chip.img.inForce = s.chip.img.inForce ∧ t.chip.bus.kgOpen = false ∧
        t.chip.img.load = some
          { src := src, rest := rest, byReset := true,
            addr := s.chip.get Fd.GLB_IMG_ADDR_HI_ADDR 0 0 * 2 ^ 32 + s.chip.get Fd.GLB_IMG_ADDR_LO_ADDR 0 0,
            len := s.chip.get Fd.GLB_IMG_LEN_LEN 0 0, cells := 0, hdrOk := false, staged := [], ready := none }) ∧
    (s.chip.get Fd.GLB_RESET_STATUS 0 0 ≠ sBUSY → x < 32 → s.chip.hallPresent x = true → s.chip.quiesced 5 x = true →
      ∃ t, Sys2Proof.Machine.exec (.resetHall m x) s = .next t ∧ t.chip.ctl.rst = some (3, x) ∧
        t.chip.get Fd.GLB_RESET_STATUS 0 0 = sBUSY ∧ (x, 0) ∈ t.chip.ctl.hallResets ∧
        t.chip.gen x = (s.chip.gen x + 1) % 256 ∧ t.chip.ctl.stopped = insNew (5, x) s.chip.ctl.stopped ∧ t.chip.img = s.chip.img ∧
        t.chip.bus.kgOpen = false) ∧
    (s.chip.get Fd.GLB_RESET_STATUS 0 0 ≠ sBUSY → x < 4 → s.chip.quiesced 1 x = true →
      ∃ t, Sys2Proof.Machine.exec (.resetPipe m x) s = .next t ∧ t.chip.ctl.rst = some (4, x) ∧
        t.chip.get Fd.GLB_RESET_STATUS 0 0 = sBUSY ∧ (t.chip.pipe x).evc = [] ∧ (t.chip.pipe x).slots = [] ∧
        (t.chip.pipe x).recs = [] ∧ t.chip.ctl.stopped = insNew (1, x) s.chip.ctl.stopped ∧ t.chip.tcam = s.chip.tcam ∧
        t.chip.bus.kgOpen = false) ∧
    (s.chip.get Fd.GLB_RESET_STATUS 0 0 ≠ sBUSY → x < 96 → s.chip.quiesced 0 x = true →
      ∃ t, Sys2Proof.Machine.exec (.resetPort m x) s = .next t ∧ t.chip.ctl.rst = some (5, x) ∧
        t.chip.get Fd.GLB_RESET_STATUS 0 0 = sBUSY ∧ (t.chip.port x).tx = none ∧ (t.chip.port x).vest = [] ∧
        t.chip.ctl.stopped = insNew (0, x) s.chip.ctl.stopped ∧ t.chip.bus.kgOpen = false)

/-- A reset of a domain that is not stopped is refused with QUIESCE_REQ, and with the KG lock armed nothing starts; when a reset
ends its STATUS reads DONE, and a port returns to service. -/
def Obligations.ResetsNeedQuiesceAndEnd : Prop :=
  (∀ (s : State) (m x : Nat), s.chip.serves m (viaOf m) .GLB_RESET 0 0 = true →
      (s.chip.bus.kgOpen = false → s.chip.ctl.rst = none →
        ∃ t, Sys2Proof.Machine.exec (.resetPipe m x) s = .next t ∧ t.chip.ctl.rst = none ∧ t.chip.pipes = s.chip.pipes ∧
          t.chip.get Fd.GLB_RESET_STATUS 0 0 = s.chip.get Fd.GLB_RESET_STATUS 0 0) ∧
      (s.chip.bus.kgOpen = true → s.chip.get Fd.GLB_RESET_STATUS 0 0 ≠ sBUSY → x < 4 → s.chip.quiesced 1 x = false →
        ∃ t, Sys2Proof.Machine.exec (.resetPipe m x) s = .next t ∧ t.chip.ctl = s.chip.ctl ∧ t.chip.pipes = s.chip.pipes ∧
          t.chip.get Fd.GLB_RESET_STATUS 0 0 = sQUIESCE)) ∧
  (∀ (s : State) (h n : Nat) (b : Bool),
      (s.chip.ctl.rst = some (1, 0) →
        ∃ t, Sys2Proof.Machine.exec (.resetComplete b) s = .next t ∧ t.chip.ctl.rst = none ∧
          t.chip.get Fd.GLB_RESET_STATUS 0 0 = sDONE ∧ t.chip.ctl.stopped = s.chip.ctl.stopped) ∧
      (s.chip.ctl.rst = some (5, n) → (s.chip.isFenced 0 n && s.chip.portDead n) = false →
        ∃ t, Sys2Proof.Machine.exec (.resetComplete b) s = .next t ∧ t.chip.ctl.rst = none ∧
          t.chip.get Fd.GLB_RESET_STATUS 0 0 = sDONE ∧ t.chip.isFenced 0 n = false ∧ t.chip.link n = lDOWN ∧
          t.chip.ctl.stopped = s.chip.ctl.stopped) ∧
      ((h, 0) ∈ s.chip.ctl.hallResets → s.chip.hallQuiet h = true → s.chip.ctl.rst = some (3, h) →
        ∃ t, Sys2Proof.Machine.exec (.hallResetComplete h) s = .next t ∧ t.chip.ctl.rst = none ∧
          t.chip.get Fd.GLB_RESET_STATUS 0 0 = sDONE ∧ (h, 0) ∉ t.chip.ctl.hallResets ∧
          t.chip.ctl.stopped = s.chip.ctl.stopped))

/-- R68: a PIPE reset of a fenced pipeline runs its self-test. A pass unfences it with DONE; a failure leaves it fenced with
FENCED. The ports stay where the remap put them. -/
def Obligations.PipeResetSelfTest : Prop :=
  ∀ (s : State) (p : Nat), s.chip.ctl.rst = some (4, p) → s.chip.isFenced 1 p = true →
    (∃ t, Sys2Proof.Machine.exec (.resetComplete true) s = .next t ∧ t.chip.isFenced 1 p = false ∧
      t.chip.get Fd.GLB_RESET_STATUS 0 0 = sDONE ∧ ∀ n, t.chip.portPipe n = s.chip.portPipe n) ∧
    (∃ t, Sys2Proof.Machine.exec (.resetComplete false) s = .next t ∧ t.chip.isFenced 1 p = true ∧
      t.chip.get Fd.GLB_RESET_STATUS 0 0 = sFENCED ∧ ∀ n, t.chip.portPipe n = s.chip.portPipe n)

/-! ## Quiesce -/

/-- STOP of a domain that runs begins, and ends in QUIESCED when the domain has come to rest, or by its timeout with the domain
running; RELEASE of a domain stopped directly returns it to running. While a load runs a RELEASE of what is not fenced is answered
STATE_ERR, and the domain stays stopped (the model's choice, log 135). -/
def Obligations.QuiesceAndRelease : Prop :=
  (∀ (s : State) (m d x : Nat), s.chip.serves m (viaOf m) .GLB_QSC_CMD 0 0 = true →
      s.chip.get Fd.GLB_QSC_CMD_STATUS 0 0 ≠ sBUSY → qscInRange d (qscIndex d x) = true →
      (s.chip.stopped d (qscIndex d x) = false → s.chip.quiesced d (qscIndex d x) = false →
        ∃ t, Sys2Proof.Machine.exec (.qscStop m d x) s = .next t ∧ t.chip.ctl.qsc = some { dom := d, idx := qscIndex d x } ∧
          t.chip.get Fd.GLB_QSC_CMD_STATUS 0 0 = sBUSY ∧ t.chip.get Fd.GLB_QSC_CMD_DOMAIN 0 0 = d % 8 ∧
          t.chip.get Fd.GLB_QSC_CMD_INDEX 0 0 = x % 128 ∧ t.chip.ctl.stopped = s.chip.ctl.stopped ∧
          t.chip.atr = s.chip.atr ∧ t.chip.ports = s.chip.ports ∧ t.chip.bus.kgOpen = false) ∧
      (s.chip.loading = true → (d = 0 ∨ d = 1 → s.chip.isFenced d (qscIndex d x) = false) →
        ∃ t, Sys2Proof.Machine.exec (.qscRelease m d x) s = .next t ∧ t.chip.ctl = s.chip.ctl ∧
          t.chip.get Fd.GLB_QSC_CMD_STATUS 0 0 = sSTATE) ∧
      ((d, qscIndex d x) ∈ s.chip.ctl.stopped → s.chip.img.inForce.isSome = true → s.chip.loading = false → (d ≠ 6 → s.chip.stopped 6 0 = false) →
        (d = 2 → (0, qscIndex d x) ∉ s.chip.ctl.stopped) → (d = 0 ∨ d = 1 → s.chip.isFenced d (qscIndex d x) = false) →
        ∃ t, Sys2Proof.Machine.exec (.qscRelease m d x) s = .next t ∧ (d, qscIndex d x) ∉ t.chip.ctl.stopped ∧
          t.chip.get Fd.GLB_QSC_CMD_STATUS 0 0 = sDONE ∧ t.chip.img = s.chip.img ∧ t.chip.bus.kgOpen = false)) ∧
  (∀ (s : State) (q : QscRun), s.chip.ctl.qsc = some q →
      (s.chip.quiet q.dom q.idx = true →
        ∃ t, Sys2Proof.Machine.exec .quiesced s = .next t ∧ t.chip.ctl.qsc = none ∧ (q.dom, q.idx) ∈ t.chip.ctl.stopped ∧
          t.chip.get Fd.GLB_QSC_CMD_STATUS 0 0 = sDONE ∧ t.chip.img = s.chip.img) ∧
      (s.chip.quiet q.dom q.idx = false → ∃ t, Sys2Proof.Machine.exec .quiesced s = .next t ∧ t = s) ∧
      (∃ t, Sys2Proof.Machine.exec .qscTimeout s = .next t ∧ t.chip.ctl.qsc = none ∧
        t.chip.ctl.stopped = s.chip.ctl.stopped ∧ t.chip.get Fd.GLB_QSC_CMD_STATUS 0 0 = sTIMEOUT))

/-- R22: a quiesce request for a domain that is stopped because its containing domain is (PORT(n) for GATE(n), DEVICE for all)
reports QUIESCED at once. R23: while a containing domain is stopped, a release of a contained domain returns STATE_ERR (a fenced
port or pipeline fails the check before it in R17). -/
def Obligations.ContainedDomains : Prop :=
  (∀ (s : State) (m d x : Nat), s.chip.serves m (viaOf m) .GLB_QSC_CMD 0 0 = true →
      s.chip.get Fd.GLB_QSC_CMD_STATUS 0 0 ≠ sBUSY → qscInRange d (qscIndex d x) = true →
      (6, 0) ∈ s.chip.ctl.stopped ∨ (d = 2 ∧ (0, qscIndex d x) ∈ s.chip.ctl.stopped) →
      ∃ t, Sys2Proof.Machine.exec (.qscStop m d x) s = .next t ∧ t.chip.get Fd.GLB_QSC_CMD_STATUS 0 0 = sDONE ∧
        t.chip.stopped d (qscIndex d x) = true ∧ t.chip.ctl.qsc = s.chip.ctl.qsc) ∧
  (∀ (s : State) (m d x : Nat), s.chip.serves m (viaOf m) .GLB_QSC_CMD 0 0 = true →
      s.chip.get Fd.GLB_QSC_CMD_STATUS 0 0 ≠ sBUSY → qscInRange d (qscIndex d x) = true →
      ¬ ((d = 0 ∨ d = 1) ∧ s.chip.isFenced d (qscIndex d x) = true) →
      ((6, 0) ∈ s.chip.ctl.stopped ∧ d ≠ 6) ∨ (d = 2 ∧ (0, qscIndex d x) ∈ s.chip.ctl.stopped) →
      ∃ t, Sys2Proof.Machine.exec (.qscRelease m d x) s = .next t ∧ t.chip.get Fd.GLB_QSC_CMD_STATUS 0 0 = sSTATE ∧
        t.chip.ctl = s.chip.ctl ∧ t.chip.img = s.chip.img)

/-! ## Low power -/

/-- Low power. Writes of GLB_PWR_CTRL: a pipeline that no port uses begins to park, and leaves PARK; STEP_EN cleared brings full
speed (the held step while throttled); a guarded write enters STANDBY, where frames in flight are lost. Events: a pipeline is parked
when it has come to rest, with its TCAM bank and counters kept, and accepts headers again when its time has passed; the clock steps up
and down; the guarded side-band write of STANDBY = 0 ends STANDBY, senses the fuses and makes a boot due. -/
def Obligations.LowPower : Prop :=
  (∀ (s : State) (m p : Nat), s.chip.serves m (viaOf m) .GLB_PWR_CTRL 0 0 = true →
        (s.chip.get Fd.GLB_PWR_CTRL_STATUS 0 0 ≠ sBUSY → p < 4 → bitOf (s.chip.get Fd.GLB_PWR_CTRL_PARK 0 0) p = false →
          (∀ n, n < 96 → s.chip.portPipe n ≠ p) →
          ∃ t, Sys2Proof.Machine.exec (.parkRequest m p) s = .next t ∧ t.chip.ctl.parking = s.chip.ctl.parking ++ [p] ∧
            bitOf (t.chip.get Fd.GLB_PWR_CTRL_PARK 0 0) p = true ∧ t.chip.get Fd.GLB_PWR_CTRL_STATUS 0 0 = sBUSY ∧
            t.chip.bus.kgOpen = false) ∧
        (s.chip.get Fd.GLB_PWR_CTRL_STATUS 0 0 ≠ sBUSY → p < 4 → bitOf (s.chip.get Fd.GLB_PWR_CTRL_PARK 0 0) p = true →
          s.chip.parked p = true →
          ∃ t, Sys2Proof.Machine.exec (.unpark m p) s = .next t ∧ p ∈ t.chip.ctl.unparking ∧ t.chip.parked p = false ∧
            (1, p) ∉ t.chip.ctl.stopped ∧ bitOf (t.chip.get Fd.GLB_PWR_CTRL_PARK 0 0) p = false) ∧
        (s.chip.get Fd.GLB_PWR_CTRL_STEP_EN 0 0 = 1 →
          ∃ t, Sys2Proof.Machine.exec (.stepEnClear m) s = .next t ∧ t.chip.get Fd.GLB_PWR_CTRL_STEP_EN 0 0 = 0 ∧
            t.chip.tim.step = (if s.chip.throttled then s.chip.heldStep else 0) ∧
            t.chip.get Fd.GLB_PWR_CTRL_PARK 0 0 = s.chip.get Fd.GLB_PWR_CTRL_PARK 0 0 ∧
            t.chip.get Fd.GLB_PWR_CTRL_STEP_FLOOR 0 0 = s.chip.get Fd.GLB_PWR_CTRL_STEP_FLOOR 0 0) ∧
        (s.chip.get Fd.GLB_PWR_CTRL_STATUS 0 0 ≠ sBUSY → s.chip.bus.kgOpen = true →
          ∃ t, Sys2Proof.Machine.exec (.standby m) s = .next t ∧ t.chip.ctl.standby = true ∧
            (s.chip.ctl.standby = false → t.chip.atr = Atr.reset ∧ t.chip.ports = []) ∧
            t.chip.tim.devT = s.chip.tim.devT ∧ t.otp = s.otp)) ∧
  (∀ (s : State) (p : Nat) (v : Word),
        (p ∈ s.chip.ctl.parking → s.chip.quiet 1 p = true → p < 4 →
          ∃ t, Sys2Proof.Machine.exec (.parkComplete p) s = .next t ∧ t.chip.parked p = true ∧ p ∉ t.chip.ctl.parking ∧
            t.chip.stopped 1 p = true ∧ t.chip.tcam = s.chip.tcam ∧ t.chip.pipes = s.chip.pipes ∧
            (without p s.chip.ctl.parking = [] → t.chip.get Fd.GLB_PWR_CTRL_STATUS 0 0 = sDONE)) ∧
        (∃ t, Sys2Proof.Machine.exec (.pipeUnparked p) s = .next t ∧ p ∉ t.chip.ctl.unparking ∧ t.chip.fld = s.chip.fld) ∧
        (s.chip.get Fd.GLB_PWR_CTRL_STEP_EN 0 0 = 1 → s.chip.running = true → s.chip.throttled = false → s.chip.loadHigh = true →
          ∃ t, Sys2Proof.Machine.exec .stepUp s = .next t ∧ t.chip.fld = s.chip.fld ∧ t.chip.tim =
            { s.chip.tim with
              step := 0
              stepAt := if 0 = s.chip.tim.step then s.chip.tim.stepAt else s.chip.tim.clk }) ∧
        (s.chip.loadHigh = false → ∃ t, Sys2Proof.Machine.exec .stepUp s = .next t ∧ t = s) ∧
        (s.chip.get Fd.GLB_PWR_CTRL_STEP_EN 0 0 = 1 → s.chip.running = true → s.chip.throttled = false → s.chip.loadLow = true →
          s.chip.tim.step < s.chip.get Fd.GLB_PWR_CTRL_STEP_FLOOR 0 0 →
          ∃ t, Sys2Proof.Machine.exec .stepDown s = .next t ∧ t.chip.fld = s.chip.fld ∧
            t.chip.tim = { s.chip.tim with step := s.chip.tim.step + 1, stepAt := s.chip.tim.clk }) ∧
        (s.chip.loadLow = false → ∃ t, Sys2Proof.Machine.exec .stepDown s = .next t ∧ t = s) ∧
        (s.chip.ctl.standby = true → s.chip.pins.auxGood = true → s.chip.priv mSB = true → s.chip.bus.kgOpen = true →
          bitOf v.toNat 1 = false → s.chip.standbyBarred = false →
          ∃ t, Sys2Proof.Machine.exec (.standbyExitWrite v) s = .next t ∧ t.chip.ctl.standby = false ∧
            t.chip.ctl.bootDue = true ∧ t.chip.img.inForce = none ∧
            t.chip.sec.sensed = sensedRows s.otp s.chip.sec.worn ∧ t.otp = s.otp))

/-! ## Thermal and voltage monitors -/

/-- A sensor event writes its FLT_TEMP, a rail event its FLT_VMON (the reading comes with the event, log 91). A sensor that
rises above WARN_C or CRIT_C raises THERM_WARN or THERM_CRIT and sets its condition; 135 °C enters STANDBY, holds its exit and
leaves a history entry of THERM_CRIT with that unit and DETAIL 0xFFFF; the clearing event ends each condition for which the
reading is at least 5 °C below its threshold, and brings every sensor that read more down to it. A rail outside its warning or
critical band joins the set of that condition, and a critical VIN48 or module rail (0, 3, 4, 5; the nominal values of 3 to 5
are free, log 46) enters STANDBY; a rail back inside a band leaves its set. -/
def Obligations.MonitorEvents : Prop :=
  ∀ (s : State) (i r mv : Nat) (x : Int), s.chip.safe = false → s.chip.ctl.standby = false → i < 16 → r < 6 →
    (∃ t, Sys2Proof.Machine.exec (.thermThreshold i x) s = .next t ∧
      t.chip.get Fd.FLT_TEMP_TEMP i 0 = unsigned 16 x ∧
      (s.chip.temp i ≤ 16 * (s.chip.warnC : Int) → 16 * (s.chip.warnC : Int) < x →
        bitOf (t.chip.get Fd.FLT_STATUS_STATUS 0 0) fTHERMW = true ∧ t.chip.flt.thermWarn = true) ∧
      (s.chip.temp i ≤ 16 * (s.chip.critC : Int) → 16 * (s.chip.critC : Int) < x →
        bitOf (t.chip.get Fd.FLT_STATUS_STATUS 0 0) fTHERMC = true ∧ t.chip.flt.therm = true)) ∧
    (135 * 16 ≤ x →
      ∃ t, Sys2Proof.Machine.exec (.thermTrip i x) s = .next t ∧ t.chip.ctl.standby = true ∧ t.chip.ctl.standbyHeld = true ∧
        bitOf (t.chip.get Fd.FLT_STATUS_STATUS 0 0) fTHERMC = true ∧
        (∃ e ∈ t.chip.flt.hist, e.fault = fTHERMC ∧ e.unit = i ∧ e.detail = 0xFFFF)) ∧
    (∃ t, Sys2Proof.Machine.exec (.thermConditionClear x i) s = .next t ∧
      t.chip.flt.therm = (s.chip.flt.therm && decide (16 * ((s.chip.critC : Int) - 5) < x)) ∧
      t.chip.flt.thermWarn = (s.chip.flt.thermWarn && decide (16 * ((s.chip.warnC : Int) - 5) < x)) ∧
      t.chip.get Fd.FLT_TEMP_TEMP i 0 = (if x < s.chip.temp i then unsigned 16 x else s.chip.get Fd.FLT_TEMP_TEMP i 0)) ∧
    (∃ t, Sys2Proof.Machine.exec (.voltBandExit r mv) s = .next t ∧ t.chip.get Fd.FLT_VMON_MV r 0 = mv % 2 ^ 16 ∧
      ((railOut r mv).1 = true → r ∈ t.chip.flt.voltWarn) ∧
      ((railOut r mv).2 = true → r ∈ t.chip.flt.voltCrit) ∧
      ((railOut r mv).2 = true → r ∉ s.chip.flt.voltCrit → (r = 0 ∨ 3 ≤ r) → t.chip.ctl.standby = true)) ∧
    (∃ t, Sys2Proof.Machine.exec (.voltBandRecover r mv) s = .next t ∧ t.chip.get Fd.FLT_VMON_MV r 0 = mv % 2 ^ 16 ∧
      ((railOut r mv).1 = false → r ∉ t.chip.flt.voltWarn) ∧ ((railOut r mv).2 = false → r ∉ t.chip.flt.voltCrit))

/-! ## The path of a frame -/

/-- RX_FRAME_START on a port that receives: with room the frame enters the vestibule under its ingress timestamp; without, or while
the port is remapped, it is dropped and counted; on a stopped port it is discarded. -/
def Obligations.FrameEntersTheVestibule : Prop :=
  ∀ (s : State) (n : Nat) (data : List Byte), s.chip.receives n = true → (s.chip.port n).rx = none →
    (s.chip.stopping 0 n = false → (s.chip.port n).remapping = false →
      s.chip.vestLevel n + s.chip.maxLen n + 64 ≤ 32768 →
      ∃ t, Sys2Proof.Machine.exec (.rxFrameStart n data) s = .next t ∧
        (t.chip.port n).rx = some s.chip.atr.nextFid ∧
        (t.chip.port n).vest = (s.chip.port n).vest ++ [s.chip.atr.nextFid] ∧
        t.chip.atr.nextFid = s.chip.atr.nextFid + 1 ∧ t.chip.fld = s.chip.fld ∧ t.chip.pipes = s.chip.pipes ∧
        (∀ x, x ≠ n → t.chip.port x = s.chip.port x) ∧
        (∀ x, x ≠ s.chip.atr.nextFid → t.chip.frame x = s.chip.frame x) ∧
        ∃ f, t.chip.frame s.chip.atr.nextFid = some f ∧ f.port = n ∧ f.wire = data.map (fun b => b.toNat) ∧
          f.devT = s.chip.ingressStamp n ∧ f.epoch = s.chip.epoch ∧ f.ended = false ∧ f.bad = false ∧ f.handed = false ∧
          f.arrived = 0 ∧ f.refs = 0) ∧
    (s.chip.stopping 0 n = false →
      (s.chip.port n).remapping = true ∨ 32768 < s.chip.vestLevel n + s.chip.maxLen n + 64 →
      ∃ t, Sys2Proof.Machine.exec (.rxFrameStart n data) s = .next t ∧
        t.chip.get Fd.PRT_VEST_DROP_COUNT n 0 =
          (s.chip.get Fd.PRT_VEST_DROP_COUNT n 0 + 1) % 2 ^ Fd.PRT_VEST_DROP_COUNT.width ∧
        t.chip.cnt.get 0 8 4 = (s.chip.cnt.get 0 8 4 + 1) % 2 ^ 64 ∧ t.chip.atr = s.chip.atr ∧
        t.chip.ports = s.chip.ports) ∧
    (s.chip.stopping 0 n = true →
      ∃ t, Sys2Proof.Machine.exec (.rxFrameStart n data) s = .next t ∧
        t.chip.cnt.get 0 8 4 = (s.chip.cnt.get 0 8 4 + 1) % 2 ^ 64 ∧ t.chip.fld = s.chip.fld ∧
        t.chip.atr = s.chip.atr ∧ t.chip.ports = s.chip.ports)

/-- HEADER_HANDOFF: the oldest frame of the port that has not been handed off, ended or cut through with 256 bytes arrived, is
parsed and classified by the port's pipeline and joins the end of its completion buffer. -/
def Obligations.HeaderIsHandedOff : Prop :=
  ∀ (s : State) (p n a fid : Nat) (f : Frame),
    (s.chip.port n).vest.find? (fun i => ((s.chip.frame i).map (fun f => !f.handed)).getD false) = some fid →
    s.chip.frame fid = some f → s.chip.running = true → s.chip.pipeUp p = true → s.chip.portPipe n = p →
    (s.chip.port n).remapping = false → s.chip.stopping 1 p = false → (s.chip.pipe p).buf.length < 64 →
    f.ended = true ∨ (s.chip.flag Fd.PRT_MAC_CTRL_CUT_THRU f.port 0 = true ∧ 256 ≤ f.wireLen ∧ 256 ≤ a) →
    ∃ t, Sys2Proof.Machine.exec (.headerHandoff p n a) s = .next t ∧
      (t.chip.pipe p).buf = (s.chip.pipe p).buf ++ [fid] ∧
      ∃ g, t.chip.frame fid = some g ∧ g.handed = true ∧ g.pipe = p ∧ g.hdr.isSome = true ∧ g.data = f.data ∧
        g.wire = f.wire ∧ g.port = f.port ∧ g.ended = f.ended ∧ g.refs = f.refs

/-- RX_FRAME_END: a frame that fails a check of reception before its header was handed off is counted for the first check it
fails, and is gone; one that passes has ended, and is not bad. -/
def Obligations.FrameEnds : Prop :=
  ∀ (s : State) (n fid : Nat) (e : RxErr) (f : Frame), (s.chip.port n).rx = some fid → s.chip.frame fid = some f →
    (∀ i : Nat, s.chip.rxCheck n f.wire e = some i → f.handed = false → f.bad = false → f.port = n → n < 96 →
      s.chip.get Fd.PRT_ERR_BUDGET_WINDOW_MS n 0 = 0 →
      ∃ t, Sys2Proof.Machine.exec (.rxFrameEnd n e) s = .next t ∧ (t.chip.port n).rx = (s.chip.port n).rxHeld ∧ t.chip.frame fid = none ∧
        fid ∉ (t.chip.port n).vest ∧
        t.chip.get Fd.PRT_RX_CNT_COUNT n i = min (s.chip.get Fd.PRT_RX_CNT_COUNT n i + 1) (2 ^ 32 - 1) ∧
        t.chip.get Fd.PRT_RX_CNT_COUNT n 4 = min (s.chip.get Fd.PRT_RX_CNT_COUNT n 4 + e.fecCorr) (2 ^ 32 - 1) ∧
        t.chip.cnt.get 0 8 4 = (s.chip.cnt.get 0 8 4 + 1) % 2 ^ 64 ∧ t.chip.atr.queues = s.chip.atr.queues) ∧
    (s.chip.rxCheck n f.wire e = none → (s.chip.msReceive n f.wire).pass = true →
      (s.chip.msReceive n f.wire).icv = false → f.bad = false → f.staged = false → f.hdr = none →
      ∃ t, Sys2Proof.Machine.exec (.rxFrameEnd n e) s = .next t ∧ (t.chip.port n).rx = (s.chip.port n).rxHeld ∧
        t.chip.cnt.get 0 8 4 = s.chip.cnt.get 0 8 4 ∧ t.chip.atr.queues = s.chip.atr.queues ∧
        (∀ i : Nat, i ≠ 4 → t.chip.get Fd.PRT_RX_CNT_COUNT n i = s.chip.get Fd.PRT_RX_CNT_COUNT n i) ∧
        ∃ g, t.chip.frame fid = some g ∧ g.ended = true ∧ g.bad = false ∧ g.data = f.data ∧ g.arrived = f.wireLen)

/-- STAGE8_COMPLETE takes the header at the head of the completion buffer: that of a frame found bad meanwhile is dropped; a
frame without a hall, or of a frozen hall, is discarded; every other goes through stages 7 and 8. -/
def Obligations.HeadersLeaveInOrder : Prop :=
  ∀ (s : State) (p fid : Nat) (rest : List Nat) (f : Frame) (h : Hdr), (s.chip.pipe p).buf = fid :: rest →
    s.chip.frame fid = some f → s.chip.running = true →
    (f.bad = true →
      ∃ t, Sys2Proof.Machine.exec (.stage8Complete p) s = .next t ∧ (t.chip.pipe p).buf = rest ∧ t.chip.frame fid = none ∧
        t.chip.atr.queues = s.chip.atr.queues) ∧
    (f.bad = false → f.ended = true → f.hdr = some h →
      s.chip.frameHall f.port h.vid = none ∨
        (∃ hall, s.chip.frameHall f.port h.vid = some hall ∧ s.chip.hallState hall = 3) →
      ∃ t, Sys2Proof.Machine.exec (.stage8Complete p) s = .next t ∧ (t.chip.pipe p).buf = rest ∧
        t.chip.cnt.get 0 8 4 = (s.chip.cnt.get 0 8 4 + 1) % 2 ^ 64 ∧ t.chip.atr.queues = s.chip.atr.queues ∧
        t.chip.tbl = s.chip.tbl) ∧
    (f.bad = false → f.hdr = some h → f.ended = true ∨ s.chip.flag Fd.PRT_PARSE_CTRL_TRAILER f.port 0 = false →
      ∃ (t : State) (c : Chip), Sys2Proof.Machine.exec (.stage8Complete p) s = .next t ∧ (c.pipe p).buf = rest ∧
        c.frame fid = some { f with staged := true } ∧ c.ports = s.chip.ports ∧ c.atr.queues = s.chip.atr.queues ∧
        t.chip = (c.stage7 p fid f.port { f with staged := true } h).settleVest fid)

/-- LEARN_INSERT: the oldest learn of the queue whose key the table does not hold, with quota and a free way, becomes a dynamic
entry, and LEARNED counts it. -/
def Obligations.LearnInsertsAnEntry : Prop :=
  ∀ (s : State) (p i : Nat) (l : Learn) (rest : List Learn), (s.chip.pipe p).learnQ = l :: rest →
    (∀ k, s.chip.tblEcc.get 0 tFDB k = 0) → s.chip.flt.eccNext.get 0 1 tFDB = 0 → l.kind < 8 →
    (s.chip.fdbFind l.mac l.fid l.hall).1 = none →
    s.chip.excess { kind := l.kind, target := l.target, pair := l.pair, port := l.port } = false →
    s.chip.tblUse tFDB l.hall < s.chip.tblQuota tFDB l.hall →
    s.chip.hashPlace tFDB (s.chip.tblSize tFDB) (fdbKey l.mac l.fid l.hall) = some i →
    ∃ t, Sys2Proof.Machine.exec (.learnInsert p) s = .next t ∧ t.chip.entry tFDB i = some (tblClean tFDB (learnWords l)) ∧
      (t.chip.pipe p).learnQ = rest ∧
      t.chip.get Fd.TBL_FDB_EVT_COUNT eLEARNED 0 = min (s.chip.get Fd.TBL_FDB_EVT_COUNT eLEARNED 0 + 1) (2 ^ 32 - 1) ∧
      ∀ tb k, (tb, k) ≠ (tFDB, i) → t.chip.entry tb k = s.chip.entry tb k

/-! ## Stage 9 and transmission -/

/-- TX_SELECT on an idle port that is UP: the head of the leaf queue that the landings choose, if it is neither stale nor for the
resequencer to hold, leaves its queue and is on the wire. What falls on the same TIME_CLK edge comes first (R289): `e` is the block
after it. -/
def Obligations.SelectionStartsACopy : Prop :=
  ∀ (s : State) (n : Nat) (w : Path) (rest : List Copy) (f : Frame) (bytes : List Nat),
    let e := s.chip.edgeEvents n
    let c := e.dropDeficits n
    n < 96 → s.chip.running = true → e.running = true → e.imageOff = false → (e.port n).tx = none → e.isUp n = true →
    e.stopping 0 n = false → c.choose n = some w → c.stale w.child.head = false →
    (w.child.head.seqDone = true ∨ (c.atr.rsq = [] ∧ c.sprayTag w.child.head = none)) →
    c.queue n w.child.q = w.child.head :: rest → c.frame w.child.head.fid = some f → f.ecc = [] →
    (f.lenKnown && c.tooLong n w.child.q w.child.head) = false → (c.egressBytes n w.child.head f).1 = some bytes →
    c.idxWith Fd.ATR_MIR_CTRL_ENABLE = [] →
    ∃ t x, Sys2Proof.Machine.exec (.txSelect n) s = .next t ∧ (t.chip.port n).tx = some x ∧ x.copy = w.child.head ∧
      x.q = w.child.q ∧ x.svc = c.qSvc n w.child.q ∧ x.sent = 0 ∧ x.t0 = s.chip.tim.clk ∧
      t.chip.queue n w.child.q = rest

/-- TX_COPY_END and PREEMPT_FRAGMENT_END: a copy that ends gives up its reference of the frame, with the last one the frame's cells
return to the free ones but for those of donor banks, and a stomped copy counts as aborted; a copy that cuts through does not end
before its frame has; a preemptable copy is set aside at a fragment's end under a hold, once its gate is closed, or for an express
copy that waits, and otherwise goes on. -/
def Obligations.TransmissionsEnd : Prop :=
  ∀ (s : State) (n sent : Nat) (x : Tx) (f : Frame), (s.chip.port n).tx = some x →
    (s.chip.frame x.copy.fid = some f → 2 ≤ f.refs →
      (x.stomp = false → f.ended = true →
        ∃ t, Sys2Proof.Machine.exec (.txCopyEnd n) s = .next t ∧ (t.chip.port n).tx = none ∧
          t.chip.frame x.copy.fid = some { f with refs := f.refs - 1 } ∧
          t.chip.cnt.get 0 8 1 = (s.chip.cnt.get 0 8 1 + 1) % 2 ^ 64 ∧ t.chip.atr.queues = s.chip.atr.queues) ∧
      (x.stomp = true →
        ∃ t, Sys2Proof.Machine.exec (.txCopyEnd n) s = .next t ∧ (t.chip.port n).tx = none ∧
          t.chip.frame x.copy.fid = some { f with refs := f.refs - 1 } ∧
          t.chip.get Fd.PRT_RX_CNT_COUNT n 11 = min (s.chip.get Fd.PRT_RX_CNT_COUNT n 11 + 1) (2 ^ 32 - 1) ∧
          t.chip.cnt = s.chip.cnt ∧ t.chip.atr.queues = s.chip.atr.queues)) ∧
    (s.chip.frame x.copy.fid = some f → f.refs ≤ 1 → (x.stomp = true ∨ f.ended = true) →
      ∃ t, Sys2Proof.Machine.exec (.txCopyEnd n) s = .next t ∧ (t.chip.port n).tx = none ∧
        t.chip.atrFree = (s.chip.atrFree + (f.cells.filter (fun a => !s.chip.donor a)).length) % 2 ^ 19 ∧
        (t.chip.frame x.copy.fid = none ∨
          t.chip.frame x.copy.fid = some { f with cells := [], charged := 0, refs := 0 }) ∧
        t.chip.atr.queues = s.chip.atr.queues) ∧
    (s.chip.frame x.copy.fid = some f → x.stomp = false → f.ended = false →
      ∃ t, Sys2Proof.Machine.exec (.txCopyEnd n) s = .next t ∧ t = s) ∧
    (x.express = false → s.chip.pmacActive n = true →
      (s.chip.held n = true ∨ bitOf (s.chip.gatesNow n) x.svc = false ∨
        (s.chip.svcPaths n).any (fun p => s.chip.express n (7 - p.child.num)) = true) →
      x.sent + 64 * (1 + s.chip.get Fd.PRT_PMAC_CTRL_ADD_FRAG n 0) ≤ sent → sent < x.len →
      ∃ t, Sys2Proof.Machine.exec (.preemptFragmentEnd n sent) s = .next t ∧ (t.chip.port n).tx = none ∧
        (t.chip.port n).held = some { x with sent := sent } ∧ t.chip.fld = s.chip.fld ∧ t.chip.atr = s.chip.atr) ∧
    (x.express = true ∨ s.chip.pmacActive n = false ∨ x.len ≤ sent ∨
        (s.chip.held n = false ∧ bitOf (s.chip.gatesNow n) x.svc = true ∧
          (s.chip.svcPaths n).any (fun p => s.chip.express n (7 - p.child.num)) = false) →
      ∃ t, Sys2Proof.Machine.exec (.preemptFragmentEnd n sent) s = .next t ∧ t = s)

/-- SHAPER_REFILL: each shaper's credit grows by its rate over 64 ns, to at most HI_CREDIT while it holds copies and to at most 0
otherwise, and is 0 when it holds none and was not negative; a service's shaper stands while its gate is closed; each refill edge
counts once. The writes that set a shaper: the rate and the enable read as written, a shaper switched on or off starts from credit
0, and a new rate leaves the credit (a write on a refill edge comes after that edge's refill). -/
def Obligations.Shapers : Prop :=
  (∀ (s : State) (n lvl i : Nat), s.chip.shapers.Nodup →
      (s.chip.tim.clk / 64 ≤ s.chip.tim.refills → ∃ t, Sys2Proof.Machine.exec .shaperRefill s = .next t ∧ t = s) ∧
      (s.chip.tim.refills < s.chip.tim.clk / 64 →
      ∃ t, Sys2Proof.Machine.exec .shaperRefill s = .next t ∧ t.chip.fld = s.chip.fld ∧ t.chip.atr = s.chip.atr ∧
        t.chip.tim.refills = s.chip.tim.clk / 64 ∧
        ((n, lvl, i) ∉ s.chip.shapers → t.chip.credit n lvl i = s.chip.credit n lvl i) ∧
        ((n, lvl, i) ∈ s.chip.shapers → lvl = 1 → bitOf (s.chip.gatesNow n) i = false →
          t.chip.credit n lvl i = s.chip.credit n lvl i) ∧
        ((n, lvl, i) ∈ s.chip.shapers → (lvl = 1 → bitOf (s.chip.gatesNow n) i = true) →
          t.chip.credit n lvl i =
            (if s.chip.nodeBusy n lvl i then
              min (s.chip.credit n lvl i + 8 * s.chip.shapeRate n lvl i) ((s.chip.shapeHi n lvl i : Int) * 10 ^ 6)
            else if s.chip.credit n lvl i < 0 then min (s.chip.credit n lvl i + 8 * s.chip.shapeRate n lvl i) 0
            else 0)))) ∧
  (∀ (s : State) (m n kind i : Nat) (v : Word), wfShaper kind i = true →
      (s.chip.serves m (viaOf m) (shaperRateReg kind) n i = true →
        ∃ t, Sys2Proof.Machine.exec (.shaperRateWrite m n kind i v) s = .next t ∧
          t.chip.shapeRate n (shaperLevel kind) i = max 1 (min 200000000 v.toNat) ∧
          t.chip.ports = s.chip.edgeRefill.ports ∧ (s.chip.tim.clk % 64 ≠ 0 → t.chip.ports = s.chip.ports) ∧
          t.chip.bus.kgOpen = false) ∧
      (s.chip.serves m (viaOf m) (shaperCfgReg kind) n i = true →
        ∃ t, Sys2Proof.Machine.exec (.shaperEnableWrite m n kind i v) s = .next t ∧
          t.chip.shaped n (shaperLevel kind) i = bitOf v.toNat 31 ∧
          (bitOf v.toNat 31 ≠ s.chip.shaped n (shaperLevel kind) i → t.chip.credit n (shaperLevel kind) i = 0) ∧
          (bitOf v.toNat 31 = s.chip.shaped n (shaperLevel kind) i →
            t.chip.credit n (shaperLevel kind) i = s.chip.credit n (shaperLevel kind) i) ∧ t.chip.bus.kgOpen = false))

/-! ## Gate lists, stream gates -/

/-- GATE_LIST_BOUNDARY: a list that waits for its base runs from its first entry when its period start has come; a list that runs
goes to its next entry at the end of the present one, and from the end of the period to the first entry again. -/
def Obligations.GateListsAdvance : Prop :=
  ∀ (s : State) (n : Nat), let p := gclActive s.chip n
    (s.chip.gclState n = 1 → s.chip.reached p.cu (s.chip.port n).gclStart = true →
      ∃ t, Sys2Proof.Machine.exec (.gateListBoundary n) s = .next t ∧ t.chip.gclState n = 2 ∧
        t.chip.get Fd.SCH_GCL_STATUS_CUR_ENTRY n 0 = p.start ∧
        t.chip.get Fd.SCH_GCL_STATUS_CYCLES n 0 = (s.chip.get Fd.SCH_GCL_STATUS_CYCLES n 0 + 1) % 2 ^ 16 ∧
        (gclOp s.chip n p.start = 1 → t.chip.held n = true) ∧ (gclOp s.chip n p.start = 2 → t.chip.held n = false) ∧
        t.chip.atr = s.chip.atr) ∧
    (s.chip.gclState n = 2 → (s.chip.port n).gclSwitch = false → s.chip.reached p.cu (s.chip.port n).gclEnd = true →
      let k := (s.chip.get Fd.SCH_GCL_STATUS_CUR_ENTRY n 0 + 256 - p.start) % 256
      ((s.chip.port n).gclEnd < (s.chip.port n).gclStart + p.period →
        ∃ t, Sys2Proof.Machine.exec (.gateListBoundary n) s = .next t ∧ t.chip.gclState n = 2 ∧
          t.chip.get Fd.SCH_GCL_STATUS_CUR_ENTRY n 0 = p.entry (k + 1) ∧
          t.chip.gatesNow n = gclGates s.chip n (p.entry (k + 1)) ∧
          (t.chip.port n).gclStart = (s.chip.port n).gclStart ∧ t.chip.atr = s.chip.atr) ∧
      ((s.chip.port n).gclStart + p.period ≤ (s.chip.port n).gclEnd → s.chip.gclSwitchBusy n = false →
        ∃ t, Sys2Proof.Machine.exec (.gateListBoundary n) s = .next t ∧
          t.chip.get Fd.SCH_GCL_STATUS_CUR_ENTRY n 0 = p.start ∧
          t.chip.gatesNow n = gclGates s.chip n p.start ∧
          t.chip.get Fd.SCH_GCL_STATUS_CYCLES n 0 = (s.chip.get Fd.SCH_GCL_STATUS_CYCLES n 0 + 1) % 2 ^ 16 ∧
          (t.chip.port n).gclStart = (s.chip.port n).gclEnd)) ∧
    (s.chip.gclState n = 2 → p.cu = false → (s.chip.port n).gclSwitch = false → s.chip.gclSwitchBusy n = false →
      (s.chip.port n).gclStart + p.period ≤ (s.chip.port n).gclEnd → gclOp s.chip n p.start = 1 →
      (s.chip.port n).gclEnd * 2 ^ 48 ≤ s.chip.tim.devT + s.chip.get Fd.SCH_GCL_HOLD_HOLD_ADV_NS n 0 * 2 ^ 48 →
      ∃ t, Sys2Proof.Machine.exec (.holdAssert n) s = .next t ∧ t.chip.held n = true ∧ t.chip.gclState n = 2 ∧
        t.chip.get Fd.SCH_GCL_STATUS_CUR_ENTRY n 0 = s.chip.get Fd.SCH_GCL_STATUS_CUR_ENTRY n 0 ∧
        (t.chip.port n).gclStart = (s.chip.port n).gclStart ∧ (t.chip.port n).gclEnd = (s.chip.port n).gclEnd ∧
        t.chip.atr = s.chip.atr)

/-- SWITCH waits BUSY for the period end, CANCEL takes it back, and SCH_GCL_CTRL starts a list (FALLBACK on a stopped gate) or
stops it; while the list runs with its gate, a write of the control word is ignored, sets ACTIVE_WRITE and is recorded. -/
def Obligations.GateListCommands : Prop :=
  ∀ (s : State) (m n : Nat) (v : Word),
    (s.chip.serves m (viaOf m) .SCH_GCL_CMD n 0 = true →
      (s.chip.gclSwitchBusy n = false → s.chip.flag Fd.SCH_GCL_CTRL_ENABLE n 0 = true →
        s.chip.get Fd.SCH_GCL_PEND_CTRL_LEN n 0 ≠ 0 → rangesOverlap (gclActive s.chip n) (gclPending s.chip n) = false →
        ∃ t, Sys2Proof.Machine.exec (.gclSwitch m n) s = .next t ∧ t.chip.get Fd.SCH_GCL_CMD_STATUS n 0 = sBUSY ∧
          gclActive t.chip n = gclActive s.chip n ∧ t.chip.ports = s.chip.ports ∧ t.chip.bus.kgOpen = false) ∧
      (s.chip.gclSwitchBusy n = true →
        ∃ t, Sys2Proof.Machine.exec (.gclCancel m n) s = .next t ∧ t.chip.get Fd.SCH_GCL_CMD_STATUS n 0 = sDONE ∧
          gclActive t.chip n = gclActive s.chip n ∧ (t.chip.port n).gclSwitch = false ∧ t.chip.bus.kgOpen = false)) ∧
    (s.chip.serves m (viaOf m) .SCH_GCL_CTRL n 0 = true →
      (s.chip.flag Fd.SCH_GCL_CTRL_ENABLE n 0 = false → s.chip.stopped 2 n = true → bitOf v.toNat 31 = true →
        ∃ t, Sys2Proof.Machine.exec (.gclEnableWrite m n v) s = .next t ∧ t.chip.gclState n = 3 ∧
          t.chip.flag Fd.SCH_GCL_CTRL_ENABLE n 0 = true ∧ t.chip.ports = s.chip.ports) ∧
      (s.chip.flag Fd.SCH_GCL_CTRL_ENABLE n 0 = false → s.chip.stopped 2 n = false → bitOf v.toNat 31 = true →
        bitOf v.toNat 30 = false →
        ∃ t, Sys2Proof.Machine.exec (.gclEnableWrite m n v) s = .next t ∧ t.chip.gclState n = 1 ∧
          t.chip.flag Fd.SCH_GCL_CTRL_ENABLE n 0 = true ∧ t.chip.get Fd.SCH_GCL_CTRL_START n 0 = bits 7 0 v.toNat ∧
          t.chip.get Fd.SCH_GCL_CTRL_LEN n 0 = bits 24 16 v.toNat) ∧
      (s.chip.flag Fd.SCH_GCL_CTRL_ENABLE n 0 = true → s.chip.stopped 2 n = false →
        ∃ t, Sys2Proof.Machine.exec (.gclEnableWrite m n v) s = .next t ∧ gclActive t.chip n = gclActive s.chip n ∧
          t.chip.flag Fd.SCH_GCL_CTRL_ENABLE n 0 = true ∧ t.chip.get Fd.SCH_GCL_ERR_ACTIVE_WRITE n 0 = 1 ∧
          t.chip.flag Fd.GLB_ACCESS_ERR_VALID 0 0 = true ∧ t.chip.ports = s.chip.ports) ∧
      (s.chip.stopped 2 n = true → bitOf v.toNat 31 = false →
        ∃ t, Sys2Proof.Machine.exec (.gclEnableWrite m n v) s = .next t ∧ t.chip.gclState n = 0 ∧
          t.chip.held n = false ∧ t.chip.gatesNow n = 255))

/-- STREAM_GATE_BOUNDARY opens a gate's first list entry when its cycle starts, and REOPEN clears CLOSED_INV. -/
def Obligations.StreamGatesAdvance : Prop :=
  ∀ (s : State) (m g : Nat),
    (s.chip.flag Fd.TBL_SGATE_CTRL_ENABLE g 0 = true → (sgP s.chip g).cu = false → (sgate s.chip g).waiting = true →
      s.chip.reached false (sgate s.chip g).until_ = true →
      ∃ t, Sys2Proof.Machine.exec (.streamGateBoundary g) s = .next t ∧
        t.chip.get Fd.TBL_SGATE_STATUS_OPEN g 0 = s.chip.get Fd.TBL_SGLIST_W0_OPEN ((sgP s.chip g).start % 4096) 0 ∧
        t.chip.get Fd.TBL_SGATE_STATUS_CUR_ENTRY g 0 = 0 ∧ (sgate t.chip g).waiting = false ∧
        (sgate t.chip g).start = (sgate s.chip g).until_ ∧ (sgate t.chip g).octets = 0 ∧
        ∀ x, x ≠ g → sgate t.chip x = sgate s.chip x) ∧
    (s.chip.serves m (viaOf m) .TBL_SGATE_REOPEN g 0 = true → s.chip.priv m = true →
      ∃ t, Sys2Proof.Machine.exec (.streamGateReopen m g) s = .next t ∧
        t.chip.get Fd.TBL_SGATE_STATUS_CLOSED_INV g 0 = 0 ∧ t.chip.sgate = s.chip.sgate ∧ t.chip.bus.kgOpen = false)

/-! ## The sweeper and the resequencer -/

/-- A sweep pass discards the stale descriptors at the head of a leaf queue; a pass that falls into a running one is skipped.
RSQ_RETURN, RSQ_TIMEOUT and RSQ_CONTEXT_FREE: what was diverted for a live move goes back to the head of its leaf queue and the
move ends; a timeout skips the expected sequence to the next one held; an idle context is freed; the timeout of a move
discards the OLD descriptors of that leaf queue, returns what was diverted and clears MOVE_PENDING (R33, R277). -/
def Obligations.SweeperAndResequencer : Prop :=
  (∀ (s : State) (n q : Nat) (xs : List Copy),
      (s.chip.flag Fd.ATR_AGE_CTRL_SWEEP_EN 0 0 = true → s.chip.running = true → s.chip.atr.sweeping = false → n < 96 →
        s.chip.atr.rsq = [] → s.chip.atr.queues = [((n, q), xs)] →
        ∃ t, Sys2Proof.Machine.exec .atriumSweepPass s = .next t ∧ t.chip.atr.sweeping = true ∧
          t.chip.queue n q = xs.dropWhile s.chip.stale ∧
          (s.chip.cnt.get 0 8 4 < 2 ^ 64 →
            t.chip.cnt.get 0 8 4 = (s.chip.cnt.get 0 8 4 + (xs.takeWhile s.chip.stale).length) % 2 ^ 64)) ∧
      (s.chip.atr.sweeping = true → ∃ t, Sys2Proof.Machine.exec .atriumSweepPass s = .next t ∧ t = s) ∧
      (∃ t, Sys2Proof.Machine.exec .atriumSweepDone s = .next t ∧
        t.chip.atr = { s.chip.atr with sweeping := false } ∧ t.chip.fld = s.chip.fld)) ∧
  (∀ (s : State) (n x : Nat) (r : Rsq) (h : Held),
      (s.chip.atr.rsq = [r] → r.move = some n → r.held = [h] → s.chip.mayReturn r n h = true →
        s.chip.oldInPipe n (s.chip.port n).moves = false →
        (∀ e ∈ s.chip.atr.queues, ∀ y ∈ e.2, s.chip.isOld n (s.chip.port n).moves y = false) →
        s.chip.isOld n (s.chip.port n).moves h.copy = false →
        ∃ t, Sys2Proof.Machine.exec (.rsqReturn n) s = .next t ∧ t.chip.atr.rsq = [] ∧
          t.chip.queue h.port h.q = { h.copy with seqDone := true } :: s.chip.queue h.port h.q ∧
          t.chip.get Fd.GLB_PORT_PIPE_MOVE_PENDING n 0 = 0 ∧ t.chip.atr.frames = s.chip.atr.frames) ∧
      (s.chip.atr.rsq = [r] → r.id = x → r.move = none → r.held = [h] → h.seq < 65536 →
        h.since + 1000 * max 1 (s.chip.get Fd.ATR_RSQ_CTRL_TIMEOUT_US 0 0) ≤ s.chip.tim.clk →
        ∃ t, Sys2Proof.Machine.exec (.rsqTimeout x) s = .next t ∧
          t.chip.atr.rsq = [{ r with expect := (h.seq + 1) % 65536, held := [], heldAt := s.chip.tim.clk }] ∧
          t.chip.queue h.port h.q = { h.copy with seqDone := true } :: s.chip.queue h.port h.q ∧
          t.chip.get Fd.ATR_CNT_COUNT xRSQTIMEOUT 0 = min (s.chip.get Fd.ATR_CNT_COUNT xRSQTIMEOUT 0 + 1) (2 ^ 32 - 1)) ∧
      (s.chip.atr.rsq.find? (fun r => decide (r.id = x)) = some r → r.held = [] → r.move = none →
        max r.last r.heldAt + 1000000 ≤ s.chip.tim.clk →
        ∃ t, Sys2Proof.Machine.exec (.rsqContextFree x) s = .next t ∧
          t.chip.atr.rsq = s.chip.atr.rsq.filter (fun y => decide (y.id ≠ x)) ∧ t.chip.fld = s.chip.fld) ∧
      (s.chip.atr.rsq = [r] → r.id = x → r.move = some n → r.held = [h] →
        h.since + 1000 * max 1 (s.chip.get Fd.ATR_RSQ_CTRL_TIMEOUT_US 0 0) ≤ s.chip.tim.clk →
        ∃ t, Sys2Proof.Machine.exec (.rsqTimeout x) s = .next t ∧ t.chip.atr.rsq = [] ∧
          t.chip.get Fd.GLB_PORT_PIPE_MOVE_PENDING n 0 = 0 ∧
          t.chip.queue h.port h.q =
            { h.copy with seqDone := true } :: (s.chip.queue h.port h.q).filter (fun y => !s.chip.isOld n (s.chip.heldGen h) y)))

/-! ## Periodic passes -/

/-- The duplicate sweeper deletes a SOURCE or GENERATOR entry that has been idle for longer than its time, and keeps it
otherwise. The ager sets its next pass a period later (past those that ENABLE has let go by), leaves static entries and those of a frozen hall, clears HIT and
AGE_CNT of one that was hit, counts AGE_CNT of another up and deletes it at 4 (its first pass comes at once when it is
enabled, log 103). The counter reader leaves no residue, adds each to its counter modulo 2^64, and sets the bit of a pool
whose counter wraps. A snapshot with enough room reads BUSY and holds its generation, address, pool and CLEAR, and its bytes at once
unless the reader serves another slot; without room it is NO_SPACE and touches no counter. At its end host memory holds the bytes
at the address, and the reader takes the snapshot that waits, whose edge this is (log 157). EVC CLEAR and FREEZE act on the block named
and leave the others. -/
def Obligations.PassesSnapshotsAndCounters : Prop :=
  (∀ (s : State) (i : Nat) (ws : List Nat),
      (s.chip.flag Fd.RED_DUP_CTRL_SWEEP_EN 0 0 = true → s.chip.running = true → s.chip.entry tDUP i = some ws →
        dupKind ws = kSOURCE ∨ dupKind ws = kGENERATOR →
        let idle := (s.chip.dupMs + 65536 - wb ws 2 15 0) % 65536
        ∃ t, Sys2Proof.Machine.exec .dupSweepPass s = .next t ∧
          t.chip.entry tDUP i =
            (if (if dupKind ws = kSOURCE then s.chip.forgetMs else s.chip.genAgeMs) < idle then none else some ws) ∧
          t.chip.atr = s.chip.atr) ∧
      (s.chip.flag Fd.TBL_AGE_CTRL_ENABLE 0 0 = true → s.chip.running = true → s.chip.imageOff = false →
        s.chip.agerNext ≤ s.chip.ns → (s.chip.entries tFDB).Nodup → (∀ k, s.chip.tblEcc.get 0 tFDB k = 0) →
        s.chip.entry tFDB i = some ws →
        let due := if s.chip.agerNext = 0 then s.chip.ns else s.chip.agerNext
        ∃ t, Sys2Proof.Machine.exec .agerPass s = .next t ∧
          t.chip.agerNext = due + s.chip.agePeriod * ((s.chip.ns - due) / s.chip.agePeriod + 1) ∧
          t.chip.entry tFDB i =
            (if fdbStatic ws = true ∨ s.chip.hallState (fdbHall ws) = 3 then some ws
             else if bitOf (ws.getD 4 0) 31 then some (wset (wset ws 4 31 31 0) 4 2 0 0)
             else if 4 ≤ wb ws 4 2 0 + 1 then none else some (wset ws 4 2 0 (wb ws 4 2 0 + 1)))) ∧
      ((s.chip.residue.map (fun e => e.1)).Nodup →
        ∃ t, Sys2Proof.Machine.exec .counterReaderPass s = .next t ∧ t.chip.residue = [] ∧
          (∀ p x : Nat, t.chip.cnt.get 0 p x =
            (match s.chip.residue.find p x with
             | none => s.chip.cnt.get 0 p x
             | some n => (s.chip.cnt.get 0 p x + n) % 2 ^ 64)) ∧
          (∀ p x n : Nat, p < 5 → s.chip.residue.find p x = some n → 2 ^ 64 ≤ s.chip.cnt.get 0 p x + n →
            bitOf (t.chip.get Fd.CNT_OVF_STATUS_POOLS 0 0) p = true))) ∧
  ((∀ (s : State) (m h p : Nat) (clear : Bool), s.chip.serves m (slotVia m h) .CNT_SNAP_CMD h 0 = true →
        s.chip.get Fd.CNT_SNAP_CMD_STATUS h 0 ≠ sBUSY → (h = 0 → s.chip.priv m = true) → s.chip.genCurrent h = true →
        s.chip.stopped 5 h = false → p < 8 → p ≠ 5 → p ≠ 6 → s.chip.snapAddr h % 64 = 0 →
        (64 + 8 * s.chip.snapTotal h p ≤ s.chip.get Fd.CNT_SNAP_LEN_LEN h 0 →
          ∃ t j, Sys2Proof.Machine.exec (.snap m h p clear) s = .next t ∧ t.chip.get Fd.CNT_SNAP_CMD_STATUS h 0 = sBUSY ∧
            t.chip.snaps.find h = some j ∧ j.gen = s.chip.gen h ∧ j.addr = s.chip.snapAddr h ∧ j.pool = p ∧ j.clear = clear ∧
            t.chip.host = s.chip.host ∧
            (h < 32 → s.chip.snaps = [] →
              j.bytes.isSome = true ∧ (clear = false → t.chip.cnt = s.chip.cnt ∧ t.chip.residue = s.chip.residue)) ∧
            (s.chip.snaps.any (fun e => decide (e.1 ≠ h) && e.2.bytes.isSome) = true →
              j.bytes = none ∧ t.chip.cnt = s.chip.cnt ∧ t.chip.residue = s.chip.residue)) ∧
        (s.chip.get Fd.CNT_SNAP_LEN_LEN h 0 < 64 + 8 * s.chip.snapTotal h p →
          ∃ t, Sys2Proof.Machine.exec (.snap m h p clear) s = .next t ∧ t.chip.get Fd.CNT_SNAP_CMD_STATUS h 0 = sNOSPACE ∧
            t.chip.snaps = s.chip.snaps ∧ t.chip.cnt = s.chip.cnt)) ∧
    (∀ (s : State) (h : Nat) (j : SnapJob) (bs : List Nat), s.chip.snaps.find h = some j → s.chip.pins.linkUp = true →
        (j.bytes = none → ∃ t, Sys2Proof.Machine.exec (.snapComplete h) s = .next t ∧ t = s) ∧
        (j.bytes = some bs → s.chip.snaps = [(h, j)] →
          ∃ t, Sys2Proof.Machine.exec (.snapComplete h) s = .next t ∧ t.chip.snaps = [] ∧
            t.chip.host = Mem.write hostBlank s.chip.host j.addr bs ∧ t.chip.get Fd.CNT_SNAP_CMD_STATUS h 0 = sDONE ∧
            t.chip.cnt = s.chip.cnt) ∧
        (∀ (k : Nat) (w : SnapJob), j.bytes = some bs → h < k → k < 32 → w.bytes = none → s.chip.snaps = [(h, j), (k, w)] →
          ∃ t, Sys2Proof.Machine.exec (.snapComplete h) s = .next t ∧
            t.chip.host = Mem.write hostBlank s.chip.host j.addr bs ∧ t.chip.get Fd.CNT_SNAP_CMD_STATUS h 0 = sDONE ∧
            ∃ b, t.chip.snaps = [(k, { w with bytes := some b })] ∧ b.take 2 = [1, w.pool])) ∧
    (∀ (s : State) (m b : Nat),
        (b < 4 → s.chip.serves m (viaOf m) .PIP_EVC_CTRL b 0 = true →
          (∃ t, Sys2Proof.Machine.exec (.evcClear m b) s = .next t ∧ (t.chip.pipe b).evc = [] ∧ (t.chip.pipe b).slots = [] ∧
            t.chip.evcFrozen b = s.chip.evcFrozen b ∧ t.chip.aevc = s.chip.aevc) ∧
          (∃ t, Sys2Proof.Machine.exec (.evcFreeze m b) s = .next t ∧ t.chip.evcFrozen b = 1 ∧ t.chip.pipes = s.chip.pipes)) ∧
        (s.chip.serves m (viaOf m) .ATR_EVC_CTRL 0 0 = true →
          (∃ t, Sys2Proof.Machine.exec (.evcClear m 4) s = .next t ∧ t.chip.aevc = [] ∧ t.chip.evcFrozen 4 = s.chip.evcFrozen 4 ∧
            t.chip.pipes = s.chip.pipes) ∧
          (∃ t, Sys2Proof.Machine.exec (.evcFreeze m 4) s = .next t ∧ t.chip.evcFrozen 4 = 1 ∧ t.chip.aevc = s.chip.aevc))))

/-! ## The crossbar -/

/-- R34: GLB_PORT_PIPE_n written with a pipeline that is fenced or parked is ignored, and recorded in GLB_ACCESS_ERR. -/
def Obligations.PortPipeRefused : Prop :=
  ∀ (s : State) (m n p : Nat), s.chip.serves m (viaOf m) .GLB_PORT_PIPE n 0 = true → p < 4 →
    s.chip.isFenced 1 p = true ∨ s.chip.parked p = true →
    ∃ t, Sys2Proof.Machine.exec (.portPipeWrite m n p) s = .next t ∧ (∀ x, t.chip.portPipe x = s.chip.portPipe x) ∧
      t.chip.flag Fd.GLB_ACCESS_ERR_VALID 0 0 = true ∧
      (s.chip.flag Fd.GLB_ACCESS_ERR_VALID 0 0 = false → t.chip.get Fd.GLB_ACCESS_ERR_KIND 0 0 = kREFUSED ∧
        t.chip.get Fd.GLB_ACCESS_ERR_WRITE 0 0 = 1 ∧
        t.chip.get Fd.GLB_ACCESS_ERR_ADDR_ADDR 0 0 = s.chip.accAddr (viaOf m) .GLB_PORT_PIPE n 0 % 2 ^ Fd.GLB_ACCESS_ERR_ADDR_ADDR.width) ∧
      t.chip.ports = s.chip.ports ∧ t.chip.atr = s.chip.atr

/-- A port moves live between two pipelines in service, with MOVE_PENDING and a resequencer context of its own, which a second
move while the first is pending shares; with no context free it moves without one, counted. From a pipeline out of service it is
placed. A port of a fenced pipeline is remapped to the survivor at index n mod k. That the survivors are the pipelines neither
fenced nor parked nor leaving PARK, when MOVE_PENDING is set, and what happens with no context, is the model's reading (logs 90
and 120). -/
def Obligations.PortsMoveBetweenPipelines : Prop :=
  ∀ (s : State) (m n p : Nat),
    (s.chip.serves m (viaOf m) .GLB_PORT_PIPE n 0 = true → p < 4 → p ≠ s.chip.portPipe n → s.chip.pipeOut p = false →
      (s.chip.pipeOut (s.chip.portPipe n) = false → s.chip.moveOf n = none → s.chip.atr.rsq.length < 1024 →
        ∃ t, Sys2Proof.Machine.exec (.portPipeWrite m n p) s = .next t ∧ t.chip.portPipe n = p ∧
          t.chip.get Fd.GLB_PORT_PIPE_MOVE_PENDING n 0 = 1 ∧ t.chip.atr.frames = s.chip.atr.frames ∧
          t.chip.atr.queues = s.chip.atr.queues ∧ (t.chip.port n).moves = (s.chip.port n).moves + 1 ∧
          (∃ r, t.chip.atr.rsq = s.chip.atr.rsq ++ [r] ∧ r.move = some n ∧ r.src = s.chip.portPipe n ∧ r.held = []) ∧
          ∀ x, x ≠ n → t.chip.portPipe x = s.chip.portPipe x) ∧
      (∀ r : Rsq, s.chip.pipeOut (s.chip.portPipe n) = false → s.chip.moveOf n = some r →
        ∃ t, Sys2Proof.Machine.exec (.portPipeWrite m n p) s = .next t ∧ t.chip.portPipe n = p ∧
          t.chip.get Fd.GLB_PORT_PIPE_MOVE_PENDING n 0 = s.chip.get Fd.GLB_PORT_PIPE_MOVE_PENDING n 0 ∧
          (t.chip.port n).moves = (s.chip.port n).moves + 1 ∧
          t.chip.atr = { s.chip.atr with
            rsq := s.chip.atr.rsq.map (fun y => if y.id = r.id then { r with src := s.chip.portPipe n } else y) } ∧
          ∀ x, x ≠ n → t.chip.portPipe x = s.chip.portPipe x) ∧
      (s.chip.pipeOut (s.chip.portPipe n) = false → s.chip.moveOf n = none → 1024 ≤ s.chip.atr.rsq.length →
        ∃ t, Sys2Proof.Machine.exec (.portPipeWrite m n p) s = .next t ∧ t.chip.portPipe n = p ∧ t.chip.atr = s.chip.atr ∧
          (t.chip.port n).moves = (s.chip.port n).moves + 1 ∧
          t.chip.get Fd.ATR_CNT_COUNT xNOCTX 0 = min (s.chip.get Fd.ATR_CNT_COUNT xNOCTX 0 + 1) (2 ^ 32 - 1) ∧
          ∀ x, x ≠ n → t.chip.portPipe x = s.chip.portPipe x) ∧
      (s.chip.pipeOut (s.chip.portPipe n) = true →
        ∃ t, Sys2Proof.Machine.exec (.portPipeWrite m n p) s = .next t ∧ t.chip.portPipe n = p ∧ t.chip.atr = s.chip.atr ∧
          (t.chip.port n).remapping = false ∧ (t.chip.port n).moves = (s.chip.port n).moves ∧
          ∀ x, x ≠ n → t.chip.portPipe x = s.chip.portPipe x)) ∧
    ((s.chip.port n).remapping = true → s.chip.pipesUp ≠ [] →
      ∃ t, Sys2Proof.Machine.exec (.portRemap n) s = .next t ∧
        t.chip.portPipe n = s.chip.pipesUp.getD (n % s.chip.pipesUp.length) 0 ∧
        t.chip.get Fd.GLB_PORT_PIPE_REMAPPED n 0 = 1 ∧ (t.chip.port n).remapping = false ∧
        (∀ x, x ≠ n → t.chip.portPipe x = s.chip.portPipe x) ∧ t.chip.atr = s.chip.atr)

/-! ## The lookup pool and the TCAM banks -/

/-- Every table command that passes its checks starts: the slot reads BUSY and the engine holds its job. -/
def Obligations.TableCommandsStart : Prop :=
  ∀ (s : State) (m h t : Nat), s.chip.serves m (slotVia m h) .TBL_CMD h 0 = true →
    (s.chip.tblTakes m h opSEARCH t = true →
      ∃ u, Sys2Proof.Machine.exec (.tblSearch m h t) s = .next u ∧ s.chip.tblStarted u.chip h opSEARCH t) ∧
    (s.chip.tblTakes m h opNEXT t = true →
      ∃ u, Sys2Proof.Machine.exec (.tblNext m h t) s = .next u ∧ s.chip.tblStarted u.chip h opNEXT t) ∧
    (s.chip.tblTakes m h opINSERT t = true →
      ∃ u, Sys2Proof.Machine.exec (.tblInsert m h t) s = .next u ∧ s.chip.tblStarted u.chip h opINSERT t) ∧
    (s.chip.tblTakes m h opDELETE t = true →
      ∃ u, Sys2Proof.Machine.exec (.tblDelete m h t) s = .next u ∧ s.chip.tblStarted u.chip h opDELETE t) ∧
    (s.chip.tblTakes m h opFLUSHPORT t = true →
      ∃ u, Sys2Proof.Machine.exec (.tblFlushPort m h t) s = .next u ∧ s.chip.tblStarted u.chip h opFLUSHPORT t) ∧
    (s.chip.tblTakes m h opFLUSHHALL t = true →
      ∃ u, Sys2Proof.Machine.exec (.tblFlushHall m h t) s = .next u ∧ s.chip.tblStarted u.chip h opFLUSHHALL t) ∧
    (s.chip.tblTakes m h opAGE t = true →
      ∃ u, Sys2Proof.Machine.exec (.tblAge m h t) s = .next u ∧ s.chip.tblStarted u.chip h opAGE t)

/-- TBL_CMD_COMPLETE on an indexed table: SEARCH returns the entry, INSERT writes it, DELETE removes it; and a command whose
hall's generation has changed leaves the tables (a flush or a pass keeps what it has done so far) and is logged STALE_GEN. -/
def Obligations.TableCommandsComplete : Prop :=
  ∀ (s : State) (h t g : Nat) (ws : List Nat), let i := s.chip.cmdIndex h t
    (∀ op, s.chip.jobs.find h = some { op := op, table := t, gen := g } → g ≠ s.chip.gen h →
      ∃ u, Sys2Proof.Machine.exec (.tblCmdComplete h) s = .next u ∧ u.chip.get Fd.TBL_CMD_STATUS h 0 = sSTALE ∧
        u.chip.get Fd.TBL_CMD_LOG_STATUS h 0 = sSTALE ∧ u.chip.get Fd.TBL_CMD_LOG_OP h 0 = op % 16 ∧
        u.chip.get Fd.TBL_STALE_CNT_COUNT h 0 =
          min (s.chip.get Fd.TBL_STALE_CNT_COUNT h 0 + 1) (2 ^ Fd.TBL_STALE_CNT_COUNT.width - 1) ∧
        u.chip.jobs.find h = none ∧
        (op ≠ opAGE → op ≠ opFLUSHPORT → op ≠ opFLUSHHALL → u.chip.tbl = s.chip.tbl) ∧
        (op = opFLUSHPORT ∨ op = opFLUSHHALL →
          ∀ tb k, u.chip.entry tb k = s.chip.entry tb k ∨ (tb = t ∧ u.chip.entry tb k = none)) ∧
        (op = opAGE → ∀ tb k, tb ≠ tFDB → u.chip.entry tb k = s.chip.entry tb k)) ∧
    (tblHashed t = false → g = s.chip.gen h → s.chip.tblEcc.get 0 t i = 0 →
      (s.chip.jobs.find h = some { op := opSEARCH, table := t, gen := g } → h = 0 → s.chip.entry t i = some ws →
        ∃ u, Sys2Proof.Machine.exec (.tblCmdComplete h) s = .next u ∧ u.chip.get Fd.TBL_CMD_STATUS h 0 = sDONE ∧
          u.chip.get Fd.TBL_RES_INFO_RESULT_VALID h 0 = 1 ∧ u.chip.get Fd.TBL_RES_INFO_INDEX_OR_COUNT h 0 = i % 2 ^ Fd.TBL_RES_INFO_INDEX_OR_COUNT.width ∧
          (∀ w, w < 16 → u.chip.get Fd.TBL_RES_RES h w = ws.getD w 0 % 2 ^ 32) ∧ u.chip.tbl = s.chip.tbl) ∧
      (s.chip.jobs.find h = some { op := opSEARCH, table := t, gen := g } → s.chip.entry t i = none →
        ∃ u, Sys2Proof.Machine.exec (.tblCmdComplete h) s = .next u ∧ u.chip.get Fd.TBL_CMD_STATUS h 0 = sNOTFOUND ∧
          u.chip.tbl = s.chip.tbl) ∧
      (s.chip.jobs.find h = some { op := opINSERT, table := t, gen := g } → h = 0 →
        tblValid t (tblClean t (s.chip.slotData h t)) = true →
        s.chip.tblUse t ((dataHall t (s.chip.slotData h t)).getD (s.chip.argHall h)) <
          s.chip.tblQuota t ((dataHall t (s.chip.slotData h t)).getD (s.chip.argHall h)) →
        ∃ u, Sys2Proof.Machine.exec (.tblCmdComplete h) s = .next u ∧ u.chip.get Fd.TBL_CMD_STATUS h 0 = sDONE ∧
          u.chip.entry t i = some (tblClean t (s.chip.slotData h t)) ∧
          u.chip.get Fd.TBL_RES_INFO_REPLACED h 0 = 0 ∧
          ∀ tb k, (tb, k) ≠ (t, i) → u.chip.entry tb k = s.chip.entry tb k) ∧
      (s.chip.jobs.find h = some { op := opDELETE, table := t, gen := g } → s.chip.entry t i = some ws →
        ∃ u, Sys2Proof.Machine.exec (.tblCmdComplete h) s = .next u ∧ u.chip.get Fd.TBL_CMD_STATUS h 0 = sDONE ∧
          u.chip.entry t i = none ∧ ∀ tb k, (tb, k) ≠ (t, i) → u.chip.entry tb k = s.chip.entry tb k))

/-- The TCAM commands start (WRITE takes the row out of the search, and needs quota and owned resources), and complete: WRITE
leaves the staged row valid under its owner, INVALIDATE clears VALID, READ fills the staging words. -/
def Obligations.TcamCommands : Prop :=
  ∀ (s : State) (m h p layout owner row : Nat), let own := if h = 0 then owner else h
    (s.chip.serves m (slotVia m h) .PIP_TCAM_CMD p 0 = true → s.chip.tcamTakes m h p layout row = true →
      (s.chip.rowsOwned p own < s.chip.get Fd.GLB_QUOTA_W3_TCAM own 0 →
        own = 0 ∨ s.chip.actOwned p own (s.chip.stagedAction h p) = true →
        ∃ t, Sys2Proof.Machine.exec (.tcamWrite m h p layout owner row) s = .next t ∧
          t.chip.get Fd.PIP_TCAM_CMD_STATUS p 0 = sBUSY ∧ (t.chip.pipe p).tcamOp = some (1, layout, own + 32 * h, row) ∧
          (t.chip.tcam.find p row).all (fun r => !r.valid) = true) ∧
      (∃ t, Sys2Proof.Machine.exec (.tcamInvalidate m h p layout owner row) s = .next t ∧
        t.chip.get Fd.PIP_TCAM_CMD_STATUS p 0 = sBUSY ∧ (t.chip.pipe p).tcamOp = some (2, layout, own + 32 * h, row) ∧
        t.chip.tcam = s.chip.tcam) ∧
      (∃ t, Sys2Proof.Machine.exec (.tcamRead m h p layout owner row) s = .next t ∧
        t.chip.get Fd.PIP_TCAM_CMD_STATUS p 0 = sBUSY ∧ (t.chip.pipe p).tcamOp = some (3, layout, own + 32 * h, row) ∧
        t.chip.tcam = s.chip.tcam)) ∧
    (own < 32 →
      ((s.chip.pipe p).tcamOp = some (1, layout, own + 32 * h, row) →
        ∃ t, Sys2Proof.Machine.exec (.tcamCmdComplete p) s = .next t ∧
          t.chip.get Fd.PIP_TCAM_CMD_STATUS p 0 = sDONE ∧ (t.chip.pipe p).tcamOp = none ∧
          ∃ r, t.chip.tcam.find p row = some r ∧ r.valid = true ∧ r.layout = layout ∧ r.owner = own ∧
            r.value = num640 ((List.range 20).map (fun w => s.chip.get Fd.PIP_TCAM_STAGE_DATA p w)) ∧
            r.mask = num640 ((List.range 20).map (fun w => s.chip.get Fd.PIP_TCAM_STAGE_DATA p (20 + w)))) ∧
      (∀ r, (s.chip.pipe p).tcamOp = some (2, layout, own + 32 * h, row) → s.chip.tcam.find p row = some r →
        ∃ t, Sys2Proof.Machine.exec (.tcamCmdComplete p) s = .next t ∧
          t.chip.get Fd.PIP_TCAM_CMD_STATUS p 0 = sDONE ∧ t.chip.tcam.find p row = some { r with valid := false }) ∧
      (∀ r, (s.chip.pipe p).tcamOp = some (3, layout, own + 32 * h, row) → s.chip.tcam.find p row = some r → r.err = 0 →
        ∃ t, Sys2Proof.Machine.exec (.tcamCmdComplete p) s = .next t ∧
          t.chip.get Fd.PIP_TCAM_CMD_STATUS p 0 = sDONE ∧ t.chip.tcam = s.chip.tcam ∧
          ∀ w, w < 20 → t.chip.get Fd.PIP_TCAM_STAGE_DATA p w = (words20 r.value).getD w 0))

/-- A flush of one leaf queue, of a bay's, or of a port's discards the copies at once, counts them in SCH_FLUSH_RES, leaves every
other queue, and is DONE at its completion. -/
def Obligations.FlushCommands : Prop :=
  ∀ (s : State) (m h port n x : Nat),
    (s.chip.serves m (slotVia m h) .SCH_FLUSH_CMD h 0 = true → port < 96 → s.chip.hport h port = some n → h < 32 →
      (s.chip.flushTakes h n [x] = true →
        ∃ t, Sys2Proof.Machine.exec (.flushQueue m h port x) s = .next t ∧
          t.chip.get Fd.SCH_FLUSH_CMD_STATUS h 0 = sBUSY ∧ t.chip.queue n x = [] ∧
          t.chip.get Fd.SCH_FLUSH_RES_COPIES h 0 = s.chip.qCopies n x % 2 ^ 19 ∧
          ∀ y q, (y, q) ≠ (n, x) → t.chip.queue y q = s.chip.queue y q) ∧
      (x < 64 → s.chip.flushTakes h n ((List.range 256).filter (fun q => decide (s.chip.qBay n q = x))) = true →
        ∃ t, Sys2Proof.Machine.exec (.flushBay m h port x) s = .next t ∧
          t.chip.get Fd.SCH_FLUSH_CMD_STATUS h 0 = sBUSY ∧
          (∀ q, q < 256 → s.chip.qBay n q = x → t.chip.queue n q = []) ∧
          ∀ y q, (y ≠ n ∨ s.chip.qBay n q ≠ x) → t.chip.queue y q = s.chip.queue y q) ∧
      (s.chip.flushTakes h n (List.range 256) = true →
        ∃ t, Sys2Proof.Machine.exec (.flushPortQueues m h port) s = .next t ∧
          t.chip.get Fd.SCH_FLUSH_CMD_STATUS h 0 = sBUSY ∧ (∀ q, q < 256 → t.chip.queue n q = []) ∧
          ∀ y q, y ≠ n → t.chip.queue y q = s.chip.queue y q)) ∧
    (s.chip.get Fd.SCH_FLUSH_CMD_STATUS h 0 = sBUSY →
      ∃ t, Sys2Proof.Machine.exec (.flushCmdComplete h) s = .next t ∧ t.chip.get Fd.SCH_FLUSH_CMD_STATUS h 0 = sDONE ∧
        t.chip.atr = s.chip.atr)

/-! ## Device time and the cycle clock -/

/-- R93: a step is refused with STATE_ERR when STEP_USED = 1 and TIME runs, with ARG_ERR when TIM_STEP_NS is 10^9 or more or the
result is negative or 2^48 seconds or more; otherwise device time takes the result with the fraction cleared and EPOCH moves on
modulo 4. SERVO_CLEAR zeroes the integral in every state of the servo. -/
def Obligations.StepsOfTime : Prop :=
  ∀ (s : State) (m : Nat), s.chip.serves m (viaOf m) .TIM_CMD 0 0 = true → s.chip.get Fd.TIM_CMD_STATUS 0 0 ≠ sBUSY →
    let tooLate := s.chip.flag Fd.TIM_STATUS_STEP_USED 0 0 = true ∧ s.chip.stopped 3 0 = false
    let ns := s.chip.get Fd.TIM_STEP_NS_NS 0 0
    let mag : Int := ((s.chip.get Fd.TIM_STEP_SEC_HI_SEC 0 0 * 2 ^ 32 + s.chip.get Fd.TIM_STEP_SEC_LO_SEC 0 0) * 10 ^ 9 + ns : Nat)
    let rel : Int := if s.chip.flag Fd.TIM_STEP_SEC_HI_SIGN 0 0 then (s.chip.ns : Int) - mag else (s.chip.ns : Int) + mag
    (tooLate →
      (∃ t, Sys2Proof.Machine.exec (.stepAbs m) s = .next t ∧ t.chip.get Fd.TIM_CMD_STATUS 0 0 = sSTATE ∧ t.chip.tim = s.chip.tim) ∧
      (∃ t, Sys2Proof.Machine.exec (.stepRel m) s = .next t ∧ t.chip.get Fd.TIM_CMD_STATUS 0 0 = sSTATE ∧ t.chip.tim = s.chip.tim)) ∧
    (¬ tooLate →
      (10 ^ 9 ≤ ns ∨ mag < 0 ∨ 2 ^ 48 * 10 ^ 9 ≤ mag →
        ∃ t, Sys2Proof.Machine.exec (.stepAbs m) s = .next t ∧ t.chip.get Fd.TIM_CMD_STATUS 0 0 = sARG ∧ t.chip.tim = s.chip.tim) ∧
      (10 ^ 9 ≤ ns ∨ rel < 0 ∨ 2 ^ 48 * 10 ^ 9 ≤ rel →
        ∃ t, Sys2Proof.Machine.exec (.stepRel m) s = .next t ∧ t.chip.get Fd.TIM_CMD_STATUS 0 0 = sARG ∧ t.chip.tim = s.chip.tim) ∧
      (ns < 10 ^ 9 → mag < 2 ^ 48 * 10 ^ 9 →
        ∃ t, Sys2Proof.Machine.exec (.stepAbs m) s = .next t ∧ t.chip.get Fd.TIM_CMD_STATUS 0 0 = sDONE ∧
          t.chip.tim.devT = mag.toNat * 2 ^ 48 ∧ t.chip.epoch = (s.chip.epoch + 1) % 4 ∧
          t.chip.flag Fd.TIM_STATUS_STEP_USED 0 0 = true) ∧
      (ns < 10 ^ 9 → 0 ≤ rel → rel < 2 ^ 48 * 10 ^ 9 →
        ∃ t, Sys2Proof.Machine.exec (.stepRel m) s = .next t ∧ t.chip.get Fd.TIM_CMD_STATUS 0 0 = sDONE ∧
          t.chip.tim.devT = rel.toNat * 2 ^ 48 ∧ t.chip.epoch = (s.chip.epoch + 1) % 4 ∧
          t.chip.flag Fd.TIM_STATUS_STEP_USED 0 0 = true)) ∧
    (∃ t, Sys2Proof.Machine.exec (.servoClear m) s = .next t ∧ t.chip.get Fd.TIM_CMD_STATUS 0 0 = sDONE ∧ t.chip.tim.integ = 0 ∧
      t.chip.tim.devT = s.chip.tim.devT ∧ t.chip.servo = s.chip.servo)

/-- The rate and the servo: RATE_LO is staged; RATE_HI commits the pair within its range and slew limit; an offset within the
threshold drives the servo under HOST_OFFSET, and PPS_IN under PPS_IN; one beyond it enters HOLDOVER with JUMP and TIME_JUMP. -/
def Obligations.RateAndServo : Prop :=
  ∀ (s : State) (m t0 : Nat) (v : Word),
    let e := signed 32 v.toNat
    let x := s.chip.nsec
    let pe : Int := if x ≤ 500000000 then x else (x : Int) - 10 ^ 9
    let prev := s.chip.tim.rateNext.getD s.chip.tim.rate
    let r := signed 40 (v.toNat % 256 * 2 ^ 32 + s.chip.tim.rateLo % 2 ^ 32)
    let lim : Int := (s.chip.get Fd.TIM_SLEW_PPB 0 0 * 2 ^ 48 / 10 ^ 9 : Nat)
    (s.chip.serves m (viaOf m) .TIM_RATE_LO 0 0 = true →
      ∃ t, Sys2Proof.Machine.exec (.rateLoStage m v) s = .next t ∧ t.chip.tim = { s.chip.tim with rateLo := v.toNat } ∧
        t.chip.fld = s.chip.fld) ∧
    (s.chip.serves m (viaOf m) .TIM_RATE_HI 0 0 = true → s.chip.servo ≠ svHOLDOVER → s.chip.servo ≠ svSTOPPED →
      s.chip.get Fd.TIM_CTRL_SERVO_SRC 0 0 = 0 →
      ∃ t, Sys2Proof.Machine.exec (.rateCommit m v) s = .next t ∧
        t.chip.tim = { s.chip.tim with rateNext := some (prev + clampTo lim (clampTo rangeLimit r - prev)) } ∧
        (clampTo rangeLimit r ≠ r → t.chip.flag Fd.TIM_STATUS_RANGE_CLAMP 0 0 = true) ∧
        (clampTo lim (clampTo rangeLimit r - prev) ≠ clampTo rangeLimit r - prev →
          t.chip.flag Fd.TIM_STATUS_SLEW_CLAMP 0 0 = true)) ∧
    (s.chip.serves m (viaOf m) .TIM_OFFSET 0 0 = true → s.chip.get Fd.TIM_CMD_STATUS 0 0 ≠ sBUSY →
      s.chip.get Fd.TIM_CTRL_SERVO_SRC 0 0 = 1 → s.chip.servo = svTRACK → s.chip.tim.ref = some t0 → t0 < s.chip.ns →
      (e.natAbs ≤ s.chip.get Fd.TIM_JUMP_THRESH_NS 0 0 →
        ∃ t, Sys2Proof.Machine.exec (.offsetWrite m v) s = .next t ∧ t.chip.tim.integ = s.chip.tim.integ + e ∧
          t.chip.tim.ref = some s.chip.ns ∧ t.chip.tim.rateNext.isSome = true ∧ t.chip.servo = svTRACK ∧
          t.chip.get Fd.TIM_OFFSET_OFFSET 0 0 = v.toNat) ∧
      (s.chip.get Fd.TIM_JUMP_THRESH_NS 0 0 < e.natAbs → s.chip.safe = false →
        ∃ t, Sys2Proof.Machine.exec (.offsetWrite m v) s = .next t ∧ t.chip.servo = svHOLDOVER ∧
          t.chip.flag Fd.TIM_STATUS_JUMP 0 0 = true ∧ bitOf (t.chip.get Fd.FLT_STATUS_STATUS 0 0) fTIMEJUMP = true ∧
          t.chip.tim.rate = s.chip.tim.rate ∧ t.chip.tim.rateNext = s.chip.tim.rateNext)) ∧
    (s.chip.get Fd.TIM_CTRL_SERVO_SRC 0 0 = 2 → s.chip.running = true → s.chip.servo = svTRACK →
      s.chip.tim.ref = some t0 → pe.natAbs ≤ s.chip.get Fd.TIM_JUMP_THRESH_NS 0 0 →
      ∃ t, Sys2Proof.Machine.exec .ppsInEdge s = .next t ∧ t.chip.tim.integ = s.chip.tim.integ + pe ∧
        t.chip.tim.ref = some s.chip.ns ∧ t.chip.tim.rateNext.isSome = true) ∧
    (s.chip.safe = false →
      ∃ t, Sys2Proof.Machine.exec .clk10mLost s = .next t ∧ t.chip.flag Fd.TIM_STATUS_CLK10M_LOST 0 0 = true ∧
        t.chip.pins.clk10m = false ∧ bitOf (t.chip.get Fd.FLT_STATUS_STATUS 0 0) fCLK10M = true ∧ t.chip.tim = s.chip.tim) ∧
    (∃ t, Sys2Proof.Machine.exec .clk10mReturn s = .next t ∧ t.chip.pins.clk10m = true ∧ t.chip.fld = s.chip.fld)

/-- The cycle clock: the first reference edge is noted and the second anchors the clock; a loss enters HOLD with UNLOCK and
CYCLE_UNLOCK; NOMINAL is recomputed at each second; the host's frequency is taken within its range and slew. -/
def Obligations.CycleClockEvents : Prop :=
  ∀ (s : State) (m t0 : Nat) (v : Word),
    (s.chip.cycMode = 1 → s.chip.running = true → s.chip.get Fd.TIM_CYC_STATUS_STATE 0 0 = cyACQUIRE →
      (s.chip.cyc.refT = none → s.chip.anchored = false →
        ∃ t, Sys2Proof.Machine.exec .cycRefEdge s = .next t ∧ t.chip.cyc.refT = some (s.chip.tim.devT / 2 ^ 46 * 2 ^ 46) ∧
          t.chip.fld = s.chip.fld ∧ t.chip.tim = s.chip.tim) ∧
      (s.chip.cyc.refT = some t0 →
        ∃ t, Sys2Proof.Machine.exec .cycRefEdge s = .next t ∧ t.chip.anchored = true ∧
          t.chip.get Fd.TIM_CYC_STATUS_STATE 0 0 = cyPULLIN ∧ t.chip.tim.devT = s.chip.tim.devT)) ∧
    (s.chip.get Fd.TIM_CYC_STATUS_STATE 0 0 = cyLOCKED ∨ s.chip.get Fd.TIM_CYC_STATUS_STATE 0 0 = cyPULLIN →
      s.chip.cyc.refT.getD 0 + (if s.chip.cycMode = 2 then 3 else 2) * s.chip.refSpacing * 2 ^ 48 ≤ s.chip.tim.devT →
      s.chip.safe = false →
      ∃ t, Sys2Proof.Machine.exec .cycRefLoss s = .next t ∧ t.chip.get Fd.TIM_CYC_STATUS_STATE 0 0 = cyHOLD ∧
        t.chip.flag Fd.TIM_CYC_STATUS_UNLOCK 0 0 = true ∧ bitOf (t.chip.get Fd.FLT_STATUS_STATUS 0 0) fCYCUNLOCK = true ∧
        t.chip.cyc.freq = max s.chip.cycRange.1 (min s.chip.cycRange.2 s.chip.cyc.meanFreq) ∧
        t.chip.cyc.accX = s.chip.cyc.accX) ∧
    (s.chip.cycMode = 0 → s.chip.anchored = true → s.chip.get Fd.TIM_CYC_STATUS_STATE 0 0 = cyNOMINAL →
      s.chip.cyc.secAt ≠ s.chip.secs →
      ∃ t, Sys2Proof.Machine.exec .cycSecondRecompute s = .next t ∧
        t.chip.cyc = { s.chip.cyc with accX := anchorAcc s.chip.tim.devT s.chip.cyc.freq, secAt := s.chip.secs } ∧
        t.chip.fld = s.chip.fld) ∧
    (s.chip.serves m (viaOf m) .TIM_CYC_FREQ 0 0 = true →
      let f := max s.chip.cycRange.1 (min s.chip.cycRange.2 v.toNat)
      let cur := s.chip.cyc.freqNext.getD s.chip.cyc.freq
      let lim := s.chip.get Fd.TIM_CYC_CTRL_SLEW_MHZ 0 0 * 100000
      (s.chip.cycMode ≠ 3 →
        ∃ t, Sys2Proof.Machine.exec (.cycFreqWrite m v) s = .next t ∧ t.chip.get Fd.TIM_CYC_FREQ_UHZ 0 0 = f ∧
          t.chip.cyc = s.chip.cyc) ∧
      (s.chip.cycMode = 3 →
        ∃ t, Sys2Proof.Machine.exec (.cycFreqWrite m v) s = .next t ∧
          t.chip.cyc = { s.chip.cyc with freqNext := some (max (cur - lim) (min (cur + lim) f)) } ∧
          (max (cur - lim) (min (cur + lim) f) ≠ f → t.chip.flag Fd.TIM_CYC_STATUS_FREQ_CLAMP 0 0 = true)))

/-- Event slots, PPS_OUT, TOUT and captures: a slot is armed by its ENABLE, and fires at its time, once or periodically; PPS_OUT
rises at its instant and falls WIDTH_MS later; a pulse ends; a capture joins its FIFO, or sets OVF when 16 are held. -/
def Obligations.EventSlotsAndPins : Prop :=
  ∀ (s : State) (m k x w : Nat) (rising : Bool) (v : Word),
    (s.chip.serves m (viaOf m) .TIM_EVT_CTRL k 0 = true → s.chip.flag Fd.TIM_EVT_CTRL_ENABLE k 0 = false →
      bitOf v.toNat 31 = true → bits 29 29 v.toNat = 0 →
      s.chip.stopped 3 0 = true ∨
        (∀ r ∈ R.TIM_EVT_CTRL.rows, r.f ≠ Fd.TIM_EVT_CTRL_ENABLE → bits r.f.hi r.f.lo v.toNat = s.chip.get r.f k 0) →
      ∃ t, Sys2Proof.Machine.exec (.eventSlotEnable m k v) s = .next t ∧ t.chip.flag Fd.TIM_EVT_CTRL_ENABLE k 0 = true ∧
        (t.chip.evtRt k).armed = true ∧ t.chip.get Fd.TIM_EVT_CTRL_ACTION k 0 = bits 28 26 v.toNat ∧
        t.chip.get Fd.TIM_EVT_CTRL_TOUT k 0 = bits 25 24 v.toNat) ∧
    (evtDue s.chip k = true → s.chip.running = true →
      (s.chip.flag Fd.TIM_EVT_CTRL_PERIODIC k 0 = false →
        ∃ t, Sys2Proof.Machine.exec (.eventSlotFire k) s = .next t ∧ t.chip.flag Fd.TIM_EVT_STATUS_FIRED k 0 = true ∧
          t.chip.get Fd.TIM_EVT_STATUS_FIRE_CNT k 0 = (s.chip.get Fd.TIM_EVT_STATUS_FIRE_CNT k 0 + 1) % 2 ^ 16 ∧
          t.chip.flag Fd.TIM_EVT_CTRL_ENABLE k 0 = false ∧ (t.chip.evtRt k).armed = false) ∧
      (s.chip.flag Fd.TIM_EVT_CTRL_PERIODIC k 0 = true →
        ∃ t, Sys2Proof.Machine.exec (.eventSlotFire k) s = .next t ∧ t.chip.flag Fd.TIM_EVT_STATUS_FIRED k 0 = true ∧
          t.chip.flag Fd.TIM_EVT_CTRL_ENABLE k 0 = true ∧
          t.chip.evtRt k = { armed := true, target := evtNext s.chip k (s.chip.evtRt k), late := false })) ∧
    (∀ e, s.chip.toutFall.find? (fun e => decide (e.1.1 = x ∧ e.1.2 ≤ s.chip.tim.clk)) = some e →
      ∃ t, Sys2Proof.Machine.exec (.toutPulseEnd x) s = .next t ∧ bitOf t.chip.pins.tout x = false ∧
        t.chip.fld = s.chip.fld ∧ t.chip.tim = s.chip.tim) ∧
    (s.chip.flag Fd.TIM_PPS_CTRL_ENABLE 0 0 = true → s.chip.running = true → s.chip.tim.ppsIdx ≠ ppsIndex s.chip →
      s.chip.ppsHeld = false →
      ∃ t, Sys2Proof.Machine.exec .ppsOutRise s = .next t ∧ t.chip.pins.ppsOut = true ∧
        t.chip.tim.ppsFall = s.chip.tim.clk + max 1 (min 999 (s.chip.get Fd.TIM_PPS_CTRL_WIDTH_MS 0 0)) * 10 ^ 6 ∧
        t.chip.tim.devT = s.chip.tim.devT ∧ t.chip.fld = s.chip.fld) ∧
    (s.chip.tim.ppsFall ≤ s.chip.tim.clk →
      ∃ t, Sys2Proof.Machine.exec .ppsOutFall s = .next t ∧ t.chip.pins.ppsOut = false ∧ t.chip.tim = s.chip.tim ∧
        t.chip.fld = s.chip.fld) ∧
    (s.chip.flag Fd.TIM_CAP_CTRL_ENABLE x 0 = true → s.chip.running = true →
      s.chip.get Fd.TIM_CAP_CTRL_FILTER_NS x 0 ≤ w → s.chip.get Fd.TIM_CAP_CTRL_EDGE x 0 = (if rising then 1 else 2) ∨
        s.chip.get Fd.TIM_CAP_CTRL_EDGE x 0 = 3 →
      ((s.chip.caps.get [] x).length < 16 →
        ∃ t, Sys2Proof.Machine.exec (.capInEdge x rising w) s = .next t ∧ t.chip.fld = s.chip.fld ∧
          ∃ c, t.chip.caps.get [] x = s.chip.caps.get [] x ++ [c] ∧
            c.devT = (s.chip.tim.devT - w * 2 ^ 48) / 2 ^ 46 * 2 ^ 46 ∧ c.rising = rising ∧
            c.angleValid = s.chip.anchored ∧ c.epoch = s.chip.epoch) ∧
      (16 ≤ (s.chip.caps.get [] x).length →
        ∃ t, Sys2Proof.Machine.exec (.capInEdge x rising w) s = .next t ∧ t.chip.caps = s.chip.caps ∧
          t.chip.flag Fd.TIM_CAP_STATUS_OVF x 0 = true))

/-! ## Links -/

/-- R122: a command to a fenced port returns FENCED; BRING_UP of a port that is not DOWN and RETRAIN of one that is not UP return
STATE_ERR; BRING_UP with a pair of RATE and FEC that is not listed returns ARG_ERR; TAKE_DOWN of a DOWN port returns DONE. -/
def Obligations.LinkCommandChecks : Prop :=
  ∀ (s : State) (m n : Nat), s.chip.serves m (viaOf m) .PRT_LINK_CMD n 0 = true →
    s.chip.get Fd.PRT_LINK_CMD_STATUS n 0 ≠ sBUSY →
    (s.chip.isFenced 0 n = true →
      (∃ t, Sys2Proof.Machine.exec (.bringUp m n) s = .next t ∧ t.chip.get Fd.PRT_LINK_CMD_STATUS n 0 = sFENCED ∧
        t.chip.link n = s.chip.link n) ∧
      (∃ t, Sys2Proof.Machine.exec (.takeDown m n) s = .next t ∧ t.chip.get Fd.PRT_LINK_CMD_STATUS n 0 = sFENCED ∧
        t.chip.link n = s.chip.link n) ∧
      (∃ t, Sys2Proof.Machine.exec (.retrain m n) s = .next t ∧ t.chip.get Fd.PRT_LINK_CMD_STATUS n 0 = sFENCED ∧
        t.chip.link n = s.chip.link n)) ∧
    (s.chip.isFenced 0 n = false →
      (s.chip.link n ≠ lDOWN →
        ∃ t, Sys2Proof.Machine.exec (.bringUp m n) s = .next t ∧ t.chip.get Fd.PRT_LINK_CMD_STATUS n 0 = sSTATE ∧
          t.chip.link n = s.chip.link n) ∧
      (s.chip.link n ≠ lUP →
        ∃ t, Sys2Proof.Machine.exec (.retrain m n) s = .next t ∧ t.chip.get Fd.PRT_LINK_CMD_STATUS n 0 = sSTATE ∧
          t.chip.link n = s.chip.link n) ∧
      (s.chip.link n = lDOWN → pairListed (s.chip.get Fd.PRT_LINK_CFG_RATE n 0) (s.chip.get Fd.PRT_LINK_CFG_FEC n 0) = false →
        ∃ t, Sys2Proof.Machine.exec (.bringUp m n) s = .next t ∧ t.chip.get Fd.PRT_LINK_CMD_STATUS n 0 = sARG ∧
          t.chip.link n = lDOWN) ∧
      (s.chip.link n = lDOWN →
        ∃ t, Sys2Proof.Machine.exec (.takeDown m n) s = .next t ∧ t.chip.get Fd.PRT_LINK_CMD_STATUS n 0 = sDONE ∧
          t.chip.link n = lDOWN))

/-- The states of a link. A BRING_UP that passes takes the port type from LINK_CFG and goes to INTLK while the interlock is
open, else to ACQUIRE with light and to TX_ON without; TAKE_DOWN goes to DOWN and ends what is on the wire; RETRAIN goes to
ACQUIRE. Light moves TX_ON to ACQUIRE; a recovered clock moves ACQUIRE to ALIGN; auto-negotiation that completes notes whether
it is full duplex and stays in ALIGN; alignment moves ALIGN to UP where negotiation is done or not wanted, and restarts the
preemption verification; a lost lock moves UP to ACQUIRE, sets LINK_LOST and counts, and darkness clears RX_SIGNAL. -/
def Obligations.LinkStates : Prop :=
  ∀ (s : State) (m n : Nat), n < 96 →
    (s.chip.serves m (viaOf m) .PRT_LINK_CMD n 0 = true → s.chip.get Fd.PRT_LINK_CMD_STATUS n 0 ≠ sBUSY →
      s.chip.isFenced 0 n = false →
      (s.chip.link n = lDOWN → pairListed (s.chip.get Fd.PRT_LINK_CFG_RATE n 0) (s.chip.get Fd.PRT_LINK_CFG_FEC n 0) = true →
        ∃ t, Sys2Proof.Machine.exec (.bringUp m n) s = .next t ∧ t.chip.get Fd.PRT_LINK_CMD_STATUS n 0 = sDONE ∧
          t.chip.link n = (if s.chip.pins.intlkN then lINTLK else if s.chip.rxSignal n then lACQUIRE else lTXON) ∧
          (t.chip.port n).rate = s.chip.get Fd.PRT_LINK_CFG_RATE n 0 ∧ t.chip.atr = s.chip.atr) ∧
      (s.chip.link n ≠ lDOWN →
        ∃ t, Sys2Proof.Machine.exec (.takeDown m n) s = .next t ∧ t.chip.get Fd.PRT_LINK_CMD_STATUS n 0 = sDONE ∧
          t.chip.link n = lDOWN ∧ (t.chip.port n).tx = none ∧ (t.chip.port n).held = none) ∧
      (s.chip.link n = lUP →
        ∃ t, Sys2Proof.Machine.exec (.retrain m n) s = .next t ∧ t.chip.get Fd.PRT_LINK_CMD_STATUS n 0 = sDONE ∧
          t.chip.link n = lACQUIRE)) ∧
    (∃ t, Sys2Proof.Machine.exec (.rxSignalDetect n) s = .next t ∧ t.chip.rxSignal n = true ∧
      t.chip.link n = (if s.chip.link n = lTXON then lACQUIRE else s.chip.link n) ∧ t.chip.ports = s.chip.ports) ∧
    (s.chip.link n = lACQUIRE → s.chip.rxSignal n = true →
      ∃ t, Sys2Proof.Machine.exec (.clockRecovered n) s = .next t ∧ t.chip.link n = lALIGN ∧ t.chip.atr = s.chip.atr) ∧
    (∀ full, s.chip.link n = lALIGN → (s.chip.port n).negotiates = true →
      ∃ t, Sys2Proof.Machine.exec (.anComplete n full) s = .next t ∧ t.chip.link n = lALIGN ∧
        (t.chip.port n).anDone = full ∧ t.chip.get Fd.PRT_LINK_STATUS_AN_NO_FD n 0 = b2n (!full)) ∧
    (s.chip.link n = lALIGN → (s.chip.port n).negotiates = false ∨ (s.chip.port n).anDone = true →
      ∃ t, Sys2Proof.Machine.exec (.linkUp n) s = .next t ∧ t.chip.link n = lUP ∧ (t.chip.port n).verify = 0 ∧
        t.chip.atr = s.chip.atr) ∧
    (∀ dark, s.chip.link n = lUP → s.chip.get Fd.PRT_ERR_BUDGET_WINDOW_MS n 0 = 0 →
      ∃ t, Sys2Proof.Machine.exec (.lockLost n dark) s = .next t ∧ t.chip.link n = lACQUIRE ∧
        t.chip.flag Fd.PRT_LINK_STATUS_LINK_LOST n 0 = true ∧ (dark = true → t.chip.rxSignal n = false) ∧
        t.chip.get Fd.PRT_RX_CNT_COUNT n 6 = min (s.chip.get Fd.PRT_RX_CNT_COUNT n 6 + 1) (2 ^ 32 - 1))

/-- Error budgets, preemption verification and the SecY's cipher: a window restarts the count; a write that sets a new window starts
its first; verification succeeds with a response, and fails after VERIFY_LIMIT attempts without; a cipher of another key length
clears the keys of the port (R413). -/
def Obligations.PortUnits : Prop :=
  ∀ (s : State) (m n : Nat) (v : Word),
    (s.chip.get Fd.PRT_ERR_BUDGET_WINDOW_MS n 0 ≠ 0 →
      ∃ t, Sys2Proof.Machine.exec (.errBudgetWindow n) s = .next t ∧ (t.chip.port n).winCnt = 0 ∧ t.chip.fld = s.chip.fld) ∧
    (s.chip.serves m (viaOf m) .PRT_ERR_BUDGET n 0 = true →
      ∃ t, Sys2Proof.Machine.exec (.errBudgetWrite m n v) s = .next t ∧
        t.chip.get Fd.PRT_ERR_BUDGET_LIMIT n 0 = bits 31 16 v.toNat ∧
        t.chip.get Fd.PRT_ERR_BUDGET_WINDOW_MS n 0 = bits 15 8 v.toNat ∧
        t.chip.get Fd.PRT_ERR_BUDGET_EVENTS n 0 = bits 7 0 v.toNat ∧
        (bits 15 8 v.toNat ≠ 0 → bits 15 8 v.toNat ≠ s.chip.get Fd.PRT_ERR_BUDGET_WINDOW_MS n 0 → (t.chip.port n).winCnt = 0)) ∧
    (s.chip.link n = lUP → s.chip.verifyState n = 1 ∨ s.chip.verifyState n = 2 →
      (∃ t, Sys2Proof.Machine.exec (.pmacVerify n true) s = .next t ∧ t.chip.verifyState n = 3 ∧ t.chip.pmacActive n = true ∧
        t.chip.fld = s.chip.fld) ∧
      (max 1 (s.chip.get Fd.PRT_PMAC_CTRL_VERIFY_LIMIT n 0) ≤ (s.chip.port n).verify + 1 →
        ∃ t, Sys2Proof.Machine.exec (.pmacVerify n false) s = .next t ∧ t.chip.verifyState n = 4 ∧
          t.chip.pmacActive n = false)) ∧
    (s.chip.serves m (viaOf m) .PRT_MACSEC_CTRL n 0 = true → s.chip.sku = 0 → s.chip.stopped 0 n = true →
      ∃ t, Sys2Proof.Machine.exec (.macsecCipherWrite m n v) s = .next t ∧ t.chip.msCipher n = bits 3 2 v.toNat ∧
        (cipherKeyLen (bits 3 2 v.toNat) ≠ cipherKeyLen (s.chip.msCipher n) →
          (∀ k ∈ t.chip.sec.saKey, k.1.1 ≠ n) ∧
          (∀ a, a < 2 → t.chip.get Fd.PRT_MACSEC_TX_SA_CTRL_KEY_LOADED n a = 0) ∧
          (∀ a, a < 8 → t.chip.get Fd.PRT_MACSEC_RX_SA_CTRL_KEY_LOADED n a = 0)))

/-! ## Laser sources and the interlock -/

/-- A manual SWAP runs a planned swap: at once where its engine is idle, its ports going to SPARING, else after the one that
runs; it returns STATE_ERR while INTLK_N is high, and NO_SPACE when SPARES_LEFT = 0 (R133). That it reads BUSY until its swap
has ended is the model's reading (log 59). -/
def Obligations.ManualSwap : Prop :=
  ∀ (s : State) (m e slot : Nat), s.chip.serves m (viaOf m) .OPT_SPARE_CMD e 0 = true → s.chip.bus.kgOpen = true →
    s.chip.get Fd.OPT_SPARE_CMD_STATUS e 0 ≠ sBUSY → slot < 4 →
    (s.chip.pins.intlkN = true →
      ∃ t, Sys2Proof.Machine.exec (.swap m e slot) s = .next t ∧ t.chip.get Fd.OPT_SPARE_CMD_STATUS e 0 = sSTATE ∧
        t.chip.engs = s.chip.engs) ∧
    (s.chip.pins.intlkN = false → s.chip.sparesLeft e = 0 →
      ∃ t, Sys2Proof.Machine.exec (.swap m e slot) s = .next t ∧ t.chip.get Fd.OPT_SPARE_CMD_STATUS e 0 = sNOSPACE ∧
        t.chip.engs = s.chip.engs) ∧
    (s.chip.pins.intlkN = false → s.chip.sparesLeft e ≠ 0 →
      ((s.chip.eng e).cur = none →
        ∃ t, Sys2Proof.Machine.exec (.swap m e slot) s = .next t ∧ t.chip.get Fd.OPT_SPARE_CMD_STATUS e 0 = sBUSY ∧
          (t.chip.eng e).cur =
            some { slot := slot, old := s.chip.slotSource e slot, new := 6 - s.chip.sparesLeft e, emerg := false, phase := 1
                   manual := true } ∧
          ∀ n ∈ slotPorts e slot, s.chip.link n = lUP → t.chip.link n = lSPARING) ∧
      (∀ w, (s.chip.eng e).cur = some w →
        ∃ t, Sys2Proof.Machine.exec (.swap m e slot) s = .next t ∧ t.chip.get Fd.OPT_SPARE_CMD_STATUS e 0 = sBUSY ∧
          (t.chip.eng e).cur = some w ∧
          (t.chip.eng e).waiting = (s.chip.eng e).waiting ++
            [{ slot := slot, old := s.chip.slotSource e slot, new := 0, emerg := false, phase := 0, manual := true }]))

/-- The steps of a swap; the books of its end, with the spare record burnt unless the lifecycle is RETIRED; what a degraded or failed
source asks for; the interlock darkens every port that is not DOWN or FENCED, and lights the ports again (an opening within the
10 ms of the last counts and sets LATCH, and has nothing left to turn off, log 154). -/
def Obligations.SourcesAndInterlock : Prop :=
  ∀ (s : State) (e src bias slot : Nat) (w : SwapRt),
    ((s.chip.eng e).cur = some w →
      (w.phase = 1 → w.emerg = true →
        ∃ t, Sys2Proof.Machine.exec (.swapSpareReady e) s = .next t ∧ (t.chip.eng e).cur = some { w with phase := 2 } ∧
          t.chip.fld = s.chip.fld) ∧
      (w.phase = 2 →
        ∃ t, Sys2Proof.Machine.exec (.swapSwitchDone e) s = .next t ∧ (t.chip.eng e).cur = some { w with phase := 3 } ∧
          t.chip.fld = s.chip.fld) ∧
      (w.phase = 3 → (s.chip.eng e).waiting = [] → w.slot < 4 → w.old < 6 → w.new < 6 → w.old ≠ w.new → s.chip.safe = false →
        s.chip.srcState e w.new = srcSPARE ∨ s.chip.srcState e w.new = srcACTIVE →
        ∃ t, Sys2Proof.Machine.exec (.swapComplete e) s = .next t ∧ (t.chip.eng e).cur = none ∧
          t.chip.slotSource e w.slot = w.new ∧ t.chip.srcState e w.old = srcRETIRED ∧
          t.chip.sparesLeft e = s.chip.sparesLeft e - 1 ∧ bitOf (t.chip.get Fd.FLT_STATUS_STATUS 0 0) fLSWAP = true ∧
          t.otp = (if s.chip.lifecycle = 3 then s.otp
            else Otp.burn s.otp (s.chip.spareRecord e w).1 (s.chip.spareRecord e w).2))) ∧
    (e < 8 → src < 6 → s.chip.running = true → s.chip.slotLit e src = some slot → s.chip.sparesLeft e ≠ 0 →
      (s.chip.srcState e src = srcACTIVE → max 110 (s.chip.get Fd.OPT_SPARE_CTRL_BIAS_LIMIT e 0) < bias →
        s.chip.flag Fd.OPT_SPARE_CTRL_AUTO e 0 = false →
        ∃ t, Sys2Proof.Machine.exec (.sourceDegraded e src bias) s = .next t ∧ t.chip.srcState e src = srcDEGRADED ∧
          t.chip.get Fd.OPT_SRC_STATUS_BIAS_PCT e src = min 255 bias ∧ t.chip.engs = s.chip.engs) ∧
      (s.chip.srcState e src ≠ srcFAILED → s.chip.srcState e src ≠ srcRETIRED → s.chip.pins.intlkN = false →
        (s.chip.eng e).cur = none →
        ∃ t, Sys2Proof.Machine.exec (.sourceFailed e src) s = .next t ∧ t.chip.srcState e src = srcFAILED ∧
          (t.chip.eng e).cur = some { slot := slot, old := src, new := 6 - s.chip.sparesLeft e, emerg := true, phase := 1 })) ∧
    (s.chip.pins.intlkN = true →
      ∃ t, Sys2Proof.Machine.exec .intlkOpen s = .next t ∧ t.chip.pins.intlkN = true ∧ t.chip.get Fd.OPT_INTLK_LATCH 0 0 = 1 ∧
        t.chip.get Fd.OPT_INTLK_OPEN_CNT 0 0 = min (s.chip.get Fd.OPT_INTLK_OPEN_CNT 0 0 + 1) (2 ^ Fd.OPT_INTLK_OPEN_CNT.width - 1) ∧
        (∀ n, t.chip.link n = s.chip.link n) ∧ t.chip.engs = s.chip.engs) ∧
    (s.chip.pins.intlkN = false →
      (∀ (d : Nat) (u : SwapRt), (s.chip.eng d).cur = some u →
        u.phase = 1 ∨ (s.chip.srcState d u.new ≠ srcFAILED ∧ s.chip.srcState d u.new ≠ srcDEGRADED)) →
      ∃ t, Sys2Proof.Machine.exec .intlkOpen s = .next t ∧ t.chip.pins.intlkN = true ∧
        t.chip.get Fd.OPT_INTLK_LATCH 0 0 = 1 ∧
        ∀ n, n < 96 → t.chip.link n = (if s.chip.link n = lDOWN ∨ s.chip.link n = lFENCED then s.chip.link n else lINTLK)) ∧
    (s.chip.pins.intlkN = true → s.chip.engs = [] →
      ∃ t, Sys2Proof.Machine.exec .intlkClosed s = .next t ∧ t.chip.pins.intlkN = false ∧
        ∀ n, n < 96 → t.chip.link n =
          (if s.chip.link n = lINTLK then (if s.chip.rxSignal n then lACQUIRE else lTXON) else s.chip.link n))

/-! ## Redundancy and the atrium's banks -/

/-- SET makes a pair active and CLEAR inactive; a supervision frame takes the pair's next number; RETIRE retires a bank that is in
service, takes its donors off the free lists and marks the frames of its group; a seed goes to every session's LFSR. -/
def Obligations.RedundancyAndBankCommands : Prop :=
  (∀ (s : State) (m k : Nat), s.chip.serves m (viaOf m) .RED_ROLE_CMD 0 0 = true →
      s.chip.get Fd.RED_ROLE_CMD_STATUS 0 0 ≠ sBUSY → s.chip.priv m = true → k < 48 → s.chip.pairA k < 96 → s.chip.pairB k < 96 →
      s.chip.isFenced 0 (s.chip.pairA k) = false → s.chip.isFenced 0 (s.chip.pairB k) = false →
      s.chip.stopped 0 (s.chip.pairA k) = true → s.chip.stopped 0 (s.chip.pairB k) = true →
      (s.chip.pairActive k = false → s.chip.pairRole k = 1 ∨ s.chip.pairRole k = 2 → s.chip.pairA k ≠ s.chip.pairB k →
        s.chip.pairSplit (s.chip.pairA k) (s.chip.pairB k) = false → s.chip.pairOf (s.chip.pairA k) = none →
        s.chip.pairOf (s.chip.pairB k) = none → s.chip.quadBad k = false → s.chip.stairOf (s.chip.pairA k) = none →
        s.chip.stairOf (s.chip.pairB k) = none →
        ∃ t, Sys2Proof.Machine.exec (.redSet m k) s = .next t ∧ t.chip.pairActive k = true ∧
          t.chip.get Fd.RED_ROLE_CMD_STATUS 0 0 = sDONE ∧ t.chip.tbl = s.chip.tbl ∧ t.chip.atr = s.chip.atr ∧
          t.chip.ports = s.chip.ports ∧
          (s.chip.pairRole k = 1 → t.chip.flag Fd.PRT_PARSE_CTRL_TRAILER (s.chip.pairA k) 0 = true ∧
            t.chip.flag Fd.PRT_PARSE_CTRL_TRAILER (s.chip.pairB k) 0 = true)) ∧
      (s.chip.pairActive k = true →
        ∃ t, Sys2Proof.Machine.exec (.redClear m k) s = .next t ∧ t.chip.pairActive k = false ∧
          t.chip.get Fd.RED_ROLE_CMD_STATUS 0 0 = sDONE ∧ t.chip.atr = s.chip.atr ∧ t.chip.ports = s.chip.ports)) ∧
  (∀ (s : State) (k i : Nat) (ws : List Nat), s.chip.supOn k = true →
      (∃ t, Sys2Proof.Machine.exec (.supFrameTx k) s = .next t ∧
        t.chip = ({ s.chip with supSeq := s.chip.supSeq.put 0 k ((s.chip.supSeq.get 0 k + 1) % 65536) }).supSend k
          (s.chip.supBody k (s.chip.supSeq.get 0 k) none)) ∧
      (s.chip.flag Fd.RED_PAIR_CFG_PROXY_SUP k 0 = true → s.chip.entry tDUP i = some ws → tblValid tDUP ws = true →
        dupKind ws = kGENERATOR → dupPair ws = k →
        ∃ t, Sys2Proof.Machine.exec (.proxySupTx k i) s = .next t ∧
          t.chip = s.chip.supSend k (s.chip.supBody k ((s.chip.supSeq.get 0 k + 65535) % 65536) (some (dupMac ws))))) ∧
  (∀ (s : State) (m b : Nat), s.chip.serves m (viaOf m) .ATR_BANK_CMD 0 0 = true → s.chip.bus.kgOpen = true →
      s.chip.get Fd.ATR_BANK_CMD_STATUS 0 0 ≠ sBUSY → b < 64 →
      (s.chip.bankRetired b = false →
        ∃ t, Sys2Proof.Machine.exec (.retire m b) s = .next t ∧ t.chip.bankRetired b = true ∧
          t.chip.get Fd.ATR_BANK_CMD_STATUS 0 0 = sDONE ∧
          t.chip.atrFree = s.chip.atrFree - (6144 - (s.chip.cellsHeld.filter (fun x =>
            decide (x % 16 = b / 4 ∧ x / 16 % 4 = 3 - s.chip.retiredIn (b / 4)))).length) ∧
          ∀ f ∈ t.chip.atr.frames, f.2.cells.any (fun x => decide (x % 16 = b / 4)) = true → f.2.marked = true) ∧
      (s.chip.bankRetired b = true →
        ∃ t, Sys2Proof.Machine.exec (.retire m b) s = .next t ∧ t.chip.get Fd.ATR_BANK_CMD_STATUS 0 0 = sSTATE ∧
          t.chip.atr = s.chip.atr ∧ t.chip.atrFree = s.chip.atrFree)) ∧
  (∀ (s : State) (m k : Nat) (v : Word), s.chip.serves m (viaOf m) .ATR_MIR_SEED 0 0 = true → s.chip.priv m = true →
      1 ≤ k → k ≤ 15 →
      ∃ t, Sys2Proof.Machine.exec (.mirSeedWrite m v) s = .next t ∧ (t.chip.mirRt k).lfsr = v.toNat ∧
        t.chip.get Fd.ATR_MIR_SEED_SEED 0 0 = v.toNat ∧ t.chip.atr.frames = s.chip.atr.frames)

/-! ## The gallery -/

/-- With an identity and the DRBG ready, a hello that is sent counts the liveness number up. A hello that passes its checks
moves a link from PROBE to UP with its sender as neighbour, under open admission; one that fails them moves a link from UP to
AUTH_FAIL. A link lost in UP goes LOST and is counted. ADMIT moves a link from ADMIT_WAIT to UP unless another valid link
already has its port. A VALID written with the gallery stopped, on a port that no other link has, makes the link valid on that
port, in PROBE where the gallery is enabled and the port UP and not fenced as a link, else DOWN. An ORPHAN with AUTO_REELECT
returns to ELECT. A spray entry without a copy for 2 ms is freed. -/
def Obligations.GalleryAdjacency : Prop :=
  ∀ (s : State) (m k : Nat),
    (s.chip.galRuns = true → s.chip.stairOpen k = true → s.chip.sec.idScalar ≠ 0 → s.chip.drbgReady = true →
      ∃ t, Sys2Proof.Machine.exec (.helloTx k) s = .next t ∧ t.chip.gal.live = (s.chip.gal.live + 1) % 2 ^ 32 ∧
        t.chip.img = s.chip.img ∧ t.chip.ctl = s.chip.ctl) ∧
    (∀ h : Hello, s.chip.galOn = true → s.chip.stairOpen k = true →
      (s.chip.helloOk h = true → s.chip.stairState k = glPROBE → s.chip.flag Fd.GAL_LINK_CFG_ADMIT_MODE k 0 = false →
        ∃ t, Sys2Proof.Machine.exec (.helloRx k h) s = .next t ∧ t.chip.stairState k = glUP ∧ t.chip.nbr k = h.dev ∧
          t.chip.gal.lastHello.find h.dev = some h) ∧
      (s.chip.helloOk h = false → s.chip.stairState k = glUP →
        ∃ t, Sys2Proof.Machine.exec (.helloRx k h) s = .next t ∧ t.chip.stairState k = glFAIL ∧ t.chip.nbr k = s.chip.nbr k)) ∧
    (k < 32 → s.chip.stairState k = glUP →
      ∃ t, Sys2Proof.Machine.exec (.stairLinkLost k) s = .next t ∧ t.chip.stairState k = glLOST ∧
        t.chip.get Fd.GAL_LINK_LOST_CNT_COUNT k 0 = min (s.chip.get Fd.GAL_LINK_LOST_CNT_COUNT k 0 + 1) (2 ^ 32 - 1)) ∧
    (s.chip.serves m (viaOf m) .GAL_LINK_CFG k 0 = true →
      (s.chip.stairState k = glWAIT → (s.chip.stairValid k = true → s.chip.stairTaken k (s.chip.stairPort k) = false) →
        ∃ t, Sys2Proof.Machine.exec (.admitMember m k) s = .next t ∧ t.chip.stairState k = glUP ∧ t.chip.nbr k = s.chip.nbr k ∧
          t.chip.stairPort k = s.chip.stairPort k) ∧
      (∀ v : Word, s.chip.stopped 4 0 = true → bitOf v.toNat 31 = true → bitOf v.toNat 29 = false → k < 32 →
        s.chip.stairTaken k (bits 6 0 v.toNat) = false → s.chip.stairValid k = false →
        ∃ t, Sys2Proof.Machine.exec (.stairLinkValidWrite m k v) s = .next t ∧ t.chip.stairValid k = true ∧
          t.chip.stairPort k = bits 6 0 v.toNat ∧
          t.chip.stairState k =
            (if s.chip.galEnabled = true ∧ s.chip.link (bits 6 0 v.toNat) = lUP ∧ s.chip.isFenced 4 k = false then glPROBE else glDOWN))) ∧
    (s.chip.galOn = true → s.chip.flag Fd.GAL_CTRL_AUTO_REELECT 0 0 = true → s.chip.galState = gsORPHAN →
      ∃ t, Sys2Proof.Machine.exec .orphanReelect s = .next t ∧ t.chip.galState = gsELECT ∧
        t.chip.gal.viewAt = s.chip.tim.clk ∧ t.chip.atr = s.chip.atr) ∧
    (∀ (dst flow : Nat) (e : SprayEnt), s.chip.gal.spray.find dst flow = some e → e.last + 2000000 ≤ s.chip.tim.clk →
      ∃ t, Sys2Proof.Machine.exec (.sprayEntryFree dst flow) s = .next t ∧ t.chip.gal.spray.find dst flow = none ∧
        t.chip.fld = s.chip.fld)

/-- A report that is sent carries the next sequence number; one received with a higher sequence than the last of its member
replaces it, and one older than 400 ms is dropped. In ELECT, once the view has stood for SETTLE_MS, the member joins, with the
lowest elector as keeper and the next as standby. ELECT is accepted in ORPHAN only; HANDOVER at the keeper waits BUSY. The
keeper builds the epoch that is due: without a standby it is ready at once, with one it is sent in phase 1 first. An EPOCH frame
of phase 2 is kept and forwarded; before a first epoch, one not seen yet, which is noted. Without an acknowledgement phase 1 is resent, and at the third failure
the standby is dropped and a new epoch falls due. At its APPLY_AT an epoch of a higher number comes into force. -/
def Obligations.GalleryReportsAndEpochs : Prop :=
  ∀ (s : State) (m k : Nat),
    (s.chip.galRuns = true → s.chip.stairs.any s.chip.stairUp = true →
      ∃ t, Sys2Proof.Machine.exec .reportTx s = .next t ∧ t.chip.gal.mySeq = (s.chip.gal.mySeq + 1) % 2 ^ 32 ∧
        t.chip.gal.repSent = some t.chip.ownReport ∧ t.chip.fld = s.chip.fld) ∧
    (∀ r : Report, s.chip.galOn = true → s.chip.stairOpen k = true → s.chip.stairState k = glUP → r.dev ≠ s.chip.uid →
      (∀ x, s.chip.gal.reports.find r.dev = some x → x.seq < r.seq) →
      ∃ t, Sys2Proof.Machine.exec (.reportRx k r) s = .next t ∧ t.chip.gal.reports.find r.dev = some r ∧
        t.chip.gal.repTime.get 0 r.dev = s.chip.tim.clk) ∧
    (∀ (dev : Nat) (x : Report), s.chip.gal.reports.find dev = some x → s.chip.gal.repTime.get 0 dev + 400000000 ≤ s.chip.tim.clk →
      ∃ t, Sys2Proof.Machine.exec (.reportExpire dev) s = .next t ∧ t.chip.gal.reports.find dev = none) ∧
    (s.chip.galOn = true → s.chip.galState = gsELECT →
      s.chip.gal.viewAt + max 1 (s.chip.get Fd.GAL_TIMERS_SETTLE_MS 0 0) * 1000000 ≤ s.chip.tim.clk →
      ∃ t, Sys2Proof.Machine.exec .electSettle s = .next t ∧ t.chip.galState = gsJOINED ∧
        t.chip.gal.keeper = ((lowest s.chip.electors).map (fun r => r.dev)).getD 0 ∧
        t.chip.gal.standbyId = lowestBut s.chip.view t.chip.gal.keeper ∧ t.chip.atr = s.chip.atr) ∧
    (s.chip.serves m (viaOf m) .GAL_CMD 0 0 = true → s.chip.get Fd.GAL_CMD_STATUS 0 0 ≠ sBUSY →
      (s.chip.galState = gsORPHAN →
        ∃ t, Sys2Proof.Machine.exec (.elect m) s = .next t ∧ t.chip.galState = gsELECT ∧
          t.chip.get Fd.GAL_CMD_STATUS 0 0 = sDONE ∧ t.chip.gal.viewAt = s.chip.tim.clk) ∧
      (s.chip.galState ≠ gsORPHAN →
        ∃ t, Sys2Proof.Machine.exec (.elect m) s = .next t ∧ t.chip.galState = s.chip.galState ∧
          t.chip.get Fd.GAL_CMD_STATUS 0 0 = sSTATE ∧ t.chip.gal = s.chip.gal) ∧
      (s.chip.gal.keeper = s.chip.uid → s.chip.gal.keeper ≠ 0 →
        ∃ t, Sys2Proof.Machine.exec (.handover m) s = .next t ∧ t.chip.gal.handover = true ∧
          t.chip.get Fd.GAL_CMD_STATUS 0 0 = sBUSY ∧ t.chip.gal.keeper = s.chip.gal.keeper)) ∧
    (s.chip.galRuns = true → s.chip.gal.keeper = s.chip.uid → s.chip.gal.keeper ≠ 0 → s.chip.gal.due ≠ 0 → s.chip.gal.phase ≠ 1 →
      s.chip.sec.idScalar ≠ 0 → s.chip.drbgReady = true →
      (s.chip.gal.standbyId = 0 →
        ∃ t e, Sys2Proof.Machine.exec .epochBuild s = .next t ∧ t.chip.gal.ready = s.chip.gal.ready ++ [e] ∧
          e.number = s.chip.nextEpoch ∧ e.applyAt = s.chip.applyAt ∧ t.chip.gal.due = s.chip.gal.due - 1 ∧ t.chip.gal.phase = 0) ∧
      (s.chip.gal.standbyId ≠ 0 →
        ∃ t e, Sys2Proof.Machine.exec .epochBuild s = .next t ∧ t.chip.gal.building = some e ∧ e.number = s.chip.nextEpoch ∧
          t.chip.gal.due = s.chip.gal.due - 1 ∧ t.chip.gal.phase = 1 ∧ t.chip.gal.ready = s.chip.gal.ready)) ∧
    (∀ (num i n : Nat) (body : List Byte), s.chip.galOn = true → s.chip.stairOpen k = true → s.chip.stairState k = glUP →
      (s.chip.get Fd.GAL_EPOCH_NUMBER 0 0 = 0 → (num, 2 ^ 32 + i) ∉ s.chip.gal.seen) → s.chip.gal.segNum ≤ num → s.chip.gal.closes = [] →
      ∃ t, Sys2Proof.Machine.exec (.epochFrameRx k (.seg 4095 num i n body)) s = .next t ∧
        t.chip.gal.segs.find 2 i = some (body.map BitVec.toNat) ∧ t.chip.gal.segNum = num ∧ t.chip.gal.segCount.find 2 = some n ∧
        t.chip.gal.sent = [.seg 4095 num i n body] ∧
        (s.chip.get Fd.GAL_EPOCH_NUMBER 0 0 = 0 → (num, 2 ^ 32 + i) ∈ t.chip.gal.seen)) ∧
    (∀ e : Epoch, s.chip.gal.building = some e → s.chip.gal.phase = 1 →
      (s.chip.gal.tries < 2 →
        ∃ t, Sys2Proof.Machine.exec .epochAckTimeout s = .next t ∧ t.chip.gal.tries = s.chip.gal.tries + 1 ∧
          t.chip.gal.building = some e ∧ t.chip.gal.phase = 1) ∧
      (2 ≤ s.chip.gal.tries →
        ∃ t, Sys2Proof.Machine.exec .epochAckTimeout s = .next t ∧ t.chip.gal.building = none ∧ t.chip.gal.phase = 0 ∧
          s.chip.gal.standbyId ∈ t.chip.gal.dropped ∧ 1 ≤ t.chip.gal.due)) ∧
    (∀ e : Epoch, s.chip.gal.ready.find? (fun x => decide (x.applyAt ≤ s.chip.ns)) = some e → s.chip.galOn = true →
      s.chip.get Fd.GAL_EPOCH_NUMBER 0 0 < e.number → e.number < 2 ^ 32 →
      ∃ t, Sys2Proof.Machine.exec .epochApply s = .next t ∧ t.chip.get Fd.GAL_EPOCH_NUMBER 0 0 = e.number ∧
        t.chip.gal.inForce = some e ∧ e ∉ t.chip.gal.ready)

/-! ## Halls -/

/-- FLR of a virtual function stops its hall, starts its reset and moves its generation on; FLR of the PF is a DEV reset that
keeps the image and device time. GLB_PORT_OWN takes a written owner only while the port is quiesced. Each lifecycle command
that its hall's state permits (OPEN from IDLE, FREEZE from RUN, SAVE from FROZEN, RESTORE onto IDLE, THAW from FROZEN, CLOSE
from RUN or FROZEN) reads BUSY and has no other effect until it completes (log 118). At its completion OPEN and THAW leave
RUN, FREEZE leaves FROZEN with the hall stopped, SAVE has written the state image to host memory at its address, a RESTORE
whose read fails is TIMEOUT with check 1 and changes no table, and CLOSE leaves IDLE. -/
def Obligations.HallCommands : Prop :=
  (∀ (s : State) (h : Nat), s.chip.running = true →
      (0 < h → h < 32 → s.chip.hallPresent h = true →
        ∃ t, Sys2Proof.Machine.exec (.vfFlr h) s = .next t ∧ (5, h) ∈ t.chip.ctl.stopped ∧ (h, 1) ∈ t.chip.ctl.hallResets ∧
          t.chip.gen h = (s.chip.gen h + 1) % 256 ∧ t.chip.img = s.chip.img ∧ t.chip.ctl.rst = s.chip.ctl.rst) ∧
      (∃ t, Sys2Proof.Machine.exec .pfFlr s = .next t ∧ t.chip.ctl.rst = some (1, 1) ∧ t.chip.bus.kgOpen = false ∧
        t.chip.atr.frames = [] ∧ t.chip.img.inForce = s.chip.img.inForce ∧ t.chip.tim.devT = s.chip.tim.devT)) ∧
  (∀ (s : State) (m n : Nat) (v : Word), s.chip.serves m (viaOf m) .GLB_PORT_OWN n 0 = true →
      (s.chip.quiesced 0 n = true →
        ∃ t, Sys2Proof.Machine.exec (.portOwnWrite m n v) s = .next t ∧ t.chip.owner n = v.toNat % 32 ∧
          t.chip.shared n = bitOf v.toNat 31 ∧ t.chip.img = s.chip.img ∧ t.chip.ctl = s.chip.ctl) ∧
      (s.chip.quiesced 0 n = false →
        ∃ t, Sys2Proof.Machine.exec (.portOwnWrite m n v) s = .next t ∧ t.chip.owner n = s.chip.owner n ∧
          t.chip.shared n = s.chip.shared n ∧ t.chip.atr = s.chip.atr)) ∧
  (∀ (s : State) (m h : Nat) (a b : Bool), s.chip.serves m (viaOf m) .GLB_HALL_CMD 0 0 = true →
      s.chip.get Fd.GLB_HALL_CMD_STATUS 0 0 ≠ sBUSY → s.chip.priv m = true → 0 < h → h < 32 → s.chip.hallPresent h = true →
      (s.chip.hallState h = 1 →
        ∃ t, Sys2Proof.Machine.exec (.hallOpen m h) s = .next t ∧ t.chip.get Fd.GLB_HALL_CMD_STATUS 0 0 = sBUSY ∧
          t.chip.ctl.hallJob = some (opOPEN, h) ∧ t.chip.get Fd.GLB_HALL_CMD_HALL 0 0 = h ∧ t.chip.hallState h = 1) ∧
      (s.chip.hallState h = 2 →
        ∃ t, Sys2Proof.Machine.exec (.hallFreeze m h) s = .next t ∧ t.chip.get Fd.GLB_HALL_CMD_STATUS 0 0 = sBUSY ∧
          t.chip.ctl.hallJob = some (opFREEZE, h) ∧ t.chip.ctl.stopped = s.chip.ctl.stopped) ∧
      (s.chip.hallState h = 3 → s.chip.hallAddr % 64 = 0 →
        ∃ t, Sys2Proof.Machine.exec (.hallSave m h a b) s = .next t ∧ t.chip.get Fd.GLB_HALL_CMD_STATUS 0 0 = sBUSY ∧
          t.chip.ctl.hallJob = some (opSAVE, h) ∧ t.chip.flag Fd.GLB_HALL_CMD_CNT 0 0 = a ∧
          t.chip.flag Fd.GLB_HALL_CMD_DYN 0 0 = b ∧ t.chip.host = s.chip.host) ∧
      (s.chip.hallState h = 1 → s.chip.hallAddr % 64 = 0 →
        ∃ t, Sys2Proof.Machine.exec (.hallRestore m h) s = .next t ∧ t.chip.get Fd.GLB_HALL_CMD_STATUS 0 0 = sBUSY ∧
          t.chip.ctl.hallJob = some (opRESTORE, h) ∧ t.chip.get Fd.GLB_HALL_DETAIL_CHECK 0 0 = 0) ∧
      (s.chip.hallState h = 3 →
        ∃ t, Sys2Proof.Machine.exec (.hallThaw m h) s = .next t ∧ t.chip.get Fd.GLB_HALL_CMD_STATUS 0 0 = sBUSY ∧
          t.chip.ctl.hallJob = some (opTHAW, h) ∧ t.chip.ctl.stopped = s.chip.ctl.stopped) ∧
      (s.chip.hallState h = 2 ∨ s.chip.hallState h = 3 →
        ∃ t, Sys2Proof.Machine.exec (.hallClose m h) s = .next t ∧ t.chip.get Fd.GLB_HALL_CMD_STATUS 0 0 = sBUSY ∧
          t.chip.ctl.hallJob = some (opCLOSE, h) ∧ t.chip.gen h = s.chip.gen h)) ∧
  (∀ (s : State) (h : Nat) (readOk : Bool),
      (s.chip.ctl.hallJob = some (opOPEN, h) →
        ∃ t, Sys2Proof.Machine.exec (.hallCmdComplete readOk) s = .next t ∧ t.chip.ctl.hallJob = none ∧
          t.chip.get Fd.HAL_ID_STATE h 0 = 2 ∧ t.chip.get Fd.GLB_HALL_CMD_STATUS 0 0 = sDONE ∧ t.chip.atr = s.chip.atr) ∧
      (s.chip.ctl.hallJob = some (opFREEZE, h) → s.chip.quiet 5 h = true →
        (∀ n ∈ s.chip.exclusive h, s.chip.quiet 0 n = true) →
        ∃ t, Sys2Proof.Machine.exec (.hallCmdComplete readOk) s = .next t ∧ t.chip.ctl.hallJob = none ∧
          t.chip.get Fd.HAL_ID_STATE h 0 = 3 ∧ t.chip.get Fd.GLB_HALL_CMD_STATUS 0 0 = sDONE ∧ (5, h) ∈ t.chip.ctl.stopped) ∧
      (s.chip.ctl.hallJob = some (opSAVE, h) →
        let d := s.chip.hallImage h (s.chip.flag Fd.GLB_HALL_CMD_CNT 0 0) (s.chip.flag Fd.GLB_HALL_CMD_DYN 0 0)
        d.length ≤ s.chip.get Fd.GLB_HALL_LEN_LEN 0 0 →
        ∃ t, Sys2Proof.Machine.exec (.hallCmdComplete readOk) s = .next t ∧ t.chip.ctl.hallJob = none ∧
          t.chip.host = Mem.write hostBlank s.chip.host s.chip.hallAddr d ∧ t.chip.get Fd.GLB_HALL_CMD_STATUS 0 0 = sDONE) ∧
      (s.chip.ctl.hallJob = some (opRESTORE, h) →
        ∃ t, Sys2Proof.Machine.exec (.hallCmdComplete false) s = .next t ∧ t.chip.ctl.hallJob = none ∧
          t.chip.get Fd.GLB_HALL_CMD_STATUS 0 0 = sTIMEOUT ∧ t.chip.get Fd.GLB_HALL_DETAIL_CHECK 0 0 = 1 ∧
          t.chip.tbl = s.chip.tbl ∧ t.chip.get Fd.HAL_ID_STATE h 0 = s.chip.get Fd.HAL_ID_STATE h 0) ∧
      (s.chip.ctl.hallJob = some (opTHAW, h) → (s.chip.hallRt h).savedUp = [] →
        ∃ t, Sys2Proof.Machine.exec (.hallCmdComplete readOk) s = .next t ∧ t.chip.ctl.hallJob = none ∧
          t.chip.get Fd.HAL_ID_STATE h 0 = 2 ∧ t.chip.get Fd.GLB_HALL_CMD_STATUS 0 0 = sDONE ∧ t.chip.img = s.chip.img) ∧
      (s.chip.ctl.hallJob = some (opCLOSE, h) →
        ∃ t, Sys2Proof.Machine.exec (.hallCmdComplete readOk) s = .next t ∧ t.chip.ctl.hallJob = none ∧
          t.chip.get Fd.HAL_ID_STATE h 0 = 1 ∧ t.chip.get Fd.GLB_HALL_CMD_STATUS 0 0 = sDONE ∧ t.chip.img = s.chip.img))

/-- Mailboxes and rings: SEND and REPLY fill the two sides, the acknowledgements empty them; a ring starts at HEAD 0, its doorbell
is ignored while the hall's generation is not acknowledged; a ring is served when its engine's turn comes to it, and otherwise its
descriptor event does nothing; a ring that alone has work at its engine is served; a descriptor of another generation halts its
ring. -/
def Obligations.MailboxesAndRings : Prop :=
  (∀ (s : State) (m h len : Nat) (v : Word),
      (s.chip.serves m (slotVia m h) .HAL_MBX_CTRL h 0 = true →
        (s.chip.get Fd.HAL_MBX_CTRL_STATUS h 0 ≠ sBUSY → s.chip.genCurrent h = true → (s.chip.hallRt h).staleReply = false →
          s.chip.stopped 5 h = false → s.chip.flag Fd.HAL_MBX_CTRL_OUT_FULL h 0 = false → 1 ≤ bits 22 16 v.toNat →
          bits 22 16 v.toNat ≤ 64 →
          ∃ t, Sys2Proof.Machine.exec (.mbxSend m h v) s = .next t ∧ t.chip.flag Fd.HAL_MBX_CTRL_OUT_FULL h 0 = true ∧
            t.chip.get Fd.HAL_MBX_CTRL_OUT_LEN h 0 = bits 22 16 v.toNat ∧ t.chip.get Fd.HAL_MBX_CTRL_STATUS h 0 = sDONE ∧
            t.chip.get Fd.HAL_MBX_MGR_GEN h 0 = s.chip.gen h ∧ (0, 34 + h % 30) ∈ t.chip.bus.irqs ∧ t.chip.atr = s.chip.atr) ∧
        (∃ t, Sys2Proof.Machine.exec (.mbxInAck m h) s = .next t ∧ t.chip.flag Fd.HAL_MBX_CTRL_IN_FULL h 0 = false ∧
          t.chip.get Fd.HAL_MBX_CTRL_OUT_LEN h 0 = s.chip.get Fd.HAL_MBX_CTRL_OUT_LEN h 0 ∧
          t.chip.get Fd.HAL_MBX_CTRL_OUT_FULL h 0 = s.chip.get Fd.HAL_MBX_CTRL_OUT_FULL h 0 ∧ t.chip.halls = s.chip.halls)) ∧
      (s.chip.serves m (slotVia m h) .HAL_MBX_MGR h 0 = true → s.chip.priv m = true →
        ((s.chip.hallRt h).stamped = none ∨ (s.chip.hallRt h).stamped = some (s.chip.gen h) →
          ∃ t, Sys2Proof.Machine.exec (.mbxReply m h len) s = .next t ∧ t.chip.flag Fd.HAL_MBX_CTRL_IN_FULL h 0 = true ∧
            t.chip.get Fd.HAL_MBX_CTRL_IN_LEN h 0 = len % 128 ∧ (h, 32) ∈ t.chip.bus.irqs ∧ t.chip.halls = s.chip.halls) ∧
        (∀ g, (s.chip.hallRt h).stamped = some g → g ≠ s.chip.gen h →
          ∃ t, Sys2Proof.Machine.exec (.mbxReply m h len) s = .next t ∧
            t.chip.get Fd.HAL_MBX_CTRL_IN_FULL h 0 = s.chip.get Fd.HAL_MBX_CTRL_IN_FULL h 0 ∧
            (t.chip.hallRt h).staleReply = true) ∧
        (∃ t, Sys2Proof.Machine.exec (.mbxOutAck m h) s = .next t ∧ t.chip.flag Fd.HAL_MBX_CTRL_OUT_FULL h 0 = false ∧
          t.chip.get Fd.HAL_MBX_CTRL_IN_FULL h 0 = s.chip.get Fd.HAL_MBX_CTRL_IN_FULL h 0 ∧ t.chip.halls = s.chip.halls))) ∧
  (∀ (s : State) (m h r tail : Nat) (v : Word),
      (s.chip.serves m (slotVia m h) .HAL_RING_CTRL h r = true → bitOf v.toNat 31 = true → s.chip.ringOn h r = false →
        (r % 16 < s.chip.ringQuota h r →
          ∃ t, Sys2Proof.Machine.exec (.ringEnable m h r v) s = .next t ∧ t.chip.ringOn h r = true ∧
            t.chip.get Fd.HAL_RING_HEAD_HEAD h r = 0 ∧ t.chip.get Fd.HAL_RING_TAIL_TAIL h r = 0 ∧
            t.chip.get Fd.HAL_RING_CPLT_PHASE h r = 1 ∧ t.chip.flag Fd.HAL_RING_ERR_HALTED h r = false ∧
            t.chip.host = s.chip.host) ∧
        (s.chip.ringQuota h r ≤ r % 16 →
          ∃ t, Sys2Proof.Machine.exec (.ringEnable m h r v) s = .next t ∧ t.chip.ringOn h r = false ∧ t.chip.rings = s.chip.rings)) ∧
      (s.chip.serves m (slotVia m h) .HAL_RING_TAIL h r = true →
        ∃ t, Sys2Proof.Machine.exec (.ringTailWrite m h r tail) s = .next t ∧
          t.chip.get Fd.HAL_RING_TAIL_TAIL h r =
            (if s.chip.genCurrent h then tail % 2 ^ 16 else s.chip.get Fd.HAL_RING_TAIL_TAIL h r) ∧ t.chip.host = s.chip.host) ∧
      ((s.chip.ringRt h r).since ≠ 0 →
        (s.chip.ringRt h r).first + 1000 * s.chip.get Fd.HAL_RING_IRQ_USEC h r ≤ s.chip.tim.clk →
        ∃ t, Sys2Proof.Machine.exec (.ringIrqTimer h r) s = .next t ∧ (t.chip.ringRt h r).since = 0 ∧
          (s.chip.flag Fd.HAL_RING_CTRL_IRQ_EN h r = true → (h, r) ∈ t.chip.bus.irqs) ∧ t.chip.fld = s.chip.fld)) ∧
  (∀ (s : State) (h r : Nat), r < 16 →
      (∀ (p : Nat) (c : Chip), s.chip.dmaTurn h r = some c → s.chip.ringPipe h r = some p →
        let ws := c.fetchDesc h r 32
        (bits 31 24 (ws.getD 3 0) ≠ s.chip.gen h →
          ∃ t, Sys2Proof.Machine.exec (.txDescriptor h r) s = .next t ∧ t.chip.flag Fd.HAL_RING_ERR_HALTED h r = true ∧
            t.chip.get Fd.HAL_RING_ERR_ERR h r = sSTALE ∧ t.chip.host = s.chip.host ∧ t.chip.atr = s.chip.atr ∧
            t.chip.get Fd.HAL_RING_HEAD_HEAD h r = s.chip.get Fd.HAL_RING_HEAD_HEAD h r) ∧
        (bits 31 24 (ws.getD 3 0) = s.chip.gen h →
          let x := c.txFrame h p ws
          let w := x.2.2.txWords x.2.1 (ws.getD 4 0)
          ∃ t, Sys2Proof.Machine.exec (.txDescriptor h r) s = .next t ∧ t.chip = w.2.complete h r 0 x.1 w.1 ∧
            (x.1 = sPRIV →
              t.chip.get Fd.HAL_RING_HEAD_HEAD h r = (s.chip.get Fd.HAL_RING_HEAD_HEAD h r + 1) % 2 ^ 16))) ∧
      (s.chip.dmaTurn h r = none → ∃ t, Sys2Proof.Machine.exec (.txDescriptor h r) s = .next t ∧ t = s) ∧
      (∀ q n : Nat, q = r ∨ q = 16 + r → s.chip.ringNext h q = some n → h < 32 →
        (∀ h2, h2 < 32 → ∀ r2, r2 < 32 → s.chip.ringEngine h2 r2 = s.chip.ringEngine h q → (h2, r2) ≠ (h, q) →
          s.chip.ringNext h2 r2 = none) →
        ∃ rt, s.chip.dmaTurn h q = some { s.chip with dma := s.chip.dma.put DmaRt.init (s.chip.ringEngine h q) rt }) ∧
      (∀ (x : Copy) (l : List Copy) (f : Frame) (ct : Chip), s.chip.ringReady h (16 + r) = true →
        s.chip.queue (128 + h) r = x :: l → s.chip.stale x = false → s.chip.frame x.fid = some f → f.ended = true → f.ecc = [] →
        s.chip.dmaTurn h (16 + r) = some ct →
        ∃ t, Sys2Proof.Machine.exec (.rxCopyDeliver h r) s = .next t ∧ t.chip = ct.deliver h r x f ∧
          (bits 31 24 ((s.chip.fetchDesc h (16 + r) 16).getD 3 0) ≠ s.chip.gen h →
            t.chip.flag Fd.HAL_RING_ERR_HALTED h (16 + r) = true ∧ t.chip.queue (128 + h) r = x :: l ∧
            t.chip.atr.frames = s.chip.atr.frames ∧ t.chip.host = s.chip.host)))

/-! ## Register accesses -/

/-- A whole-word write reaches the register that its address names and arms the KG lock again, one of two aligned words is the two
writes, the lower address first, and a narrow one, or a longer or unaligned request, is refused; the lock opens with its key alone; bits of GLB_PRIV_MAP only clear, and not the last; voted fields take the value of two copies. -/
def Obligations.RegisterWrites : Prop :=
  (∀ (s : State) (m a be : Nat) (v v2 : Word),
      (a % 8 = 0 → ∃ t u, Sys2Proof.Machine.exec (.registerWrite m a 15 (0#32 ++ v)) s = .next t ∧
        Sys2Proof.Machine.exec (.registerWrite m (a + 4) 15 (0#32 ++ v2)) t = .next u ∧
        Sys2Proof.Machine.exec (.registerWrite m a 16 (v2 ++ v)) s = .next u) ∧
      (16 ≤ be → ¬(be = 16 ∧ a % 8 = 0) → s.chip.ctl.standby = false →
        s.chip.reach m (s.chip.locate m (a / 4 * 4)).1 true = .ok → s.chip.flag Fd.GLB_ACCESS_ERR_VALID 0 0 = false →
        ∃ t, Sys2Proof.Machine.exec (.registerWrite m a be (v2 ++ v)) s = .next t ∧ t.chip.bus.kgOpen = false ∧
          t.chip.get Fd.GLB_ACCESS_ERR_VALID 0 0 = 1 ∧ t.chip.get Fd.GLB_ACCESS_ERR_KIND 0 0 = kUNALIGNED ∧
          t.chip.get Fd.GLB_ACCESS_ERR_WRITE 0 0 = 1 ∧ t.chip.ports = s.chip.ports ∧ t.chip.atr = s.chip.atr)) ∧
  (∀ (s : State) (m a be : Nat) (v v2 : Word), s.chip.ctl.standby = false → s.chip.reach m (s.chip.locate m (a / 4 * 4)).1 true = .ok →
      ((s.chip.locate m (a / 4 * 4)).2 = .reg .GLB_QSC_TIMEOUT 0 0 none → s.chip.serves m none .GLB_QSC_TIMEOUT 0 0 = true →
        ∃ t, Sys2Proof.Machine.exec (.registerWrite m a 15 (v2 ++ v)) s = .next t ∧
          t.chip.get Fd.GLB_QSC_TIMEOUT_TIMEOUT_US 0 0 = v.toNat % 2 ^ Fd.GLB_QSC_TIMEOUT_TIMEOUT_US.width ∧
          t.chip.bus.kgOpen = false ∧ t.chip.atr = s.chip.atr ∧ t.chip.ctl = s.chip.ctl ∧
          t.chip.get Fd.GLB_ACCESS_ERR_VALID 0 0 = s.chip.get Fd.GLB_ACCESS_ERR_VALID 0 0) ∧
      (0 < be → be < 15 → s.chip.flag Fd.GLB_ACCESS_ERR_VALID 0 0 = false →
        ∃ t, Sys2Proof.Machine.exec (.registerWrite m a be (v2 ++ v)) s = .next t ∧ t.chip.bus.kgOpen = false ∧
          t.chip.get Fd.GLB_ACCESS_ERR_VALID 0 0 = 1 ∧ t.chip.get Fd.GLB_ACCESS_ERR_KIND 0 0 = kNARROW ∧
          t.chip.get Fd.GLB_ACCESS_ERR_WRITE 0 0 = 1 ∧ t.chip.ports = s.chip.ports ∧ t.chip.atr = s.chip.atr)) ∧
  (∀ (s : State) (m : Nat) (v : Word),
      (s.chip.serves m (viaOf m) .GLB_UNLOCK 0 0 = true →
        ∃ t, Sys2Proof.Machine.exec (.unlock m v) s = .next t ∧ t.chip.bus.kgOpen = decide (v.toNat = 0x6B5AD2C1) ∧
          (v.toNat = 0x6B5AD2C1 → t.chip.fld = s.chip.fld) ∧
          (v.toNat ≠ 0x6B5AD2C1 → s.chip.flag Fd.GLB_ACCESS_ERR_VALID 0 0 = false →
            t.chip.get Fd.GLB_ACCESS_ERR_KIND 0 0 = kREFUSED)) ∧
      (∃ t, Sys2Proof.Machine.exec .kgLockTimeout s = .next t ∧ t.chip.bus.kgOpen = false ∧ t.chip.fld = s.chip.fld) ∧
      (s.chip.serves m (viaOf m) .GLB_PRIV_MAP 0 0 = true →
        let x := (v.toNat % 2 * s.chip.privMap.1, bits 1 1 v.toNat * s.chip.privMap.2.1, bits 2 2 v.toNat * s.chip.privMap.2.2)
        ∃ t, Sys2Proof.Machine.exec (.privMapWrite m v) s = .next t ∧ t.chip.bus.kgOpen = false ∧
          t.chip.privMap = (if s.chip.bus.kgOpen = true ∧ x ≠ (0, 0, 0) then x else s.chip.privMap)) ∧
      (s.chip.serves m (viaOf m) .GLB_DKC_CTRL 0 0 = true → s.chip.stopped 6 0 = true →
        ∃ t, Sys2Proof.Machine.exec (.dkcEnableWrite m v) s = .next t ∧
          t.chip.flag Fd.GLB_DKC_CTRL_EN 0 0 =
            (if bitOf v.toNat 31 && !s.chip.flag Fd.GLB_DKC_CTRL_EN 0 0 && s.chip.dkcBarred then false else bitOf v.toNat 31) ∧
          t.chip.atr = s.chip.atr)) ∧
  (∀ (s : State) (u : TvUpset) (n : Nat), s.chip.running = true → decodeNative u.addr = some (.GLB_PORT_PIPE, n, 0) → u.lo = 0 →
      (∀ e ∈ s.chip.fld, e.1.copy = 0) → u.c0 < 4 → u.c1 < 4 → u.c2 < 4 → (u.c0 ≠ u.c1 ∨ u.c1 ≠ u.c2) →
      (∀ v, tvMajority u = some v →
        ∃ t, Sys2Proof.Machine.exec (.tvScrub [u]) s = .next t ∧ t.chip.portPipe n = v ∧
          t.chip.get Fd.GLB_TV_STATUS_CORR 0 0 = min (s.chip.get Fd.GLB_TV_STATUS_CORR 0 0 + 1) (2 ^ 16 - 1) ∧
          t.chip.ports = s.chip.ports ∧ t.otp = s.otp) ∧
      (tvMajority u = none →
        ∃ t, Sys2Proof.Machine.exec (.tvScrub [u]) s = .next t ∧ t.chip.get Fd.GLB_TV_STATUS_UNCORR 0 0 = 1 ∧ t.otp = s.otp))

/-- A full read gives the register's value, latches what belongs to it, and clears or consumes what its rule says, whoever reads; a
narrow read clears nothing. The copies of a voted field are checked first: `k` is the block after that check. -/
def Obligations.RegisterReads : Prop :=
  (∀ (s : State) (m a be : Nat) (via : Option Nat) (r : R) (i j : Nat), s.chip.answersReg m (a / 4 * 4) via r i j →
      let k := s.chip.tvReadCheck r i j
      (∃ t, Sys2Proof.Machine.exec (.rcFieldRead m a 15) s = .next t ∧
        (∀ w ∈ r.rows, w.acc = .rc → w.view = false → t.chip.get w.f i j = 0)) ∧
      (0 < be → be < 15 →
        ∃ t, Sys2Proof.Machine.exec (.rcFieldRead m a be) s = .next t ∧ t.chip.fld = k.fld ∧
          t.chip.bus.readData.get 0 m = maskBytes be (k.regLive m via r i j)) ∧
      (∀ r2 i2 j2, r.pairHalf i j = some (false, r2, i2, j2) →
        ∃ t, Sys2Proof.Machine.exec (.pairLowRead m a 15) s = .next t ∧
          t.chip.bus.readData.get 0 m = k.regLive m via r i j ∧
          t.chip.bus.latches.get 0 m (addrOf r2 i2 j2) = k.regLive m via r2 i2 j2)) ∧
  (∀ (s : State) (m : Nat) (via : Option Nat),
      (s.chip.answersReg m (hallAddrOf m 0x200010 0x2000) via .TIM_TIME_NS 0 0 →
        ∃ t, Sys2Proof.Machine.exec (.timeLatchRead m) s = .next t ∧ t.chip.bus.readData.get 0 m = s.chip.nsec ∧
          t.chip.bus.latches.get 0 m (addrOf .TIM_TIME_SEC_LO 0 0) = s.chip.secs % 2 ^ 32 ∧
          t.chip.bus.latches.get 0 m (addrOf .TIM_TIME_SEC_HI 0 0) =
            s.chip.secs / 2 ^ 32 % 2 ^ 16 * 2 ^ 16 + fracOf s.chip.tim.devT ∧
          t.chip.tim = s.chip.tim) ∧
      (s.chip.answersReg m (hallAddrOf m 0x200108 0x2010) via .TIM_CYC_ANGLE 0 0 →
        ∃ t, Sys2Proof.Machine.exec (.cycAngleLatchRead m) s = .next t ∧ t.chip.bus.readData.get 0 m = s.chip.angle ∧
          t.chip.bus.latches.get 0 m (addrOf .TIM_CYC_COUNT 0 0) = s.chip.cycCount ∧
          t.chip.bus.latches.get 0 m (addrOf .TIM_CYC_LT_NS 0 0) = s.chip.nsec ∧ t.chip.cyc = s.chip.cyc) ∧
      (¬(1 ≤ m ∧ m < 32) → s.chip.answersReg m 0x30 none .GLB_ACCESS_ERR 0 0 →
        ∃ t, Sys2Proof.Machine.exec (.accessErrRead m) s = .next t ∧
          t.chip.bus.readData.get 0 m = s.chip.regLive m none .GLB_ACCESS_ERR 0 0 ∧
          t.chip.get Fd.GLB_ACCESS_ERR_VALID 0 0 = 0 ∧ t.chip.get Fd.GLB_ACCESS_ERR_MORE 0 0 = 0 ∧
          t.chip.get Fd.GLB_ACCESS_ERR_ADDR_ADDR 0 0 = s.chip.get Fd.GLB_ACCESS_ERR_ADDR_ADDR 0 0)) ∧
  (∀ (s : State) (m n k : Nat) (via : Option Nat),
      (∀ e, n < 96 → s.chip.answersReg m (hallAddrOf m (0x204010 + 0x20 * n) (0x3010 + 0x20 * n)) via .TIM_TSQ_W k 3 →
        tsqHead s.chip k via = some e →
        ∃ t, Sys2Proof.Machine.exec (.tsqEntryRead m false n) s = .next t ∧ t.chip.bus.readData.get 0 m = nsOf e.devT ∧
          t.chip.tsq.get [] k = (s.chip.tsq.get [] k).erase e ∧ t.chip.fld = s.chip.fld) ∧
      (n < 4 → ¬(1 ≤ m ∧ m < 32) → s.chip.answersReg m (0x20031C + 0x20 * n) none .TIM_CAP_W n 5 →
        ∃ t, Sys2Proof.Machine.exec (.tsqEntryRead m true n) s = .next t ∧
          t.chip.caps.get [] n = (s.chip.caps.get [] n).drop 1 ∧ t.chip.fld = s.chip.fld) ∧
      (n < 32 → s.chip.answersReg m (hallAddrOf m (if n = 0 then 0xC00540 else 0x2004540 + 0x100000 * n) 0x4540) via .TBL_RES_INFO k 0 →
        ∃ t, Sys2Proof.Machine.exec (.tblResRead m n) s = .next t ∧ t.chip.get Fd.TBL_RES_INFO_RESULT_VALID k 0 = 0 ∧
          (∀ w, w < 16 → t.chip.get Fd.TBL_RES_RES k w = 0) ∧ t.chip.tbl = s.chip.tbl ∧
          t.chip.bus.readData.get 0 m = s.chip.regLive m via .TBL_RES_INFO k 0) ∧
      (∀ e, n < 32 → s.chip.answersReg m (hallAddrOf m (if n = 0 then 0xC0060C else 0x200460C + 0x100000 * n) 0x460C) via .TBL_LRN_REC k 3 →
        s.chip.lrnHead k = some e →
        ∃ t, Sys2Proof.Machine.exec (.lrnRecRead m n) s = .next t ∧ t.chip.lrn = s.chip.lrn.erase e ∧
          t.chip.bus.readData.get 0 m = e.ns % 2 ^ 32) ∧
      (¬(1 ≤ m ∧ m < 32) →
        (s.chip.answersReg m 0x1C01280 none .SEC_CE_RES_INFO 0 0 →
          ∃ t, Sys2Proof.Machine.exec (.ceResRead m 0) s = .next t ∧ t.chip.get Fd.SEC_CE_RES_INFO_RESULT_VALID 0 0 = 0 ∧
            (∀ w, w < 24 → t.chip.get Fd.SEC_CE_RES_RES w 0 = 0) ∧ t.chip.sec = s.chip.sec) ∧
        (s.chip.answersReg m 0x1C02140 none .SEC_KE_RES_INFO 0 0 →
          ∃ t, Sys2Proof.Machine.exec (.ceResRead m 1) s = .next t ∧ t.chip.get Fd.SEC_KE_RES_INFO_RESULT_VALID 0 0 = 0 ∧
            (∀ w, w < 16 → t.chip.get Fd.SEC_KE_OUT_OUT w 0 = 0) ∧ t.chip.sec = s.chip.sec) ∧
        (s.chip.answersReg m 0x1C03030 none .SEC_RNG_INFO 0 0 →
          ∃ t, Sys2Proof.Machine.exec (.ceResRead m 2) s = .next t ∧ t.chip.get Fd.SEC_RNG_INFO_RESULT_VALID 0 0 = 0 ∧
            (∀ w, w < 8 → t.chip.get Fd.SEC_RNG_OUT_OUT w 0 = 0) ∧ t.chip.sec = s.chip.sec)) ∧
      (n < 4 → ¬(1 ≤ m ∧ m < 32) → s.chip.answersReg m (0x800A14 + 0x100000 * n) none .PIP_EREC_W n 4 →
        ∃ t, Sys2Proof.Machine.exec (.evcRecordRead m n) s = .next t ∧ (t.chip.pipe n).recs = (s.chip.pipe n).recs.drop 1 ∧
          t.chip.fld = s.chip.fld))

/-- A whole side-band Block Write is the register write of its address and data by the side-band master, one that has not
ended waits and applies nothing, and a whole Process Call is a full register read; SCL held low discards the waiting write and
counts it; the alert response answers with the address of the device and releases the alert. A JTAG access with GO is the
register access by the JTAG master, reads BUSY until REG_ACCESS_COMPLETE and holds the data of a read; a second one while BUSY
is refused with ERR (the access takes effect when it is issued, log 78). -/
def Obligations.SideBandAndJtag : Prop :=
  (∀ (s : State) (a0 a1 a2 a3 d0 d1 d2 d3 : Byte), s.chip.pins.auxGood = true → s.chip.bus.sbOpen = false →
      s.chip.flag Fd.GLB_SB_CTRL_PEC_REQ 0 0 = false → a0.toNat % 4 = 0 →
      let a := leNat [a0.toNat, a1.toNat, a2.toNat, a3.toNat]
      (∃ t, Sys2Proof.Machine.exec (.sbWrite { bytes := [1, 8, a0, a1, a2, a3, d0, d1, d2, d3], readBytes := 0, stopped := true }) s = .next t ∧
        Sys2Proof.Machine.exec (.registerWrite mSB a 15 (0#32 ++ (d3 ++ d2 ++ d1 ++ d0))) s = .next t) ∧
      (∃ t, Sys2Proof.Machine.exec (.sbWrite { bytes := [1, 8, a0, a1, a2, a3, d0, d1, d2, d3], readBytes := 0, stopped := false }) s = .next t ∧
        t.chip.bus.sbOpen = true ∧ t.chip.fld = s.chip.fld) ∧
      (∃ t, Sys2Proof.Machine.exec (.sbRead { bytes := [2, 4, a0, a1, a2, a3], readBytes := 5, stopped := true }) s = .next t ∧
        Sys2Proof.Machine.exec (.rcFieldRead mSB a 15) s = .next t)) ∧
  (∀ s : State,
      (s.chip.bus.sbOpen = true →
        ∃ t, Sys2Proof.Machine.exec .sbSclTimeout s = .next t ∧ t.chip.bus.sbOpen = false ∧
          t.chip.get Fd.GLB_SB_STATUS_ABORTED 0 0 = min (s.chip.get Fd.GLB_SB_STATUS_ABORTED 0 0 + 1) 255 ∧
          t.chip.atr = s.chip.atr) ∧
      (s.chip.alertLow = true → s.chip.pins.auxGood = true →
        ∃ t, Sys2Proof.Machine.exec .sbAlertResponse s = .next t ∧ t.chip.bus.alert = false ∧
          t.chip.bus.readData.get 0 mSB = 2 * (0x40 + s.chip.pins.sbAddr % 8) ∧ t.chip.fld = s.chip.fld) ∧
      (∀ (a : Nat) (v : Word), s.chip.pins.auxGood = true →
        (s.chip.bus.jtagBusy = false → a % 4 = 0 →
          (∃ t u, Sys2Proof.Machine.exec (.regAccess true true a v) s = .next t ∧
            Sys2Proof.Machine.exec (.registerWrite mJTAG a 15 (0#32 ++ v)) s = .next u ∧ t.chip.fld = u.chip.fld ∧ t.chip.ctl = u.chip.ctl ∧
            t.chip.bus.jtagBusy = true ∧ t.chip.bus.jtagAddr = a ∧ t.chip.bus.jtagData = 0) ∧
          (∃ t u, Sys2Proof.Machine.exec (.regAccess true false a v) s = .next t ∧
            Sys2Proof.Machine.exec (.rcFieldRead mJTAG a 15) s = .next u ∧ t.chip.fld = u.chip.fld ∧ t.chip.bus.jtagBusy = true ∧
            t.chip.bus.jtagAddr = a ∧ t.chip.bus.jtagData = u.chip.bus.readData.get 0 mJTAG)) ∧
        (s.chip.bus.jtagBusy = true →
          ∃ t, Sys2Proof.Machine.exec (.regAccess true true a v) s = .next t ∧ t.chip.bus.jtagErr = true ∧
            t.chip.bus.jtagBusy = true ∧ t.chip.fld = s.chip.fld)) ∧
      (∃ t, Sys2Proof.Machine.exec .regAccessComplete s = .next t ∧ t.chip.bus.jtagBusy = false ∧
        t.chip.bus.jtagData = s.chip.bus.jtagData ∧ t.chip.fld = s.chip.fld))

/-! ## Security -/

/-- Lifecycle, fuses, and the entropy source: what a command that passes its checks starts, and what ends it. -/
def Obligations.FusesAndEntropy : Prop :=
  (∀ (s : State) (m row : Nat), s.chip.bus.kgOpen = true → s.chip.priv m = true → s.chip.sec.burn = none →
      (s.chip.serves m (viaOf m) .SEC_LC_CMD 0 0 = true → s.chip.get Fd.SEC_LC_CMD_STATUS 0 0 ≠ sBUSY →
        (s.chip.lifecycle = 0 ∧ s.chip.get Fd.SEC_RNG_STATUS_STATE 0 0 = 2) ∨
          (s.chip.lifecycle = 1 ∧ s.chip.shownAny 8 12 = true ∧ s.chip.shownAny 32 19 = true) ∨ s.chip.lifecycle = 2 →
        ∃ t j, Sys2Proof.Machine.exec (.lcAdvance m) s = .next t ∧ t.chip.get Fd.SEC_LC_CMD_STATUS 0 0 = sBUSY ∧
          t.chip.sec.burn = some j ∧ j.op = 1 ∧ j.a = s.chip.lifecycle ∧ j.b = 1 ∧ t.otp = s.otp) ∧
      (s.chip.serves m (viaOf m) .SEC_FUSE_CMD 0 0 = true → s.chip.get Fd.SEC_FUSE_CMD_STATUS 0 0 ≠ sBUSY → row < 256 →
        fuseRowOk row = true → s.chip.burnMask row ≠ 0 →
        clear32 (s.chip.get Fd.SEC_FUSE_DATA_DATA 0 0) (s.chip.burnMask row) = 0 →
        s.chip.revokeBad row (s.chip.get Fd.SEC_FUSE_DATA_DATA 0 0) = false →
        ∃ t, Sys2Proof.Machine.exec (.fuseProgram m row) s = .next t ∧ t.chip.get Fd.SEC_FUSE_CMD_STATUS 0 0 = sBUSY ∧
          t.chip.sec.burn = some { op := 0, a := row, b := s.chip.get Fd.SEC_FUSE_DATA_DATA 0 0, ws := [] } ∧ t.otp = s.otp)) ∧
  (∀ (s : State) (j : SecJob), s.chip.sec.burn = some j →
      (j.op = 0 →
        ∃ t, Sys2Proof.Machine.exec (.fuseBurnComplete []) s = .next t ∧ t.chip.get Fd.SEC_FUSE_CMD_STATUS 0 0 = sDONE ∧
          t.chip.sec.burn = none ∧ t.otp = Otp.burn s.otp j.a (j.b % 2 ^ 32) ∧ t.chip.sec.shown = t.otp ∧
          t.chip.sec.sensed = s.chip.sec.sensed) ∧
      (j.op = 1 → j.b = 1 → j.a = 1 ∨ j.a = 2 →
        ∃ t, Sys2Proof.Machine.exec (.fuseBurnComplete []) s = .next t ∧ t.chip.get Fd.SEC_LC_CMD_STATUS 0 0 = sDONE ∧
          t.chip.sec.burn = none ∧ t.otp = Otp.burn s.otp 0 (if j.a = 1 then 0x38 else 0x1C0) ∧
          t.chip.sec.sensed = s.chip.sec.sensed)) ∧
  (∀ (s : State) (m : Nat) (w : List Bool),
      (w.length = 1024 → s.chip.running = true →
        (windowFails w = false → s.chip.rngState = 1 → s.chip.sec.windows ≠ 0 →
          ∃ t, Sys2Proof.Machine.exec (.entropyWindow w) s = .next t ∧ t.chip.rngState = rngRUN ∧ t.otp = s.otp) ∧
        (windowFails w = true → s.chip.rngState = rngRUN → s.chip.get Fd.SEC_RNG_STATUS_FAIL_RUN 0 0 = 0 →
          ∃ t, Sys2Proof.Machine.exec (.entropyWindow w) s = .next t ∧ t.chip.rngState = rngWAIT ∧
            t.chip.get Fd.SEC_RNG_STATUS_FAIL_RUN 0 0 = 1 ∧ t.chip.sec = s.chip.sec)) ∧
      (s.chip.drbgReady = true →
        ∃ t, Sys2Proof.Machine.exec .drbgReseed s = .next t ∧ t.chip.sec.requests = 0 ∧ t.chip.fld = s.chip.fld) ∧
      (s.chip.serves m (viaOf m) .SEC_RNG_CMD 0 0 = true → s.chip.priv m = true → s.chip.get Fd.SEC_RNG_CMD_STATUS 0 0 ≠ sBUSY →
        (s.chip.rngState = 0 ∨ s.chip.rngState = rngERROR →
          ∃ t, Sys2Proof.Machine.exec (.rngInit m) s = .next t ∧ t.chip.get Fd.SEC_RNG_CMD_STATUS 0 0 = sBUSY ∧
            t.chip.sec.rng = some 1 ∧ t.chip.rngState = s.chip.rngState) ∧
        (s.chip.rngState = rngRUN →
          ∃ t, Sys2Proof.Machine.exec (.rngGenerate m) s = .next t ∧ t.chip.get Fd.SEC_RNG_CMD_STATUS 0 0 = sDONE ∧
            t.chip.get Fd.SEC_RNG_INFO_RESULT_VALID 0 0 = 1 ∧ t.chip.sec.requests = s.chip.sec.requests + 1)))

/-- The crypto engine and the key engine: a command that passes its checks takes its operands and reads BUSY; its end reports the
outcome, leaves a result only with DONE, and clears the cleartext key. -/
def Obligations.CryptoAndKeyEngines : Prop :=
  (∀ (s : State) (m k v : Nat), s.chip.serves m (viaOf m) .SEC_CE_CMD 0 0 = true → s.chip.priv m = true →
      s.chip.get Fd.SEC_CE_CMD_STATUS 0 0 ≠ sBUSY → k < 2 → v < 2 →
      (s.chip.get Fd.SEC_CE_OP_OPW 0 0 % 4 = 0 →
        ∃ t, Sys2Proof.Machine.exec (.ceSha384 m) s = .next t ∧ t.chip.get Fd.SEC_CE_CMD_STATUS 0 0 = sBUSY ∧
          t.chip.sec.ce = some { op := 1, a := 0, b := 0, ws := s.chip.ceOperands }) ∧
      (∃ t, Sys2Proof.Machine.exec (.ceVerify m v) s = .next t ∧ t.chip.get Fd.SEC_CE_CMD_STATUS 0 0 = sBUSY ∧
        t.chip.sec.ce = some { op := 2, a := 0, b := v, ws := s.chip.ceOperands }) ∧
      (∃ t, Sys2Proof.Machine.exec (.ceDerive m v) s = .next t ∧ t.chip.get Fd.SEC_CE_CMD_STATUS 0 0 = sBUSY ∧
        t.chip.sec.ce = some { op := 4, a := 0, b := v, ws := s.chip.ceOperands }) ∧
      (k = 0 ∨ (v = 1 ∧ s.chip.sec.idScalar ≠ 0 ∧ (s.chip.lifecycle = 1 ∨ s.chip.lifecycle = 2)) →
        (s.chip.get Fd.SEC_RNG_STATUS_STATE 0 0 ≠ 4 →
          ∃ t, Sys2Proof.Machine.exec (.ceSign m k v) s = .next t ∧ t.chip.get Fd.SEC_CE_CMD_STATUS 0 0 = sBUSY ∧
            t.chip.sec.ce = some { op := 3, a := k, b := v, ws := s.chip.ceOperands }) ∧
        (∃ t, Sys2Proof.Machine.exec (.cePubkey m k v) s = .next t ∧ t.chip.get Fd.SEC_CE_CMD_STATUS 0 0 = sBUSY ∧
          t.chip.sec.ce = some { op := 5, a := k, b := v, ws := s.chip.ceOperands })) ∧
      (s.chip.lifecycle = 1 → s.chip.ftLock = false → s.chip.shownAny 32 19 = false → s.chip.get Fd.SEC_RNG_STATUS_STATE 0 0 ≠ 4 →
        ∃ t, Sys2Proof.Machine.exec (.ceIdkGen m 1) s = .next t ∧ t.chip.get Fd.SEC_CE_CMD_STATUS 0 0 = sBUSY ∧
          t.chip.sec.ce = some { op := 6, a := 0, b := 1, ws := s.chip.ceOperands } ∧ t.otp = s.otp)) ∧
  (∀ (s : State) (j : SecJob), s.chip.sec.ce = some j → s.chip.flag Fd.SEC_CE_CMD_TRNG_WAIT 0 0 = false →
      (j.op = 1 → s.chip.pins.linkUp = true) → j.op ≠ 3 → j.op ≠ 6 →
      ∃ t, Sys2Proof.Machine.exec .ceOpComplete s = .next t ∧ t.chip.sec.ce = none ∧ t.otp = s.otp ∧
        t.chip.get Fd.SEC_CE_CMD_STATUS 0 0 = (s.chip.ceResult j).1 ∧
        t.chip.get Fd.SEC_CE_RES_INFO_RESULT_VALID 0 0 =
          (if (s.chip.ceResult j).1 = sDONE ∧ (s.chip.ceResult j).2 ≠ [] then 1
           else s.chip.get Fd.SEC_CE_RES_INFO_RESULT_VALID 0 0)) ∧
  (∀ (s : State) (m : Nat), s.chip.serves m (viaOf m) .SEC_KE_CMD 0 0 = true → s.chip.priv m = true →
      s.chip.get Fd.SEC_KE_CMD_STATUS 0 0 ≠ sBUSY → s.chip.lifecycle = 1 ∨ s.chip.lifecycle = 2 → s.chip.sku = 0 →
      s.chip.get Fd.SEC_KE_TARGET_PORT 0 0 < 96 → s.chip.get Fd.SEC_KE_TARGET_SC 0 0 = 0 ∨ s.chip.get Fd.SEC_KE_TARGET_DIR 0 0 ≠ 0 →
      let n := s.chip.get Fd.SEC_KE_TARGET_PORT 0 0
      let x := saIdx (s.chip.get Fd.SEC_KE_TARGET_DIR 0 0) (s.chip.get Fd.SEC_KE_TARGET_SC 0 0) (s.chip.get Fd.SEC_KE_TARGET_SA 0 0)
      (s.chip.get Fd.SEC_RNG_STATUS_STATE 0 0 ≠ 4 →
        ∃ t j, Sys2Proof.Machine.exec (.keWrap m) s = .next t ∧ t.chip.get Fd.SEC_KE_CMD_STATUS 0 0 = sBUSY ∧
          t.chip.sec.ke = some j ∧ j.op = 1 ∧ t.chip.sec.saKey = s.chip.sec.saKey) ∧
      (s.chip.saProtected n (s.chip.get Fd.SEC_KE_TARGET_DIR 0 0) (s.chip.get Fd.SEC_KE_TARGET_SC 0 0)
          (s.chip.get Fd.SEC_KE_TARGET_SA 0 0) = false →
        (s.chip.keBlob.getD 0 0 = 1 → s.chip.keBlob.getD 1 0 = 1 → s.chip.keBlob.getD 3 0 = 0 →
          s.chip.keBlob.getD 2 0 = 16 ∨ s.chip.keBlob.getD 2 0 = 32 → s.chip.keBlob.getD 2 0 = cipherKeyLen (s.chip.msCipher n) →
          ∃ t, Sys2Proof.Machine.exec (.keUnwrap m) s = .next t ∧ t.chip.get Fd.SEC_KE_CMD_STATUS 0 0 = sBUSY ∧
            t.chip.sec.ke = some { op := 2, a := n, b := x, ws := s.chip.keBlob }) ∧
        (∃ t, Sys2Proof.Machine.exec (.keErase m) s = .next t ∧ t.chip.get Fd.SEC_KE_CMD_STATUS 0 0 = sBUSY ∧
          t.chip.sec.ke = some { op := 3, a := n, b := x, ws := s.chip.keBlob }))) ∧
  (∀ (s : State) (j : SecJob), s.chip.sec.ke = some j → s.chip.flag Fd.SEC_KE_CMD_TRNG_WAIT 0 0 = false →
      ∃ t, Sys2Proof.Machine.exec .keCmdComplete s = .next t ∧ t.chip.sec.ke = none ∧
        (∀ w, w < 8 → t.chip.get Fd.SEC_KE_KEY_KEY w 0 = 0) ∧
        (j.op = 1 → t.chip.get Fd.SEC_KE_RES_INFO_RESULT_VALID 0 0 = 1 ∧ t.chip.get Fd.SEC_KE_CMD_STATUS 0 0 = sDONE) ∧
        (j.op = 2 → s.chip.blobKey j.ws = none →
          t.chip.get Fd.SEC_KE_CMD_STATUS 0 0 = sSIG ∧ t.chip.sec.saKey = s.chip.sec.saKey) ∧
        (∀ key, j.op = 2 → s.chip.blobKey j.ws = some key →
          t.chip.get Fd.SEC_KE_CMD_STATUS 0 0 = sDONE ∧ t.chip.sec.saKey.find j.a j.b = some (beNat key)) ∧
        (j.op = 3 → t.chip.get Fd.SEC_KE_CMD_STATUS 0 0 = sDONE ∧ t.chip.sec.saKey.find j.a j.b = none))

/-! ## Faults -/

/-- FLT_CLEAR clears the requested status bits whose condition does not hold, and no other; FLT_HIST_CLEAR empties the history
and leaves the fences. FENCE fences a unit, but the last unfenced one of its kind, which is STATE_ERR; UNFENCE of a TCAM bank
or DMA engine runs its self-test, whose pass unfences with DONE and whose failure leaves it fenced with FENCED; UNFENCE of a
stair link returns it to DOWN at once, and to PROBE where its port is UP. An error line fences a DMA engine or pipeline unless FLT_REACT says to report, where
what the engine had begun completes as FENCED and nothing else of the rings, the copies and host memory changes; it
makes a TCAM row invalid with TCAM_ERR; a slot that is not retired fences its pipeline. A copy outvoted raises COLLECTOR and
is counted; a safe trip sets SAFE with both pins low; the self-test of the collector is noted. -/
def Obligations.FaultCommands : Prop :=
  (∀ (s : State) (m k x : Nat) (v : Word),
      (s.chip.serves m (viaOf m) .FLT_CLEAR 0 0 = true → s.chip.priv m = true →
        ∃ t, Sys2Proof.Machine.exec (.fltClear m v) s = .next t ∧
          t.chip.get Fd.FLT_STATUS_STATUS 0 0 = clear32 (s.chip.get Fd.FLT_STATUS_STATUS 0 0) (clear32 v.toNat s.chip.fltCond) ∧
          t.chip.flt = s.chip.flt) ∧
      (s.chip.serves m (viaOf m) .FLT_HIST_CLEAR 0 0 = true → s.chip.priv m = true → s.chip.bus.kgOpen = true →
        ∃ t, Sys2Proof.Machine.exec (.fltHistClear m) s = .next t ∧ t.chip.flt.hist = [] ∧
          t.chip.get Fd.FLT_HIST_STATUS_OVERWRITTEN 0 0 = 0 ∧ t.chip.fenced = s.chip.fenced) ∧
      (s.chip.serves m (viaOf m) .FLT_FENCE_CMD 0 0 = true → s.chip.bus.kgOpen = true → s.chip.priv m = true →
        s.chip.get Fd.FLT_FENCE_CMD_STATUS 0 0 ≠ sBUSY → s.chip.safe = false → fenceUnit k x = true →
        (s.chip.lastUnfenced k x = false →
          ∃ t, Sys2Proof.Machine.exec (.fence m k x) s = .next t ∧ t.chip.isFenced k x = true ∧
            t.chip.get Fd.FLT_FENCE_CMD_STATUS 0 0 = sDONE) ∧
        (s.chip.lastUnfenced k x = true →
          ∃ t, Sys2Proof.Machine.exec (.fence m k x) s = .next t ∧ t.chip.fenced = s.chip.fenced ∧
            t.chip.get Fd.FLT_FENCE_CMD_STATUS 0 0 = sSTATE) ∧
        (k = 2 ∨ k = 3 → s.chip.isFenced k x = true →
          ∃ t, Sys2Proof.Machine.exec (.unfence m k x) s = .next t ∧ t.chip.flt.fenceOp = some (k, x) ∧
            t.chip.get Fd.FLT_FENCE_CMD_STATUS 0 0 = sBUSY ∧ t.chip.fenced = s.chip.fenced) ∧
        (k = 4 → s.chip.isFenced 4 x = true →
          ∃ t, Sys2Proof.Machine.exec (.unfence m k x) s = .next t ∧ t.chip.isFenced 4 x = false ∧
            t.chip.stairState x =
              (if s.chip.galEnabled = true ∧ s.chip.stairValid x = true ∧ s.chip.link (s.chip.stairPort x) = lUP then glPROBE
               else glDOWN) ∧ t.chip.get Fd.FLT_FENCE_CMD_STATUS 0 0 = sDONE)) ∧
      (s.chip.flt.fenceOp = some (k, x) →
        (∃ t, Sys2Proof.Machine.exec (.fenceCmdComplete true) s = .next t ∧ t.chip.isFenced k x = false ∧
          t.chip.flt.fenceOp = none ∧ t.chip.get Fd.FLT_FENCE_CMD_STATUS 0 0 = sDONE) ∧
        (∃ t, Sys2Proof.Machine.exec (.fenceCmdComplete false) s = .next t ∧ t.chip.fenced = s.chip.fenced ∧
          t.chip.flt.fenceOp = none ∧ t.chip.get Fd.FLT_FENCE_CMD_STATUS 0 0 = sFENCED))) ∧
  (∀ (s : State) (p row : Nat) (w : TcamRow), p < 4 →
      (s.chip.safe = false →
        (s.chip.get Fd.FLT_REACT_DMA 0 0 ≠ 1 → s.chip.isFenced 3 p = false →
          ∃ t, Sys2Proof.Machine.exec (.unitError (.dma p)) s = .next t ∧ t.chip.isFenced 3 p = true ∧
            t.chip = (s.chip.fenceDma p).dmaMoves s.chip) ∧
        (s.chip.get Fd.FLT_REACT_DMA 0 0 ≠ 1 → s.chip.isFenced 3 p = true ∨ s.chip.dmaRings p = [] →
          ∃ t, Sys2Proof.Machine.exec (.unitError (.dma p)) s = .next t ∧ t.chip.isFenced 3 p = true ∧
            t.chip.atr = s.chip.atr ∧ t.chip.host = s.chip.host ∧ t.chip.rings = s.chip.rings) ∧
        (s.chip.get Fd.FLT_REACT_PIPE 0 0 ≠ 1 →
          (∃ t, Sys2Proof.Machine.exec (.unitError (.pipe p)) s = .next t ∧ t.chip.isFenced 1 p = true) ∧
          ((s.chip.pipe p).buf ≠ [] →
            ∃ t, Sys2Proof.Machine.exec (.pipeSlotTimeout p) s = .next t ∧ t.chip.isFenced 1 p = true))) ∧
      (s.chip.tcam.find p row = some w →
        ∃ t, Sys2Proof.Machine.exec (.unitError (.tcam p row)) s = .next t ∧
          t.chip.tcam.find p row = some { w with valid := false, err := max 2 w.err } ∧
          (s.chip.safe = false → bitOf (t.chip.get Fd.FLT_STATUS_STATUS 0 0) fTCAM = true))) ∧
  (∀ (s : State) (k : Nat), s.chip.pins.auxGood = true →
      (s.chip.safe = false → k < 3 →
        ∃ t, Sys2Proof.Machine.exec (.collectorOutvoted k) s = .next t ∧
          bitOf (t.chip.get Fd.FLT_STATUS_STATUS 0 0) fCOLLECTOR = true ∧
          t.chip.get Fd.FLT_VOTE_STATUS_CORR 0 0 = min (s.chip.get Fd.FLT_VOTE_STATUS_CORR 0 0 + 1) (2 ^ 16 - 1)) ∧
      (∃ t, Sys2Proof.Machine.exec .safeTrip s = .next t ∧ t.chip.safe = true ∧ t.chip.bus.alert = true ∧ t.chip.faultN = true) ∧
      (s.chip.pins.resetN = true →
        ∃ t, Sys2Proof.Machine.exec .collectorSelfTest s = .next t ∧ t.chip.flt.selfTest = true ∧ t.chip.fld = s.chip.fld))

/-- The gate follows TEST_MODE, and its closing removes every error stored and armed. While it is open: RAISE sets the status
bit of its fault; ECC1 and ECC2 arm the next word written to their target (log 124); FAIL_UNIT of a pipeline or a DMA engine
fences it unless FLT_REACT says to report; COLLECTOR of one copy raises COLLECTOR, of two or three sets SAFE; CLEAR_ALL
removes every error stored and armed and leaves the fences. -/
def Obligations.FaultInjection : Prop :=
  (∀ s : State,
      (∃ t, Sys2Proof.Machine.exec .fiGateOpen s = .next t ∧ t.chip.pins.testMode = true ∧ t.chip.fld = s.chip.fld) ∧
      (∃ t, Sys2Proof.Machine.exec .fiGateClose s = .next t ∧ t.chip.pins.testMode = false ∧ t.chip.fiOpen = false ∧
        t.chip.tblEcc = [] ∧ t.chip.flt.eccNext = [] ∧ t.chip.fld = s.chip.fld)) ∧
  (∀ (s : State) (m a x : Nat), s.chip.serves m (viaOf m) .FLT_FI_CMD 0 0 = true → s.chip.bus.kgOpen = true →
      s.chip.fiOpen = true → s.chip.priv m = true → s.chip.get Fd.FLT_FI_CMD_STATUS 0 0 ≠ sBUSY →
      (a < 29 → a ≠ fVOLTC → s.chip.safe = false →
        ∃ t, Sys2Proof.Machine.exec (.fiRaise m a x) s = .next t ∧ bitOf (t.chip.get Fd.FLT_STATUS_STATUS 0 0) a = true ∧
          t.chip.get Fd.FLT_FI_CMD_STATUS 0 0 = sDONE) ∧
      (eccTarget a x = true →
        (∃ t, Sys2Proof.Machine.exec (.fiEcc1 m a x) s = .next t ∧ t.chip.flt.eccNext.get 0 a x = 1 ∧
          t.chip.get Fd.FLT_FI_CMD_STATUS 0 0 = sDONE ∧ t.chip.fenced = s.chip.fenced) ∧
        (∃ t, Sys2Proof.Machine.exec (.fiEcc2 m a x) s = .next t ∧ t.chip.flt.eccNext.get 0 a x = 2 ∧
          t.chip.get Fd.FLT_FI_CMD_STATUS 0 0 = sDONE ∧ t.chip.fenced = s.chip.fenced)) ∧
      (x < 4 → s.chip.safe = false →
        (s.chip.get Fd.FLT_REACT_PIPE 0 0 ≠ 1 →
          ∃ t, Sys2Proof.Machine.exec (.fiFailUnit m 0 x) s = .next t ∧ t.chip.isFenced 1 x = true) ∧
        (s.chip.get Fd.FLT_REACT_DMA 0 0 ≠ 1 →
          ∃ t, Sys2Proof.Machine.exec (.fiFailUnit m 1 x) s = .next t ∧ t.chip.isFenced 3 x = true ∧
            t.chip.get Fd.FLT_FI_CMD_STATUS 0 0 = sDONE)) ∧
      (∀ k, bitsOf 3 x = [k] → s.chip.safe = false →
        ∃ t, Sys2Proof.Machine.exec (.fiCollector m x) s = .next t ∧
          bitOf (t.chip.get Fd.FLT_STATUS_STATUS 0 0) fCOLLECTOR = true ∧ t.chip.get Fd.FLT_FI_CMD_STATUS 0 0 = sDONE) ∧
      (2 ≤ (bitsOf 3 x).length →
        ∃ t, Sys2Proof.Machine.exec (.fiCollector m x) s = .next t ∧ t.chip.safe = true ∧
          t.chip.get Fd.FLT_FI_CMD_STATUS 0 0 = sDONE) ∧
      (∃ t, Sys2Proof.Machine.exec (.fiClearAll m) s = .next t ∧ t.chip.tblEcc = [] ∧ t.chip.flt.eccNext = [] ∧
        t.chip.get Fd.FLT_FI_CMD_STATUS 0 0 = sDONE ∧ t.chip.fenced = s.chip.fenced))
end

