-- ==== Sys2Proof/Laws/Maps.lean ====
section
/-! SUPPORT. The laws of the sparse maps: a read after a write, and the canonical form, which every operation over a byte memory
keeps. -/

namespace Sys2Proof.Machine

variable {K V : Type} [DecidableEq K]

@[simp] theorem alFind_erase_same (k : K) (m : List (K × V)) : alFind k (alErase k m) = none := by
  induction m with
  | nil => rfl
  | cons e m ih => by_cases h : e.1 = k <;> simp [alErase, alFind, h, ih]

theorem alFind_erase_other {k k' : K} (h : k' ≠ k) (m : List (K × V)) : alFind k' (alErase k m) = alFind k' m := by
  induction m with
  | nil => rfl
  | cons e m ih =>
    by_cases h1 : e.1 = k
    · subst h1; simp [alErase, alFind, ih, Ne.symm h]
    · simp only [alErase, h1, if_false, alFind, ih]

theorem alFind_insert_same (lt : K → K → Bool) (k : K) (v : V) (m : List (K × V)) (h : alFind k m = none) :
    alFind k (alInsert lt k v m) = some v := by
  induction m with
  | nil => simp [alInsert, alFind]
  | cons e m ih =>
    have hne : e.1 ≠ k := fun he => by simp [alFind, he] at h
    have ht : alFind k m = none := by simpa [alFind, hne] using h
    by_cases hl : lt k e.1 <;> simp [alInsert, alFind, hl, hne, ih ht]

theorem alFind_insert_other (lt : K → K → Bool) {k k' : K} (h : k' ≠ k) (v : V) (m : List (K × V)) :
    alFind k' (alInsert lt k v m) = alFind k' m := by
  induction m with
  | nil => simp [alInsert, alFind, Ne.symm h]
  | cons e m ih =>
    by_cases hl : lt k e.1
    · simp [alInsert, alFind, hl, Ne.symm h]
    · simp only [alInsert, alFind, hl, ih, if_false, Bool.false_eq_true]

/-- A map reads what was last written under a key. -/
theorem alGet_put_same [DecidableEq V] (lt : K → K → Bool) (d : V) (k : K) (v : V) (m : List (K × V)) :
    alGet d k (alPut lt d k v m) = v := by
  unfold alGet alPut
  split
  · next h => simp [h]
  · rw [alFind_insert_same _ _ _ _ (alFind_erase_same k m)]; rfl

/-- A write under one key leaves the others. -/
theorem alGet_put_other [DecidableEq V] (lt : K → K → Bool) {d d' : V} {k k' : K} (v : V) (m : List (K × V)) (h : k' ≠ k) :
    alGet d' k' (alPut lt d k v m) = alGet d' k' m := by
  unfold alGet alPut
  split
  · rw [alFind_erase_other h]
  · rw [alFind_insert_other _ h, alFind_erase_other h]

@[simp] theorem NMap.get_put [DecidableEq V] (d : V) (m : NMap V) (k : Nat) (v : V) (k' : Nat) :
    (m.put d k v).get d k' = if k' = k then v else m.get d k' := by
  unfold NMap.get NMap.put
  split
  · next h => subst h; exact alGet_put_same ..
  · next h => exact alGet_put_other _ _ _ h

@[simp] theorem PMap.get_put [DecidableEq V] (d : V) (m : PMap V) (i j : Nat) (v : V) (x y : Nat) :
    (m.put d i j v).get d x y = if x = i ∧ y = j then v else m.get d x y := by
  unfold PMap.get PMap.put
  split
  · next h => obtain ⟨rfl, rfl⟩ := h; exact alGet_put_same ..
  · next h => exact alGet_put_other _ _ _ (by rintro ⟨⟩; exact h ⟨rfl, rfl⟩)

@[simp] theorem NMap.find_ins (m : NMap V) (k : Nat) (v : V) (k' : Nat) :
    (m.ins k v).find k' = if k' = k then some v else m.find k' := by
  unfold NMap.find NMap.ins
  split
  · next h => subst h; exact alFind_insert_same _ _ _ _ (alFind_erase_same _ _)
  · next h => rw [alFind_insert_other _ h, alFind_erase_other h]

@[simp] theorem NMap.find_del (m : NMap V) (k k' : Nat) : (m.del k).find k' = if k' = k then none else m.find k' := by
  unfold NMap.find NMap.del
  split
  · next h => subst h; exact alFind_erase_same ..
  · next h => exact alFind_erase_other h _

@[simp] theorem PMap.find_ins (m : PMap V) (i j : Nat) (v : V) (x y : Nat) :
    (m.ins i j v).find x y = if x = i ∧ y = j then some v else m.find x y := by
  unfold PMap.find PMap.ins
  split
  · next h => obtain ⟨rfl, rfl⟩ := h; exact alFind_insert_same _ _ _ _ (alFind_erase_same _ _)
  · next h =>
    have hn : (x, y) ≠ (i, j) := by rintro ⟨⟩; exact h ⟨rfl, rfl⟩
    rw [alFind_insert_other _ hn, alFind_erase_other hn]

@[simp] theorem PMap.find_del (m : PMap V) (i j x y : Nat) :
    (m.del i j).find x y = if x = i ∧ y = j then none else m.find x y := by
  unfold PMap.find PMap.del
  split
  · next h => obtain ⟨rfl, rfl⟩ := h; exact alFind_erase_same ..
  · next h => exact alFind_erase_other (by rintro ⟨⟩; exact h ⟨rfl, rfl⟩) _

/-! ## The canonical form of the maps over numbers -/

/-- The canonical form of a map over numbers with the default `d`: keys strictly rising, no entry equal to the default. -/
def NMap.wf [DecidableEq V] (d : V) (m : NMap V) : Bool := alSorted natLt m && m.all (fun e => decide (e.2 ≠ d))

/-- Every key of the list is above `k`. -/
def alAbove (k : Nat) (m : NMap V) : Prop := ∀ e ∈ m, k < e.1

omit [DecidableEq K] in
theorem alSorted_cons (e : Nat × V) (m : NMap V) : alSorted natLt (e :: m) = true ↔ alAbove e.1 m ∧ alSorted natLt m = true := by
  induction m generalizing e with
  | nil => simp [alSorted, alAbove]
  | cons b m ih =>
    simp only [alSorted, natLt, Bool.and_eq_true, decide_eq_true_eq]
    constructor
    · rintro ⟨h1, h2⟩
      refine ⟨?_, h2⟩
      intro x hx
      rcases List.mem_cons.mp hx with rfl | hx
      · exact h1
      · exact Nat.lt_trans h1 (((ih b).mp h2).1 x hx)
    · rintro ⟨h1, h2⟩
      exact ⟨h1 b (List.mem_cons_self ..), h2⟩

theorem alErase_mem {k : Nat} {m : NMap V} {e : Nat × V} (h : e ∈ alErase k m) : e ∈ m ∧ e.1 ≠ k := by
  induction m with
  | nil => cases h
  | cons b m ih =>
    by_cases hb : b.1 = k
    · simp only [alErase, hb, if_true] at h
      exact ⟨List.mem_cons_of_mem _ (ih h).1, (ih h).2⟩
    · simp only [alErase, hb, if_false] at h
      rcases List.mem_cons.mp h with rfl | h
      · exact ⟨List.mem_cons_self .., hb⟩
      · exact ⟨List.mem_cons_of_mem _ (ih h).1, (ih h).2⟩

theorem alErase_sorted {k : Nat} {m : NMap V} (h : alSorted natLt m = true) : alSorted natLt (alErase k m) = true := by
  induction m with
  | nil => rfl
  | cons b m ih =>
    have hb := (alSorted_cons b m).mp h
    by_cases hk : b.1 = k
    · simpa [alErase, hk] using ih hb.2
    · simp only [alErase, hk, if_false]
      exact (alSorted_cons _ _).mpr ⟨fun x hx => hb.1 x (alErase_mem hx).1, ih hb.2⟩

theorem alInsert_mem {k : Nat} {v : V} {m : NMap V} {e : Nat × V} (h : e ∈ alInsert natLt k v m) : e = (k, v) ∨ e ∈ m := by
  induction m with
  | nil => simpa [alInsert] using h
  | cons b m ih =>
    by_cases hk : natLt k b.1
    · simp only [alInsert, hk, if_true] at h
      simpa using h
    · simp only [alInsert, hk] at h
      rcases List.mem_cons.mp h with rfl | h
      · exact Or.inr (List.mem_cons_self ..)
      · rcases ih h with h | h
        · exact Or.inl h
        · exact Or.inr (List.mem_cons_of_mem _ h)

theorem alInsert_sorted {k : Nat} {v : V} {m : NMap V} (h : alSorted natLt m = true) (hn : ∀ e ∈ m, e.1 ≠ k) :
    alSorted natLt (alInsert natLt k v m) = true := by
  induction m with
  | nil => rfl
  | cons b m ih =>
    have hb := (alSorted_cons b m).mp h
    by_cases hk : natLt k b.1
    · simp only [alInsert, hk, if_true]
      have hk' : k < b.1 := by simpa [natLt] using hk
      refine (alSorted_cons _ _).mpr ⟨?_, h⟩
      intro x hx
      rcases List.mem_cons.mp hx with rfl | hx
      · exact hk'
      · exact Nat.lt_trans hk' (hb.1 x hx)
    · simp only [alInsert, hk]
      have hk' : b.1 < k := by
        have h1 : ¬ k < b.1 := by simpa [natLt] using hk
        have h2 := hn b (List.mem_cons_self ..)
        omega
      refine (alSorted_cons _ _).mpr ⟨?_, ih hb.2 (fun e he => hn e (List.mem_cons_of_mem _ he))⟩
      intro x hx
      rcases alInsert_mem hx with rfl | hx
      · exact hk'
      · exact hb.1 x hx

/-- A write keeps the canonical form. -/
theorem NMap.wf_put [DecidableEq V] {d : V} {m : NMap V} (h : m.wf d = true) (k : Nat) (v : V) : (m.put d k v).wf d = true := by
  unfold NMap.wf NMap.put alPut at *
  rw [Bool.and_eq_true, List.all_eq_true] at h
  split
  · rw [Bool.and_eq_true, List.all_eq_true]
    exact ⟨alErase_sorted h.1, fun e he => h.2 e (alErase_mem he).1⟩
  · next hv =>
    rw [Bool.and_eq_true, List.all_eq_true]
    refine ⟨alInsert_sorted (alErase_sorted h.1) (fun e he => (alErase_mem he).2), ?_⟩
    intro e he
    rcases alInsert_mem he with rfl | he
    · simpa using hv
    · exact h.2 e (alErase_mem he).1

/-! ## Byte memories -/

theorem Mem.wf_eq (d : Nat) (m : Mem) : m.wf d = NMap.wf (BitVec.ofNat 8 d) m := rfl

theorem Mem.wf_put {d : Nat} {m : Mem} (h : m.wf d = true) (a b : Nat) : (m.put d a b).wf d = true := NMap.wf_put h a _

/-- Every write of bytes keeps the canonical form. -/
theorem Mem.wf_write {d : Nat} (bs : List Nat) {m : Mem} (h : m.wf d = true) (a : Nat) : (Mem.write d m a bs).wf d = true := by
  induction bs generalizing m a with
  | nil => exact h
  | cons b bs ih => exact ih (Mem.wf_put h a b) (a + 1)

/-- A byte reads what was last written to it; the others are unchanged. -/
theorem Mem.get_put (d : Nat) (m : Mem) (a b a' : Nat) :
    (m.put d a b).get d a' = if a' = a then b % 256 else m.get d a' := by
  unfold Mem.get Mem.put
  split
  · next h => subst h; rw [alGet_put_same]; simp
  · next h => rw [alGet_put_other _ _ _ h]

/-- Bytes outside a written range are unchanged. -/
theorem Mem.get_write_other (d : Nat) (bs : List Nat) (m : Mem) (a a' : Nat) (h : a' < a ∨ a + bs.length ≤ a') :
    (Mem.write d m a bs).get d a' = m.get d a' := by
  induction bs generalizing m a with
  | nil => rfl
  | cons b bs ih =>
    simp only [List.length_cons] at h
    rw [Mem.write, ih _ _ (by omega), Mem.get_put, if_neg (by omega)]

/-- A read in two parts. -/
theorem Mem.read_append (d : Nat) (m : Mem) (a k n : Nat) : Mem.read d m a k ++ Mem.read d m (a + k) n = Mem.read d m a (k + n) := by
  induction k generalizing a with
  | zero => simp [Mem.read]
  | succ k ih =>
    rw [Nat.succ_add, Mem.read, Mem.read, List.cons_append, ← ih (a + 1), show a + (k + 1) = a + 1 + k by omega]

/-- What was written is read back, byte for byte. -/
theorem Mem.read_write (d : Nat) (bs : List Nat) (m : Mem) (a n : Nat) (h : ∀ b ∈ bs, b < 256) (hn : n ≤ bs.length) :
    Mem.read d (Mem.write d m a bs) a n = bs.take n := by
  induction bs generalizing m a n with
  | nil => obtain rfl : n = 0 := by simpa using hn
           rfl
  | cons b bs ih =>
    cases n with
    | zero => rfl
    | succ n =>
      have hb : b < 256 := h b (by simp)
      rw [Mem.read, Mem.write, ih _ _ _ (fun x hx => h x (by simp [hx])) (by simpa using hn),
        Mem.get_write_other _ _ _ _ _ (by omega), Mem.get_put, if_pos rfl, Nat.mod_eq_of_lt hb, List.take_succ_cons]

end Sys2Proof.Machine
end

