-- ==== Sys2Proof/Laws/State.lean ====
section
/-! SUPPORT. What each update of the state leaves and what it changes: one lemma for each component of the chip and each update,
true by unfolding, and the laws of reading a register field after a write of one. -/

namespace Sys2Proof.Machine

@[simp] theorem Chip.set_freeCtr (c : Chip) (f : F) (i j v : Nat) : (c.set f i j v).freeCtr = c.freeCtr := rfl
@[simp] theorem Chip.set_pins (c : Chip) (f : F) (i j v : Nat) : (c.set f i j v).pins = c.pins := rfl
@[simp] theorem Chip.set_host (c : Chip) (f : F) (i j v : Nat) : (c.set f i j v).host = c.host := rfl
@[simp] theorem Chip.set_flash (c : Chip) (f : F) (i j v : Nat) : (c.set f i j v).flash = c.flash := rfl
@[simp] theorem Chip.set_bus (c : Chip) (f : F) (i j v : Nat) : (c.set f i j v).bus = c.bus := rfl
@[simp] theorem Chip.set_tim (c : Chip) (f : F) (i j v : Nat) : (c.set f i j v).tim = c.tim := rfl
@[simp] theorem Chip.set_cyc (c : Chip) (f : F) (i j v : Nat) : (c.set f i j v).cyc = c.cyc := rfl
@[simp] theorem Chip.set_evt (c : Chip) (f : F) (i j v : Nat) : (c.set f i j v).evt = c.evt := rfl
@[simp] theorem Chip.set_toutFall (c : Chip) (f : F) (i j v : Nat) : (c.set f i j v).toutFall = c.toutFall := rfl
@[simp] theorem Chip.set_caps (c : Chip) (f : F) (i j v : Nat) : (c.set f i j v).caps = c.caps := rfl
@[simp] theorem Chip.set_tsq (c : Chip) (f : F) (i j v : Nat) : (c.set f i j v).tsq = c.tsq := rfl
@[simp] theorem Chip.set_tsqLost (c : Chip) (f : F) (i j v : Nat) : (c.set f i j v).tsqLost = c.tsqLost := rfl
@[simp] theorem Chip.set_img (c : Chip) (f : F) (i j v : Nat) : (c.set f i j v).img = c.img := rfl
@[simp] theorem Chip.set_ctl (c : Chip) (f : F) (i j v : Nat) : (c.set f i j v).ctl = c.ctl := rfl
@[simp] theorem Chip.set_fenced (c : Chip) (f : F) (i j v : Nat) : (c.set f i j v).fenced = c.fenced := rfl
@[simp] theorem Chip.set_ports (c : Chip) (f : F) (i j v : Nat) : (c.set f i j v).ports = c.ports := rfl
@[simp] theorem Chip.set_engs (c : Chip) (f : F) (i j v : Nat) : (c.set f i j v).engs = c.engs := rfl
@[simp] theorem Chip.set_pipes (c : Chip) (f : F) (i j v : Nat) : (c.set f i j v).pipes = c.pipes := rfl
@[simp] theorem Chip.set_tcam (c : Chip) (f : F) (i j v : Nat) : (c.set f i j v).tcam = c.tcam := rfl
@[simp] theorem Chip.set_tbl (c : Chip) (f : F) (i j v : Nat) : (c.set f i j v).tbl = c.tbl := rfl
@[simp] theorem Chip.set_tblEcc (c : Chip) (f : F) (i j v : Nat) : (c.set f i j v).tblEcc = c.tblEcc := rfl
@[simp] theorem Chip.set_tblHall (c : Chip) (f : F) (i j v : Nat) : (c.set f i j v).tblHall = c.tblHall := rfl
@[simp] theorem Chip.set_jobs (c : Chip) (f : F) (i j v : Nat) : (c.set f i j v).jobs = c.jobs := rfl
@[simp] theorem Chip.set_lrn (c : Chip) (f : F) (i j v : Nat) : (c.set f i j v).lrn = c.lrn := rfl
@[simp] theorem Chip.set_lrnLast (c : Chip) (f : F) (i j v : Nat) : (c.set f i j v).lrnLast = c.lrnLast := rfl
@[simp] theorem Chip.set_agerNext (c : Chip) (f : F) (i j v : Nat) : (c.set f i j v).agerNext = c.agerNext := rfl
@[simp] theorem Chip.set_supSeq (c : Chip) (f : F) (i j v : Nat) : (c.set f i j v).supSeq = c.supSeq := rfl
@[simp] theorem Chip.set_atr (c : Chip) (f : F) (i j v : Nat) : (c.set f i j v).atr = c.atr := rfl
@[simp] theorem Chip.set_sgate (c : Chip) (f : F) (i j v : Nat) : (c.set f i j v).sgate = c.sgate := rfl
@[simp] theorem Chip.set_gal (c : Chip) (f : F) (i j v : Nat) : (c.set f i j v).gal = c.gal := rfl
@[simp] theorem Chip.set_rings (c : Chip) (f : F) (i j v : Nat) : (c.set f i j v).rings = c.rings := rfl
@[simp] theorem Chip.set_dma (c : Chip) (f : F) (i j v : Nat) : (c.set f i j v).dma = c.dma := rfl
@[simp] theorem Chip.set_halls (c : Chip) (f : F) (i j v : Nat) : (c.set f i j v).halls = c.halls := rfl
@[simp] theorem Chip.set_snaps (c : Chip) (f : F) (i j v : Nat) : (c.set f i j v).snaps = c.snaps := rfl
@[simp] theorem Chip.set_sec (c : Chip) (f : F) (i j v : Nat) : (c.set f i j v).sec = c.sec := rfl
@[simp] theorem Chip.set_flt (c : Chip) (f : F) (i j v : Nat) : (c.set f i j v).flt = c.flt := rfl
@[simp] theorem Chip.set_cnt (c : Chip) (f : F) (i j v : Nat) : (c.set f i j v).cnt = c.cnt := rfl
@[simp] theorem Chip.set_residue (c : Chip) (f : F) (i j v : Nat) : (c.set f i j v).residue = c.residue := rfl
@[simp] theorem Chip.set_aevc (c : Chip) (f : F) (i j v : Nat) : (c.set f i j v).aevc = c.aevc := rfl
@[simp] theorem Chip.set_aevcPrev (c : Chip) (f : F) (i j v : Nat) : (c.set f i j v).aevcPrev = c.aevcPrev := rfl

@[simp] theorem Chip.unset_freeCtr (c : Chip) (f : F) (i j : Nat) : (c.unset f i j).freeCtr = c.freeCtr := rfl
@[simp] theorem Chip.unset_pins (c : Chip) (f : F) (i j : Nat) : (c.unset f i j).pins = c.pins := rfl
@[simp] theorem Chip.unset_host (c : Chip) (f : F) (i j : Nat) : (c.unset f i j).host = c.host := rfl
@[simp] theorem Chip.unset_flash (c : Chip) (f : F) (i j : Nat) : (c.unset f i j).flash = c.flash := rfl
@[simp] theorem Chip.unset_bus (c : Chip) (f : F) (i j : Nat) : (c.unset f i j).bus = c.bus := rfl
@[simp] theorem Chip.unset_tim (c : Chip) (f : F) (i j : Nat) : (c.unset f i j).tim = c.tim := rfl
@[simp] theorem Chip.unset_cyc (c : Chip) (f : F) (i j : Nat) : (c.unset f i j).cyc = c.cyc := rfl
@[simp] theorem Chip.unset_evt (c : Chip) (f : F) (i j : Nat) : (c.unset f i j).evt = c.evt := rfl
@[simp] theorem Chip.unset_toutFall (c : Chip) (f : F) (i j : Nat) : (c.unset f i j).toutFall = c.toutFall := rfl
@[simp] theorem Chip.unset_caps (c : Chip) (f : F) (i j : Nat) : (c.unset f i j).caps = c.caps := rfl
@[simp] theorem Chip.unset_tsq (c : Chip) (f : F) (i j : Nat) : (c.unset f i j).tsq = c.tsq := rfl
@[simp] theorem Chip.unset_tsqLost (c : Chip) (f : F) (i j : Nat) : (c.unset f i j).tsqLost = c.tsqLost := rfl
@[simp] theorem Chip.unset_img (c : Chip) (f : F) (i j : Nat) : (c.unset f i j).img = c.img := rfl
@[simp] theorem Chip.unset_ctl (c : Chip) (f : F) (i j : Nat) : (c.unset f i j).ctl = c.ctl := rfl
@[simp] theorem Chip.unset_fenced (c : Chip) (f : F) (i j : Nat) : (c.unset f i j).fenced = c.fenced := rfl
@[simp] theorem Chip.unset_ports (c : Chip) (f : F) (i j : Nat) : (c.unset f i j).ports = c.ports := rfl
@[simp] theorem Chip.unset_engs (c : Chip) (f : F) (i j : Nat) : (c.unset f i j).engs = c.engs := rfl
@[simp] theorem Chip.unset_pipes (c : Chip) (f : F) (i j : Nat) : (c.unset f i j).pipes = c.pipes := rfl
@[simp] theorem Chip.unset_tcam (c : Chip) (f : F) (i j : Nat) : (c.unset f i j).tcam = c.tcam := rfl
@[simp] theorem Chip.unset_tbl (c : Chip) (f : F) (i j : Nat) : (c.unset f i j).tbl = c.tbl := rfl
@[simp] theorem Chip.unset_tblEcc (c : Chip) (f : F) (i j : Nat) : (c.unset f i j).tblEcc = c.tblEcc := rfl
@[simp] theorem Chip.unset_tblHall (c : Chip) (f : F) (i j : Nat) : (c.unset f i j).tblHall = c.tblHall := rfl
@[simp] theorem Chip.unset_jobs (c : Chip) (f : F) (i j : Nat) : (c.unset f i j).jobs = c.jobs := rfl
@[simp] theorem Chip.unset_lrn (c : Chip) (f : F) (i j : Nat) : (c.unset f i j).lrn = c.lrn := rfl
@[simp] theorem Chip.unset_lrnLast (c : Chip) (f : F) (i j : Nat) : (c.unset f i j).lrnLast = c.lrnLast := rfl
@[simp] theorem Chip.unset_agerNext (c : Chip) (f : F) (i j : Nat) : (c.unset f i j).agerNext = c.agerNext := rfl
@[simp] theorem Chip.unset_supSeq (c : Chip) (f : F) (i j : Nat) : (c.unset f i j).supSeq = c.supSeq := rfl
@[simp] theorem Chip.unset_atr (c : Chip) (f : F) (i j : Nat) : (c.unset f i j).atr = c.atr := rfl
@[simp] theorem Chip.unset_sgate (c : Chip) (f : F) (i j : Nat) : (c.unset f i j).sgate = c.sgate := rfl
@[simp] theorem Chip.unset_gal (c : Chip) (f : F) (i j : Nat) : (c.unset f i j).gal = c.gal := rfl
@[simp] theorem Chip.unset_rings (c : Chip) (f : F) (i j : Nat) : (c.unset f i j).rings = c.rings := rfl
@[simp] theorem Chip.unset_dma (c : Chip) (f : F) (i j : Nat) : (c.unset f i j).dma = c.dma := rfl
@[simp] theorem Chip.unset_halls (c : Chip) (f : F) (i j : Nat) : (c.unset f i j).halls = c.halls := rfl
@[simp] theorem Chip.unset_snaps (c : Chip) (f : F) (i j : Nat) : (c.unset f i j).snaps = c.snaps := rfl
@[simp] theorem Chip.unset_sec (c : Chip) (f : F) (i j : Nat) : (c.unset f i j).sec = c.sec := rfl
@[simp] theorem Chip.unset_flt (c : Chip) (f : F) (i j : Nat) : (c.unset f i j).flt = c.flt := rfl
@[simp] theorem Chip.unset_cnt (c : Chip) (f : F) (i j : Nat) : (c.unset f i j).cnt = c.cnt := rfl
@[simp] theorem Chip.unset_residue (c : Chip) (f : F) (i j : Nat) : (c.unset f i j).residue = c.residue := rfl
@[simp] theorem Chip.unset_aevc (c : Chip) (f : F) (i j : Nat) : (c.unset f i j).aevc = c.aevc := rfl
@[simp] theorem Chip.unset_aevcPrev (c : Chip) (f : F) (i j : Nat) : (c.unset f i j).aevcPrev = c.aevcPrev := rfl

@[simp] theorem Chip.setPort_fld (c : Chip) (n : Nat) (p : PortRt) : (c.setPort n p).fld = c.fld := rfl
@[simp] theorem Chip.setPort_freeCtr (c : Chip) (n : Nat) (p : PortRt) : (c.setPort n p).freeCtr = c.freeCtr := rfl
@[simp] theorem Chip.setPort_pins (c : Chip) (n : Nat) (p : PortRt) : (c.setPort n p).pins = c.pins := rfl
@[simp] theorem Chip.setPort_host (c : Chip) (n : Nat) (p : PortRt) : (c.setPort n p).host = c.host := rfl
@[simp] theorem Chip.setPort_flash (c : Chip) (n : Nat) (p : PortRt) : (c.setPort n p).flash = c.flash := rfl
@[simp] theorem Chip.setPort_bus (c : Chip) (n : Nat) (p : PortRt) : (c.setPort n p).bus = c.bus := rfl
@[simp] theorem Chip.setPort_tim (c : Chip) (n : Nat) (p : PortRt) : (c.setPort n p).tim = c.tim := rfl
@[simp] theorem Chip.setPort_cyc (c : Chip) (n : Nat) (p : PortRt) : (c.setPort n p).cyc = c.cyc := rfl
@[simp] theorem Chip.setPort_evt (c : Chip) (n : Nat) (p : PortRt) : (c.setPort n p).evt = c.evt := rfl
@[simp] theorem Chip.setPort_toutFall (c : Chip) (n : Nat) (p : PortRt) : (c.setPort n p).toutFall = c.toutFall := rfl
@[simp] theorem Chip.setPort_caps (c : Chip) (n : Nat) (p : PortRt) : (c.setPort n p).caps = c.caps := rfl
@[simp] theorem Chip.setPort_tsq (c : Chip) (n : Nat) (p : PortRt) : (c.setPort n p).tsq = c.tsq := rfl
@[simp] theorem Chip.setPort_tsqLost (c : Chip) (n : Nat) (p : PortRt) : (c.setPort n p).tsqLost = c.tsqLost := rfl
@[simp] theorem Chip.setPort_img (c : Chip) (n : Nat) (p : PortRt) : (c.setPort n p).img = c.img := rfl
@[simp] theorem Chip.setPort_ctl (c : Chip) (n : Nat) (p : PortRt) : (c.setPort n p).ctl = c.ctl := rfl
@[simp] theorem Chip.setPort_fenced (c : Chip) (n : Nat) (p : PortRt) : (c.setPort n p).fenced = c.fenced := rfl
@[simp] theorem Chip.setPort_engs (c : Chip) (n : Nat) (p : PortRt) : (c.setPort n p).engs = c.engs := rfl
@[simp] theorem Chip.setPort_pipes (c : Chip) (n : Nat) (p : PortRt) : (c.setPort n p).pipes = c.pipes := rfl
@[simp] theorem Chip.setPort_tcam (c : Chip) (n : Nat) (p : PortRt) : (c.setPort n p).tcam = c.tcam := rfl
@[simp] theorem Chip.setPort_tbl (c : Chip) (n : Nat) (p : PortRt) : (c.setPort n p).tbl = c.tbl := rfl
@[simp] theorem Chip.setPort_tblEcc (c : Chip) (n : Nat) (p : PortRt) : (c.setPort n p).tblEcc = c.tblEcc := rfl
@[simp] theorem Chip.setPort_tblHall (c : Chip) (n : Nat) (p : PortRt) : (c.setPort n p).tblHall = c.tblHall := rfl
@[simp] theorem Chip.setPort_jobs (c : Chip) (n : Nat) (p : PortRt) : (c.setPort n p).jobs = c.jobs := rfl
@[simp] theorem Chip.setPort_lrn (c : Chip) (n : Nat) (p : PortRt) : (c.setPort n p).lrn = c.lrn := rfl
@[simp] theorem Chip.setPort_lrnLast (c : Chip) (n : Nat) (p : PortRt) : (c.setPort n p).lrnLast = c.lrnLast := rfl
@[simp] theorem Chip.setPort_agerNext (c : Chip) (n : Nat) (p : PortRt) : (c.setPort n p).agerNext = c.agerNext := rfl
@[simp] theorem Chip.setPort_supSeq (c : Chip) (n : Nat) (p : PortRt) : (c.setPort n p).supSeq = c.supSeq := rfl
@[simp] theorem Chip.setPort_atr (c : Chip) (n : Nat) (p : PortRt) : (c.setPort n p).atr = c.atr := rfl
@[simp] theorem Chip.setPort_sgate (c : Chip) (n : Nat) (p : PortRt) : (c.setPort n p).sgate = c.sgate := rfl
@[simp] theorem Chip.setPort_gal (c : Chip) (n : Nat) (p : PortRt) : (c.setPort n p).gal = c.gal := rfl
@[simp] theorem Chip.setPort_rings (c : Chip) (n : Nat) (p : PortRt) : (c.setPort n p).rings = c.rings := rfl
@[simp] theorem Chip.setPort_dma (c : Chip) (n : Nat) (p : PortRt) : (c.setPort n p).dma = c.dma := rfl
@[simp] theorem Chip.setPort_halls (c : Chip) (n : Nat) (p : PortRt) : (c.setPort n p).halls = c.halls := rfl
@[simp] theorem Chip.setPort_snaps (c : Chip) (n : Nat) (p : PortRt) : (c.setPort n p).snaps = c.snaps := rfl
@[simp] theorem Chip.setPort_sec (c : Chip) (n : Nat) (p : PortRt) : (c.setPort n p).sec = c.sec := rfl
@[simp] theorem Chip.setPort_flt (c : Chip) (n : Nat) (p : PortRt) : (c.setPort n p).flt = c.flt := rfl
@[simp] theorem Chip.setPort_cnt (c : Chip) (n : Nat) (p : PortRt) : (c.setPort n p).cnt = c.cnt := rfl
@[simp] theorem Chip.setPort_residue (c : Chip) (n : Nat) (p : PortRt) : (c.setPort n p).residue = c.residue := rfl
@[simp] theorem Chip.setPort_aevc (c : Chip) (n : Nat) (p : PortRt) : (c.setPort n p).aevc = c.aevc := rfl
@[simp] theorem Chip.setPort_aevcPrev (c : Chip) (n : Nat) (p : PortRt) : (c.setPort n p).aevcPrev = c.aevcPrev := rfl

@[simp] theorem Chip.setPipe_fld (c : Chip) (n : Nat) (p : PipeRt) : (c.setPipe n p).fld = c.fld := rfl
@[simp] theorem Chip.setPipe_freeCtr (c : Chip) (n : Nat) (p : PipeRt) : (c.setPipe n p).freeCtr = c.freeCtr := rfl
@[simp] theorem Chip.setPipe_pins (c : Chip) (n : Nat) (p : PipeRt) : (c.setPipe n p).pins = c.pins := rfl
@[simp] theorem Chip.setPipe_host (c : Chip) (n : Nat) (p : PipeRt) : (c.setPipe n p).host = c.host := rfl
@[simp] theorem Chip.setPipe_flash (c : Chip) (n : Nat) (p : PipeRt) : (c.setPipe n p).flash = c.flash := rfl
@[simp] theorem Chip.setPipe_bus (c : Chip) (n : Nat) (p : PipeRt) : (c.setPipe n p).bus = c.bus := rfl
@[simp] theorem Chip.setPipe_tim (c : Chip) (n : Nat) (p : PipeRt) : (c.setPipe n p).tim = c.tim := rfl
@[simp] theorem Chip.setPipe_cyc (c : Chip) (n : Nat) (p : PipeRt) : (c.setPipe n p).cyc = c.cyc := rfl
@[simp] theorem Chip.setPipe_evt (c : Chip) (n : Nat) (p : PipeRt) : (c.setPipe n p).evt = c.evt := rfl
@[simp] theorem Chip.setPipe_toutFall (c : Chip) (n : Nat) (p : PipeRt) : (c.setPipe n p).toutFall = c.toutFall := rfl
@[simp] theorem Chip.setPipe_caps (c : Chip) (n : Nat) (p : PipeRt) : (c.setPipe n p).caps = c.caps := rfl
@[simp] theorem Chip.setPipe_tsq (c : Chip) (n : Nat) (p : PipeRt) : (c.setPipe n p).tsq = c.tsq := rfl
@[simp] theorem Chip.setPipe_tsqLost (c : Chip) (n : Nat) (p : PipeRt) : (c.setPipe n p).tsqLost = c.tsqLost := rfl
@[simp] theorem Chip.setPipe_img (c : Chip) (n : Nat) (p : PipeRt) : (c.setPipe n p).img = c.img := rfl
@[simp] theorem Chip.setPipe_ctl (c : Chip) (n : Nat) (p : PipeRt) : (c.setPipe n p).ctl = c.ctl := rfl
@[simp] theorem Chip.setPipe_fenced (c : Chip) (n : Nat) (p : PipeRt) : (c.setPipe n p).fenced = c.fenced := rfl
@[simp] theorem Chip.setPipe_ports (c : Chip) (n : Nat) (p : PipeRt) : (c.setPipe n p).ports = c.ports := rfl
@[simp] theorem Chip.setPipe_engs (c : Chip) (n : Nat) (p : PipeRt) : (c.setPipe n p).engs = c.engs := rfl
@[simp] theorem Chip.setPipe_tcam (c : Chip) (n : Nat) (p : PipeRt) : (c.setPipe n p).tcam = c.tcam := rfl
@[simp] theorem Chip.setPipe_tbl (c : Chip) (n : Nat) (p : PipeRt) : (c.setPipe n p).tbl = c.tbl := rfl
@[simp] theorem Chip.setPipe_tblEcc (c : Chip) (n : Nat) (p : PipeRt) : (c.setPipe n p).tblEcc = c.tblEcc := rfl
@[simp] theorem Chip.setPipe_tblHall (c : Chip) (n : Nat) (p : PipeRt) : (c.setPipe n p).tblHall = c.tblHall := rfl
@[simp] theorem Chip.setPipe_jobs (c : Chip) (n : Nat) (p : PipeRt) : (c.setPipe n p).jobs = c.jobs := rfl
@[simp] theorem Chip.setPipe_lrn (c : Chip) (n : Nat) (p : PipeRt) : (c.setPipe n p).lrn = c.lrn := rfl
@[simp] theorem Chip.setPipe_lrnLast (c : Chip) (n : Nat) (p : PipeRt) : (c.setPipe n p).lrnLast = c.lrnLast := rfl
@[simp] theorem Chip.setPipe_agerNext (c : Chip) (n : Nat) (p : PipeRt) : (c.setPipe n p).agerNext = c.agerNext := rfl
@[simp] theorem Chip.setPipe_supSeq (c : Chip) (n : Nat) (p : PipeRt) : (c.setPipe n p).supSeq = c.supSeq := rfl
@[simp] theorem Chip.setPipe_atr (c : Chip) (n : Nat) (p : PipeRt) : (c.setPipe n p).atr = c.atr := rfl
@[simp] theorem Chip.setPipe_sgate (c : Chip) (n : Nat) (p : PipeRt) : (c.setPipe n p).sgate = c.sgate := rfl
@[simp] theorem Chip.setPipe_gal (c : Chip) (n : Nat) (p : PipeRt) : (c.setPipe n p).gal = c.gal := rfl
@[simp] theorem Chip.setPipe_rings (c : Chip) (n : Nat) (p : PipeRt) : (c.setPipe n p).rings = c.rings := rfl
@[simp] theorem Chip.setPipe_dma (c : Chip) (n : Nat) (p : PipeRt) : (c.setPipe n p).dma = c.dma := rfl
@[simp] theorem Chip.setPipe_halls (c : Chip) (n : Nat) (p : PipeRt) : (c.setPipe n p).halls = c.halls := rfl
@[simp] theorem Chip.setPipe_snaps (c : Chip) (n : Nat) (p : PipeRt) : (c.setPipe n p).snaps = c.snaps := rfl
@[simp] theorem Chip.setPipe_sec (c : Chip) (n : Nat) (p : PipeRt) : (c.setPipe n p).sec = c.sec := rfl
@[simp] theorem Chip.setPipe_flt (c : Chip) (n : Nat) (p : PipeRt) : (c.setPipe n p).flt = c.flt := rfl
@[simp] theorem Chip.setPipe_cnt (c : Chip) (n : Nat) (p : PipeRt) : (c.setPipe n p).cnt = c.cnt := rfl
@[simp] theorem Chip.setPipe_residue (c : Chip) (n : Nat) (p : PipeRt) : (c.setPipe n p).residue = c.residue := rfl
@[simp] theorem Chip.setPipe_aevc (c : Chip) (n : Nat) (p : PipeRt) : (c.setPipe n p).aevc = c.aevc := rfl
@[simp] theorem Chip.setPipe_aevcPrev (c : Chip) (n : Nat) (p : PipeRt) : (c.setPipe n p).aevcPrev = c.aevcPrev := rfl

@[simp] theorem Chip.setEng_fld (c : Chip) (n : Nat) (p : EngRt) : (c.setEng n p).fld = c.fld := rfl
@[simp] theorem Chip.setEng_freeCtr (c : Chip) (n : Nat) (p : EngRt) : (c.setEng n p).freeCtr = c.freeCtr := rfl
@[simp] theorem Chip.setEng_pins (c : Chip) (n : Nat) (p : EngRt) : (c.setEng n p).pins = c.pins := rfl
@[simp] theorem Chip.setEng_host (c : Chip) (n : Nat) (p : EngRt) : (c.setEng n p).host = c.host := rfl
@[simp] theorem Chip.setEng_flash (c : Chip) (n : Nat) (p : EngRt) : (c.setEng n p).flash = c.flash := rfl
@[simp] theorem Chip.setEng_bus (c : Chip) (n : Nat) (p : EngRt) : (c.setEng n p).bus = c.bus := rfl
@[simp] theorem Chip.setEng_tim (c : Chip) (n : Nat) (p : EngRt) : (c.setEng n p).tim = c.tim := rfl
@[simp] theorem Chip.setEng_cyc (c : Chip) (n : Nat) (p : EngRt) : (c.setEng n p).cyc = c.cyc := rfl
@[simp] theorem Chip.setEng_evt (c : Chip) (n : Nat) (p : EngRt) : (c.setEng n p).evt = c.evt := rfl
@[simp] theorem Chip.setEng_toutFall (c : Chip) (n : Nat) (p : EngRt) : (c.setEng n p).toutFall = c.toutFall := rfl
@[simp] theorem Chip.setEng_caps (c : Chip) (n : Nat) (p : EngRt) : (c.setEng n p).caps = c.caps := rfl
@[simp] theorem Chip.setEng_tsq (c : Chip) (n : Nat) (p : EngRt) : (c.setEng n p).tsq = c.tsq := rfl
@[simp] theorem Chip.setEng_tsqLost (c : Chip) (n : Nat) (p : EngRt) : (c.setEng n p).tsqLost = c.tsqLost := rfl
@[simp] theorem Chip.setEng_img (c : Chip) (n : Nat) (p : EngRt) : (c.setEng n p).img = c.img := rfl
@[simp] theorem Chip.setEng_ctl (c : Chip) (n : Nat) (p : EngRt) : (c.setEng n p).ctl = c.ctl := rfl
@[simp] theorem Chip.setEng_fenced (c : Chip) (n : Nat) (p : EngRt) : (c.setEng n p).fenced = c.fenced := rfl
@[simp] theorem Chip.setEng_ports (c : Chip) (n : Nat) (p : EngRt) : (c.setEng n p).ports = c.ports := rfl
@[simp] theorem Chip.setEng_pipes (c : Chip) (n : Nat) (p : EngRt) : (c.setEng n p).pipes = c.pipes := rfl
@[simp] theorem Chip.setEng_tcam (c : Chip) (n : Nat) (p : EngRt) : (c.setEng n p).tcam = c.tcam := rfl
@[simp] theorem Chip.setEng_tbl (c : Chip) (n : Nat) (p : EngRt) : (c.setEng n p).tbl = c.tbl := rfl
@[simp] theorem Chip.setEng_tblEcc (c : Chip) (n : Nat) (p : EngRt) : (c.setEng n p).tblEcc = c.tblEcc := rfl
@[simp] theorem Chip.setEng_tblHall (c : Chip) (n : Nat) (p : EngRt) : (c.setEng n p).tblHall = c.tblHall := rfl
@[simp] theorem Chip.setEng_jobs (c : Chip) (n : Nat) (p : EngRt) : (c.setEng n p).jobs = c.jobs := rfl
@[simp] theorem Chip.setEng_lrn (c : Chip) (n : Nat) (p : EngRt) : (c.setEng n p).lrn = c.lrn := rfl
@[simp] theorem Chip.setEng_lrnLast (c : Chip) (n : Nat) (p : EngRt) : (c.setEng n p).lrnLast = c.lrnLast := rfl
@[simp] theorem Chip.setEng_agerNext (c : Chip) (n : Nat) (p : EngRt) : (c.setEng n p).agerNext = c.agerNext := rfl
@[simp] theorem Chip.setEng_supSeq (c : Chip) (n : Nat) (p : EngRt) : (c.setEng n p).supSeq = c.supSeq := rfl
@[simp] theorem Chip.setEng_atr (c : Chip) (n : Nat) (p : EngRt) : (c.setEng n p).atr = c.atr := rfl
@[simp] theorem Chip.setEng_sgate (c : Chip) (n : Nat) (p : EngRt) : (c.setEng n p).sgate = c.sgate := rfl
@[simp] theorem Chip.setEng_gal (c : Chip) (n : Nat) (p : EngRt) : (c.setEng n p).gal = c.gal := rfl
@[simp] theorem Chip.setEng_rings (c : Chip) (n : Nat) (p : EngRt) : (c.setEng n p).rings = c.rings := rfl
@[simp] theorem Chip.setEng_dma (c : Chip) (n : Nat) (p : EngRt) : (c.setEng n p).dma = c.dma := rfl
@[simp] theorem Chip.setEng_halls (c : Chip) (n : Nat) (p : EngRt) : (c.setEng n p).halls = c.halls := rfl
@[simp] theorem Chip.setEng_snaps (c : Chip) (n : Nat) (p : EngRt) : (c.setEng n p).snaps = c.snaps := rfl
@[simp] theorem Chip.setEng_sec (c : Chip) (n : Nat) (p : EngRt) : (c.setEng n p).sec = c.sec := rfl
@[simp] theorem Chip.setEng_flt (c : Chip) (n : Nat) (p : EngRt) : (c.setEng n p).flt = c.flt := rfl
@[simp] theorem Chip.setEng_cnt (c : Chip) (n : Nat) (p : EngRt) : (c.setEng n p).cnt = c.cnt := rfl
@[simp] theorem Chip.setEng_residue (c : Chip) (n : Nat) (p : EngRt) : (c.setEng n p).residue = c.residue := rfl
@[simp] theorem Chip.setEng_aevc (c : Chip) (n : Nat) (p : EngRt) : (c.setEng n p).aevc = c.aevc := rfl
@[simp] theorem Chip.setEng_aevcPrev (c : Chip) (n : Nat) (p : EngRt) : (c.setEng n p).aevcPrev = c.aevcPrev := rfl

@[simp] theorem Chip.setFrame_fld (c : Chip) (n : Nat) (g : Frame) : (c.setFrame n g).fld = c.fld := rfl
@[simp] theorem Chip.setFrame_freeCtr (c : Chip) (n : Nat) (g : Frame) : (c.setFrame n g).freeCtr = c.freeCtr := rfl
@[simp] theorem Chip.setFrame_pins (c : Chip) (n : Nat) (g : Frame) : (c.setFrame n g).pins = c.pins := rfl
@[simp] theorem Chip.setFrame_host (c : Chip) (n : Nat) (g : Frame) : (c.setFrame n g).host = c.host := rfl
@[simp] theorem Chip.setFrame_flash (c : Chip) (n : Nat) (g : Frame) : (c.setFrame n g).flash = c.flash := rfl
@[simp] theorem Chip.setFrame_bus (c : Chip) (n : Nat) (g : Frame) : (c.setFrame n g).bus = c.bus := rfl
@[simp] theorem Chip.setFrame_tim (c : Chip) (n : Nat) (g : Frame) : (c.setFrame n g).tim = c.tim := rfl
@[simp] theorem Chip.setFrame_cyc (c : Chip) (n : Nat) (g : Frame) : (c.setFrame n g).cyc = c.cyc := rfl
@[simp] theorem Chip.setFrame_evt (c : Chip) (n : Nat) (g : Frame) : (c.setFrame n g).evt = c.evt := rfl
@[simp] theorem Chip.setFrame_toutFall (c : Chip) (n : Nat) (g : Frame) : (c.setFrame n g).toutFall = c.toutFall := rfl
@[simp] theorem Chip.setFrame_caps (c : Chip) (n : Nat) (g : Frame) : (c.setFrame n g).caps = c.caps := rfl
@[simp] theorem Chip.setFrame_tsq (c : Chip) (n : Nat) (g : Frame) : (c.setFrame n g).tsq = c.tsq := rfl
@[simp] theorem Chip.setFrame_tsqLost (c : Chip) (n : Nat) (g : Frame) : (c.setFrame n g).tsqLost = c.tsqLost := rfl
@[simp] theorem Chip.setFrame_img (c : Chip) (n : Nat) (g : Frame) : (c.setFrame n g).img = c.img := rfl
@[simp] theorem Chip.setFrame_ctl (c : Chip) (n : Nat) (g : Frame) : (c.setFrame n g).ctl = c.ctl := rfl
@[simp] theorem Chip.setFrame_fenced (c : Chip) (n : Nat) (g : Frame) : (c.setFrame n g).fenced = c.fenced := rfl
@[simp] theorem Chip.setFrame_ports (c : Chip) (n : Nat) (g : Frame) : (c.setFrame n g).ports = c.ports := rfl
@[simp] theorem Chip.setFrame_engs (c : Chip) (n : Nat) (g : Frame) : (c.setFrame n g).engs = c.engs := rfl
@[simp] theorem Chip.setFrame_pipes (c : Chip) (n : Nat) (g : Frame) : (c.setFrame n g).pipes = c.pipes := rfl
@[simp] theorem Chip.setFrame_tcam (c : Chip) (n : Nat) (g : Frame) : (c.setFrame n g).tcam = c.tcam := rfl
@[simp] theorem Chip.setFrame_tbl (c : Chip) (n : Nat) (g : Frame) : (c.setFrame n g).tbl = c.tbl := rfl
@[simp] theorem Chip.setFrame_tblEcc (c : Chip) (n : Nat) (g : Frame) : (c.setFrame n g).tblEcc = c.tblEcc := rfl
@[simp] theorem Chip.setFrame_tblHall (c : Chip) (n : Nat) (g : Frame) : (c.setFrame n g).tblHall = c.tblHall := rfl
@[simp] theorem Chip.setFrame_jobs (c : Chip) (n : Nat) (g : Frame) : (c.setFrame n g).jobs = c.jobs := rfl
@[simp] theorem Chip.setFrame_lrn (c : Chip) (n : Nat) (g : Frame) : (c.setFrame n g).lrn = c.lrn := rfl
@[simp] theorem Chip.setFrame_lrnLast (c : Chip) (n : Nat) (g : Frame) : (c.setFrame n g).lrnLast = c.lrnLast := rfl
@[simp] theorem Chip.setFrame_agerNext (c : Chip) (n : Nat) (g : Frame) : (c.setFrame n g).agerNext = c.agerNext := rfl
@[simp] theorem Chip.setFrame_supSeq (c : Chip) (n : Nat) (g : Frame) : (c.setFrame n g).supSeq = c.supSeq := rfl
@[simp] theorem Chip.setFrame_sgate (c : Chip) (n : Nat) (g : Frame) : (c.setFrame n g).sgate = c.sgate := rfl
@[simp] theorem Chip.setFrame_gal (c : Chip) (n : Nat) (g : Frame) : (c.setFrame n g).gal = c.gal := rfl
@[simp] theorem Chip.setFrame_rings (c : Chip) (n : Nat) (g : Frame) : (c.setFrame n g).rings = c.rings := rfl
@[simp] theorem Chip.setFrame_dma (c : Chip) (n : Nat) (g : Frame) : (c.setFrame n g).dma = c.dma := rfl
@[simp] theorem Chip.setFrame_halls (c : Chip) (n : Nat) (g : Frame) : (c.setFrame n g).halls = c.halls := rfl
@[simp] theorem Chip.setFrame_snaps (c : Chip) (n : Nat) (g : Frame) : (c.setFrame n g).snaps = c.snaps := rfl
@[simp] theorem Chip.setFrame_sec (c : Chip) (n : Nat) (g : Frame) : (c.setFrame n g).sec = c.sec := rfl
@[simp] theorem Chip.setFrame_flt (c : Chip) (n : Nat) (g : Frame) : (c.setFrame n g).flt = c.flt := rfl
@[simp] theorem Chip.setFrame_cnt (c : Chip) (n : Nat) (g : Frame) : (c.setFrame n g).cnt = c.cnt := rfl
@[simp] theorem Chip.setFrame_residue (c : Chip) (n : Nat) (g : Frame) : (c.setFrame n g).residue = c.residue := rfl
@[simp] theorem Chip.setFrame_aevc (c : Chip) (n : Nat) (g : Frame) : (c.setFrame n g).aevc = c.aevc := rfl
@[simp] theorem Chip.setFrame_aevcPrev (c : Chip) (n : Nat) (g : Frame) : (c.setFrame n g).aevcPrev = c.aevcPrev := rfl

@[simp] theorem Chip.delFrame_fld (c : Chip) (n : Nat) : (c.delFrame n).fld = c.fld := rfl
@[simp] theorem Chip.delFrame_freeCtr (c : Chip) (n : Nat) : (c.delFrame n).freeCtr = c.freeCtr := rfl
@[simp] theorem Chip.delFrame_pins (c : Chip) (n : Nat) : (c.delFrame n).pins = c.pins := rfl
@[simp] theorem Chip.delFrame_host (c : Chip) (n : Nat) : (c.delFrame n).host = c.host := rfl
@[simp] theorem Chip.delFrame_flash (c : Chip) (n : Nat) : (c.delFrame n).flash = c.flash := rfl
@[simp] theorem Chip.delFrame_bus (c : Chip) (n : Nat) : (c.delFrame n).bus = c.bus := rfl
@[simp] theorem Chip.delFrame_tim (c : Chip) (n : Nat) : (c.delFrame n).tim = c.tim := rfl
@[simp] theorem Chip.delFrame_cyc (c : Chip) (n : Nat) : (c.delFrame n).cyc = c.cyc := rfl
@[simp] theorem Chip.delFrame_evt (c : Chip) (n : Nat) : (c.delFrame n).evt = c.evt := rfl
@[simp] theorem Chip.delFrame_toutFall (c : Chip) (n : Nat) : (c.delFrame n).toutFall = c.toutFall := rfl
@[simp] theorem Chip.delFrame_caps (c : Chip) (n : Nat) : (c.delFrame n).caps = c.caps := rfl
@[simp] theorem Chip.delFrame_tsq (c : Chip) (n : Nat) : (c.delFrame n).tsq = c.tsq := rfl
@[simp] theorem Chip.delFrame_tsqLost (c : Chip) (n : Nat) : (c.delFrame n).tsqLost = c.tsqLost := rfl
@[simp] theorem Chip.delFrame_img (c : Chip) (n : Nat) : (c.delFrame n).img = c.img := rfl
@[simp] theorem Chip.delFrame_ctl (c : Chip) (n : Nat) : (c.delFrame n).ctl = c.ctl := rfl
@[simp] theorem Chip.delFrame_fenced (c : Chip) (n : Nat) : (c.delFrame n).fenced = c.fenced := rfl
@[simp] theorem Chip.delFrame_ports (c : Chip) (n : Nat) : (c.delFrame n).ports = c.ports := rfl
@[simp] theorem Chip.delFrame_engs (c : Chip) (n : Nat) : (c.delFrame n).engs = c.engs := rfl
@[simp] theorem Chip.delFrame_pipes (c : Chip) (n : Nat) : (c.delFrame n).pipes = c.pipes := rfl
@[simp] theorem Chip.delFrame_tcam (c : Chip) (n : Nat) : (c.delFrame n).tcam = c.tcam := rfl
@[simp] theorem Chip.delFrame_tbl (c : Chip) (n : Nat) : (c.delFrame n).tbl = c.tbl := rfl
@[simp] theorem Chip.delFrame_tblEcc (c : Chip) (n : Nat) : (c.delFrame n).tblEcc = c.tblEcc := rfl
@[simp] theorem Chip.delFrame_tblHall (c : Chip) (n : Nat) : (c.delFrame n).tblHall = c.tblHall := rfl
@[simp] theorem Chip.delFrame_jobs (c : Chip) (n : Nat) : (c.delFrame n).jobs = c.jobs := rfl
@[simp] theorem Chip.delFrame_lrn (c : Chip) (n : Nat) : (c.delFrame n).lrn = c.lrn := rfl
@[simp] theorem Chip.delFrame_lrnLast (c : Chip) (n : Nat) : (c.delFrame n).lrnLast = c.lrnLast := rfl
@[simp] theorem Chip.delFrame_agerNext (c : Chip) (n : Nat) : (c.delFrame n).agerNext = c.agerNext := rfl
@[simp] theorem Chip.delFrame_supSeq (c : Chip) (n : Nat) : (c.delFrame n).supSeq = c.supSeq := rfl
@[simp] theorem Chip.delFrame_sgate (c : Chip) (n : Nat) : (c.delFrame n).sgate = c.sgate := rfl
@[simp] theorem Chip.delFrame_gal (c : Chip) (n : Nat) : (c.delFrame n).gal = c.gal := rfl
@[simp] theorem Chip.delFrame_rings (c : Chip) (n : Nat) : (c.delFrame n).rings = c.rings := rfl
@[simp] theorem Chip.delFrame_dma (c : Chip) (n : Nat) : (c.delFrame n).dma = c.dma := rfl
@[simp] theorem Chip.delFrame_halls (c : Chip) (n : Nat) : (c.delFrame n).halls = c.halls := rfl
@[simp] theorem Chip.delFrame_snaps (c : Chip) (n : Nat) : (c.delFrame n).snaps = c.snaps := rfl
@[simp] theorem Chip.delFrame_sec (c : Chip) (n : Nat) : (c.delFrame n).sec = c.sec := rfl
@[simp] theorem Chip.delFrame_flt (c : Chip) (n : Nat) : (c.delFrame n).flt = c.flt := rfl
@[simp] theorem Chip.delFrame_cnt (c : Chip) (n : Nat) : (c.delFrame n).cnt = c.cnt := rfl
@[simp] theorem Chip.delFrame_residue (c : Chip) (n : Nat) : (c.delFrame n).residue = c.residue := rfl
@[simp] theorem Chip.delFrame_aevc (c : Chip) (n : Nat) : (c.delFrame n).aevc = c.aevc := rfl
@[simp] theorem Chip.delFrame_aevcPrev (c : Chip) (n : Nat) : (c.delFrame n).aevcPrev = c.aevcPrev := rfl

@[simp] theorem Chip.irq_fld (c : Chip) (n v : Nat) : (c.irq n v).fld = c.fld := rfl
@[simp] theorem Chip.irq_freeCtr (c : Chip) (n v : Nat) : (c.irq n v).freeCtr = c.freeCtr := rfl
@[simp] theorem Chip.irq_pins (c : Chip) (n v : Nat) : (c.irq n v).pins = c.pins := rfl
@[simp] theorem Chip.irq_host (c : Chip) (n v : Nat) : (c.irq n v).host = c.host := rfl
@[simp] theorem Chip.irq_flash (c : Chip) (n v : Nat) : (c.irq n v).flash = c.flash := rfl
@[simp] theorem Chip.irq_tim (c : Chip) (n v : Nat) : (c.irq n v).tim = c.tim := rfl
@[simp] theorem Chip.irq_cyc (c : Chip) (n v : Nat) : (c.irq n v).cyc = c.cyc := rfl
@[simp] theorem Chip.irq_evt (c : Chip) (n v : Nat) : (c.irq n v).evt = c.evt := rfl
@[simp] theorem Chip.irq_toutFall (c : Chip) (n v : Nat) : (c.irq n v).toutFall = c.toutFall := rfl
@[simp] theorem Chip.irq_caps (c : Chip) (n v : Nat) : (c.irq n v).caps = c.caps := rfl
@[simp] theorem Chip.irq_tsq (c : Chip) (n v : Nat) : (c.irq n v).tsq = c.tsq := rfl
@[simp] theorem Chip.irq_tsqLost (c : Chip) (n v : Nat) : (c.irq n v).tsqLost = c.tsqLost := rfl
@[simp] theorem Chip.irq_img (c : Chip) (n v : Nat) : (c.irq n v).img = c.img := rfl
@[simp] theorem Chip.irq_ctl (c : Chip) (n v : Nat) : (c.irq n v).ctl = c.ctl := rfl
@[simp] theorem Chip.irq_fenced (c : Chip) (n v : Nat) : (c.irq n v).fenced = c.fenced := rfl
@[simp] theorem Chip.irq_ports (c : Chip) (n v : Nat) : (c.irq n v).ports = c.ports := rfl
@[simp] theorem Chip.irq_engs (c : Chip) (n v : Nat) : (c.irq n v).engs = c.engs := rfl
@[simp] theorem Chip.irq_pipes (c : Chip) (n v : Nat) : (c.irq n v).pipes = c.pipes := rfl
@[simp] theorem Chip.irq_tcam (c : Chip) (n v : Nat) : (c.irq n v).tcam = c.tcam := rfl
@[simp] theorem Chip.irq_tbl (c : Chip) (n v : Nat) : (c.irq n v).tbl = c.tbl := rfl
@[simp] theorem Chip.irq_tblEcc (c : Chip) (n v : Nat) : (c.irq n v).tblEcc = c.tblEcc := rfl
@[simp] theorem Chip.irq_tblHall (c : Chip) (n v : Nat) : (c.irq n v).tblHall = c.tblHall := rfl
@[simp] theorem Chip.irq_jobs (c : Chip) (n v : Nat) : (c.irq n v).jobs = c.jobs := rfl
@[simp] theorem Chip.irq_lrn (c : Chip) (n v : Nat) : (c.irq n v).lrn = c.lrn := rfl
@[simp] theorem Chip.irq_lrnLast (c : Chip) (n v : Nat) : (c.irq n v).lrnLast = c.lrnLast := rfl
@[simp] theorem Chip.irq_agerNext (c : Chip) (n v : Nat) : (c.irq n v).agerNext = c.agerNext := rfl
@[simp] theorem Chip.irq_supSeq (c : Chip) (n v : Nat) : (c.irq n v).supSeq = c.supSeq := rfl
@[simp] theorem Chip.irq_atr (c : Chip) (n v : Nat) : (c.irq n v).atr = c.atr := rfl
@[simp] theorem Chip.irq_sgate (c : Chip) (n v : Nat) : (c.irq n v).sgate = c.sgate := rfl
@[simp] theorem Chip.irq_gal (c : Chip) (n v : Nat) : (c.irq n v).gal = c.gal := rfl
@[simp] theorem Chip.irq_rings (c : Chip) (n v : Nat) : (c.irq n v).rings = c.rings := rfl
@[simp] theorem Chip.irq_dma (c : Chip) (n v : Nat) : (c.irq n v).dma = c.dma := rfl
@[simp] theorem Chip.irq_halls (c : Chip) (n v : Nat) : (c.irq n v).halls = c.halls := rfl
@[simp] theorem Chip.irq_snaps (c : Chip) (n v : Nat) : (c.irq n v).snaps = c.snaps := rfl
@[simp] theorem Chip.irq_sec (c : Chip) (n v : Nat) : (c.irq n v).sec = c.sec := rfl
@[simp] theorem Chip.irq_flt (c : Chip) (n v : Nat) : (c.irq n v).flt = c.flt := rfl
@[simp] theorem Chip.irq_cnt (c : Chip) (n v : Nat) : (c.irq n v).cnt = c.cnt := rfl
@[simp] theorem Chip.irq_residue (c : Chip) (n v : Nat) : (c.irq n v).residue = c.residue := rfl
@[simp] theorem Chip.irq_aevc (c : Chip) (n v : Nat) : (c.irq n v).aevc = c.aevc := rfl
@[simp] theorem Chip.irq_aevcPrev (c : Chip) (n v : Nat) : (c.irq n v).aevcPrev = c.aevcPrev := rfl

@[simp] theorem Chip.rearm_fld (c : Chip) : c.rearm.fld = c.fld := rfl
@[simp] theorem Chip.rearm_freeCtr (c : Chip) : c.rearm.freeCtr = c.freeCtr := rfl
@[simp] theorem Chip.rearm_pins (c : Chip) : c.rearm.pins = c.pins := rfl
@[simp] theorem Chip.rearm_host (c : Chip) : c.rearm.host = c.host := rfl
@[simp] theorem Chip.rearm_flash (c : Chip) : c.rearm.flash = c.flash := rfl
@[simp] theorem Chip.rearm_tim (c : Chip) : c.rearm.tim = c.tim := rfl
@[simp] theorem Chip.rearm_cyc (c : Chip) : c.rearm.cyc = c.cyc := rfl
@[simp] theorem Chip.rearm_evt (c : Chip) : c.rearm.evt = c.evt := rfl
@[simp] theorem Chip.rearm_toutFall (c : Chip) : c.rearm.toutFall = c.toutFall := rfl
@[simp] theorem Chip.rearm_caps (c : Chip) : c.rearm.caps = c.caps := rfl
@[simp] theorem Chip.rearm_tsq (c : Chip) : c.rearm.tsq = c.tsq := rfl
@[simp] theorem Chip.rearm_tsqLost (c : Chip) : c.rearm.tsqLost = c.tsqLost := rfl
@[simp] theorem Chip.rearm_img (c : Chip) : c.rearm.img = c.img := rfl
@[simp] theorem Chip.rearm_ctl (c : Chip) : c.rearm.ctl = c.ctl := rfl
@[simp] theorem Chip.rearm_fenced (c : Chip) : c.rearm.fenced = c.fenced := rfl
@[simp] theorem Chip.rearm_ports (c : Chip) : c.rearm.ports = c.ports := rfl
@[simp] theorem Chip.rearm_engs (c : Chip) : c.rearm.engs = c.engs := rfl
@[simp] theorem Chip.rearm_pipes (c : Chip) : c.rearm.pipes = c.pipes := rfl
@[simp] theorem Chip.rearm_tcam (c : Chip) : c.rearm.tcam = c.tcam := rfl
@[simp] theorem Chip.rearm_tbl (c : Chip) : c.rearm.tbl = c.tbl := rfl
@[simp] theorem Chip.rearm_tblEcc (c : Chip) : c.rearm.tblEcc = c.tblEcc := rfl
@[simp] theorem Chip.rearm_tblHall (c : Chip) : c.rearm.tblHall = c.tblHall := rfl
@[simp] theorem Chip.rearm_jobs (c : Chip) : c.rearm.jobs = c.jobs := rfl
@[simp] theorem Chip.rearm_lrn (c : Chip) : c.rearm.lrn = c.lrn := rfl
@[simp] theorem Chip.rearm_lrnLast (c : Chip) : c.rearm.lrnLast = c.lrnLast := rfl
@[simp] theorem Chip.rearm_agerNext (c : Chip) : c.rearm.agerNext = c.agerNext := rfl
@[simp] theorem Chip.rearm_supSeq (c : Chip) : c.rearm.supSeq = c.supSeq := rfl
@[simp] theorem Chip.rearm_atr (c : Chip) : c.rearm.atr = c.atr := rfl
@[simp] theorem Chip.rearm_sgate (c : Chip) : c.rearm.sgate = c.sgate := rfl
@[simp] theorem Chip.rearm_gal (c : Chip) : c.rearm.gal = c.gal := rfl
@[simp] theorem Chip.rearm_rings (c : Chip) : c.rearm.rings = c.rings := rfl
@[simp] theorem Chip.rearm_dma (c : Chip) : c.rearm.dma = c.dma := rfl
@[simp] theorem Chip.rearm_halls (c : Chip) : c.rearm.halls = c.halls := rfl
@[simp] theorem Chip.rearm_snaps (c : Chip) : c.rearm.snaps = c.snaps := rfl
@[simp] theorem Chip.rearm_sec (c : Chip) : c.rearm.sec = c.sec := rfl
@[simp] theorem Chip.rearm_flt (c : Chip) : c.rearm.flt = c.flt := rfl
@[simp] theorem Chip.rearm_cnt (c : Chip) : c.rearm.cnt = c.cnt := rfl
@[simp] theorem Chip.rearm_residue (c : Chip) : c.rearm.residue = c.residue := rfl
@[simp] theorem Chip.rearm_aevc (c : Chip) : c.rearm.aevc = c.aevc := rfl
@[simp] theorem Chip.rearm_aevcPrev (c : Chip) : c.rearm.aevcPrev = c.aevcPrev := rfl

@[simp] theorem Chip.readGives_fld (c : Chip) (m v : Nat) : (c.readGives m v).fld = c.fld := rfl
@[simp] theorem Chip.readGives_freeCtr (c : Chip) (m v : Nat) : (c.readGives m v).freeCtr = c.freeCtr := rfl
@[simp] theorem Chip.readGives_pins (c : Chip) (m v : Nat) : (c.readGives m v).pins = c.pins := rfl
@[simp] theorem Chip.readGives_host (c : Chip) (m v : Nat) : (c.readGives m v).host = c.host := rfl
@[simp] theorem Chip.readGives_flash (c : Chip) (m v : Nat) : (c.readGives m v).flash = c.flash := rfl
@[simp] theorem Chip.readGives_tim (c : Chip) (m v : Nat) : (c.readGives m v).tim = c.tim := rfl
@[simp] theorem Chip.readGives_cyc (c : Chip) (m v : Nat) : (c.readGives m v).cyc = c.cyc := rfl
@[simp] theorem Chip.readGives_evt (c : Chip) (m v : Nat) : (c.readGives m v).evt = c.evt := rfl
@[simp] theorem Chip.readGives_toutFall (c : Chip) (m v : Nat) : (c.readGives m v).toutFall = c.toutFall := rfl
@[simp] theorem Chip.readGives_caps (c : Chip) (m v : Nat) : (c.readGives m v).caps = c.caps := rfl
@[simp] theorem Chip.readGives_tsq (c : Chip) (m v : Nat) : (c.readGives m v).tsq = c.tsq := rfl
@[simp] theorem Chip.readGives_tsqLost (c : Chip) (m v : Nat) : (c.readGives m v).tsqLost = c.tsqLost := rfl
@[simp] theorem Chip.readGives_img (c : Chip) (m v : Nat) : (c.readGives m v).img = c.img := rfl
@[simp] theorem Chip.readGives_ctl (c : Chip) (m v : Nat) : (c.readGives m v).ctl = c.ctl := rfl
@[simp] theorem Chip.readGives_fenced (c : Chip) (m v : Nat) : (c.readGives m v).fenced = c.fenced := rfl
@[simp] theorem Chip.readGives_ports (c : Chip) (m v : Nat) : (c.readGives m v).ports = c.ports := rfl
@[simp] theorem Chip.readGives_engs (c : Chip) (m v : Nat) : (c.readGives m v).engs = c.engs := rfl
@[simp] theorem Chip.readGives_pipes (c : Chip) (m v : Nat) : (c.readGives m v).pipes = c.pipes := rfl
@[simp] theorem Chip.readGives_tcam (c : Chip) (m v : Nat) : (c.readGives m v).tcam = c.tcam := rfl
@[simp] theorem Chip.readGives_tbl (c : Chip) (m v : Nat) : (c.readGives m v).tbl = c.tbl := rfl
@[simp] theorem Chip.readGives_tblEcc (c : Chip) (m v : Nat) : (c.readGives m v).tblEcc = c.tblEcc := rfl
@[simp] theorem Chip.readGives_tblHall (c : Chip) (m v : Nat) : (c.readGives m v).tblHall = c.tblHall := rfl
@[simp] theorem Chip.readGives_jobs (c : Chip) (m v : Nat) : (c.readGives m v).jobs = c.jobs := rfl
@[simp] theorem Chip.readGives_lrn (c : Chip) (m v : Nat) : (c.readGives m v).lrn = c.lrn := rfl
@[simp] theorem Chip.readGives_lrnLast (c : Chip) (m v : Nat) : (c.readGives m v).lrnLast = c.lrnLast := rfl
@[simp] theorem Chip.readGives_agerNext (c : Chip) (m v : Nat) : (c.readGives m v).agerNext = c.agerNext := rfl
@[simp] theorem Chip.readGives_supSeq (c : Chip) (m v : Nat) : (c.readGives m v).supSeq = c.supSeq := rfl
@[simp] theorem Chip.readGives_atr (c : Chip) (m v : Nat) : (c.readGives m v).atr = c.atr := rfl
@[simp] theorem Chip.readGives_sgate (c : Chip) (m v : Nat) : (c.readGives m v).sgate = c.sgate := rfl
@[simp] theorem Chip.readGives_gal (c : Chip) (m v : Nat) : (c.readGives m v).gal = c.gal := rfl
@[simp] theorem Chip.readGives_rings (c : Chip) (m v : Nat) : (c.readGives m v).rings = c.rings := rfl
@[simp] theorem Chip.readGives_dma (c : Chip) (m v : Nat) : (c.readGives m v).dma = c.dma := rfl
@[simp] theorem Chip.readGives_halls (c : Chip) (m v : Nat) : (c.readGives m v).halls = c.halls := rfl
@[simp] theorem Chip.readGives_snaps (c : Chip) (m v : Nat) : (c.readGives m v).snaps = c.snaps := rfl
@[simp] theorem Chip.readGives_sec (c : Chip) (m v : Nat) : (c.readGives m v).sec = c.sec := rfl
@[simp] theorem Chip.readGives_flt (c : Chip) (m v : Nat) : (c.readGives m v).flt = c.flt := rfl
@[simp] theorem Chip.readGives_cnt (c : Chip) (m v : Nat) : (c.readGives m v).cnt = c.cnt := rfl
@[simp] theorem Chip.readGives_residue (c : Chip) (m v : Nat) : (c.readGives m v).residue = c.residue := rfl
@[simp] theorem Chip.readGives_aevc (c : Chip) (m v : Nat) : (c.readGives m v).aevc = c.aevc := rfl
@[simp] theorem Chip.readGives_aevcPrev (c : Chip) (m v : Nat) : (c.readGives m v).aevcPrev = c.aevcPrev := rfl

@[simp] theorem Chip.latch_fld (c : Chip) (m a v : Nat) : (c.latch m a v).fld = c.fld := rfl
@[simp] theorem Chip.latch_freeCtr (c : Chip) (m a v : Nat) : (c.latch m a v).freeCtr = c.freeCtr := rfl
@[simp] theorem Chip.latch_pins (c : Chip) (m a v : Nat) : (c.latch m a v).pins = c.pins := rfl
@[simp] theorem Chip.latch_host (c : Chip) (m a v : Nat) : (c.latch m a v).host = c.host := rfl
@[simp] theorem Chip.latch_flash (c : Chip) (m a v : Nat) : (c.latch m a v).flash = c.flash := rfl
@[simp] theorem Chip.latch_tim (c : Chip) (m a v : Nat) : (c.latch m a v).tim = c.tim := rfl
@[simp] theorem Chip.latch_cyc (c : Chip) (m a v : Nat) : (c.latch m a v).cyc = c.cyc := rfl
@[simp] theorem Chip.latch_evt (c : Chip) (m a v : Nat) : (c.latch m a v).evt = c.evt := rfl
@[simp] theorem Chip.latch_toutFall (c : Chip) (m a v : Nat) : (c.latch m a v).toutFall = c.toutFall := rfl
@[simp] theorem Chip.latch_caps (c : Chip) (m a v : Nat) : (c.latch m a v).caps = c.caps := rfl
@[simp] theorem Chip.latch_tsq (c : Chip) (m a v : Nat) : (c.latch m a v).tsq = c.tsq := rfl
@[simp] theorem Chip.latch_tsqLost (c : Chip) (m a v : Nat) : (c.latch m a v).tsqLost = c.tsqLost := rfl
@[simp] theorem Chip.latch_img (c : Chip) (m a v : Nat) : (c.latch m a v).img = c.img := rfl
@[simp] theorem Chip.latch_ctl (c : Chip) (m a v : Nat) : (c.latch m a v).ctl = c.ctl := rfl
@[simp] theorem Chip.latch_fenced (c : Chip) (m a v : Nat) : (c.latch m a v).fenced = c.fenced := rfl
@[simp] theorem Chip.latch_ports (c : Chip) (m a v : Nat) : (c.latch m a v).ports = c.ports := rfl
@[simp] theorem Chip.latch_engs (c : Chip) (m a v : Nat) : (c.latch m a v).engs = c.engs := rfl
@[simp] theorem Chip.latch_pipes (c : Chip) (m a v : Nat) : (c.latch m a v).pipes = c.pipes := rfl
@[simp] theorem Chip.latch_tcam (c : Chip) (m a v : Nat) : (c.latch m a v).tcam = c.tcam := rfl
@[simp] theorem Chip.latch_tbl (c : Chip) (m a v : Nat) : (c.latch m a v).tbl = c.tbl := rfl
@[simp] theorem Chip.latch_tblEcc (c : Chip) (m a v : Nat) : (c.latch m a v).tblEcc = c.tblEcc := rfl
@[simp] theorem Chip.latch_tblHall (c : Chip) (m a v : Nat) : (c.latch m a v).tblHall = c.tblHall := rfl
@[simp] theorem Chip.latch_jobs (c : Chip) (m a v : Nat) : (c.latch m a v).jobs = c.jobs := rfl
@[simp] theorem Chip.latch_lrn (c : Chip) (m a v : Nat) : (c.latch m a v).lrn = c.lrn := rfl
@[simp] theorem Chip.latch_lrnLast (c : Chip) (m a v : Nat) : (c.latch m a v).lrnLast = c.lrnLast := rfl
@[simp] theorem Chip.latch_agerNext (c : Chip) (m a v : Nat) : (c.latch m a v).agerNext = c.agerNext := rfl
@[simp] theorem Chip.latch_supSeq (c : Chip) (m a v : Nat) : (c.latch m a v).supSeq = c.supSeq := rfl
@[simp] theorem Chip.latch_atr (c : Chip) (m a v : Nat) : (c.latch m a v).atr = c.atr := rfl
@[simp] theorem Chip.latch_sgate (c : Chip) (m a v : Nat) : (c.latch m a v).sgate = c.sgate := rfl
@[simp] theorem Chip.latch_gal (c : Chip) (m a v : Nat) : (c.latch m a v).gal = c.gal := rfl
@[simp] theorem Chip.latch_rings (c : Chip) (m a v : Nat) : (c.latch m a v).rings = c.rings := rfl
@[simp] theorem Chip.latch_dma (c : Chip) (m a v : Nat) : (c.latch m a v).dma = c.dma := rfl
@[simp] theorem Chip.latch_halls (c : Chip) (m a v : Nat) : (c.latch m a v).halls = c.halls := rfl
@[simp] theorem Chip.latch_snaps (c : Chip) (m a v : Nat) : (c.latch m a v).snaps = c.snaps := rfl
@[simp] theorem Chip.latch_sec (c : Chip) (m a v : Nat) : (c.latch m a v).sec = c.sec := rfl
@[simp] theorem Chip.latch_flt (c : Chip) (m a v : Nat) : (c.latch m a v).flt = c.flt := rfl
@[simp] theorem Chip.latch_cnt (c : Chip) (m a v : Nat) : (c.latch m a v).cnt = c.cnt := rfl
@[simp] theorem Chip.latch_residue (c : Chip) (m a v : Nat) : (c.latch m a v).residue = c.residue := rfl
@[simp] theorem Chip.latch_aevc (c : Chip) (m a v : Nat) : (c.latch m a v).aevc = c.aevc := rfl
@[simp] theorem Chip.latch_aevcPrev (c : Chip) (m a v : Nat) : (c.latch m a v).aevcPrev = c.aevcPrev := rfl

@[simp] theorem Chip.devCnt_fld (c : Chip) (x n : Nat) : (c.devCnt x n).fld = c.fld := rfl
@[simp] theorem Chip.devCnt_freeCtr (c : Chip) (x n : Nat) : (c.devCnt x n).freeCtr = c.freeCtr := rfl
@[simp] theorem Chip.devCnt_pins (c : Chip) (x n : Nat) : (c.devCnt x n).pins = c.pins := rfl
@[simp] theorem Chip.devCnt_host (c : Chip) (x n : Nat) : (c.devCnt x n).host = c.host := rfl
@[simp] theorem Chip.devCnt_flash (c : Chip) (x n : Nat) : (c.devCnt x n).flash = c.flash := rfl
@[simp] theorem Chip.devCnt_bus (c : Chip) (x n : Nat) : (c.devCnt x n).bus = c.bus := rfl
@[simp] theorem Chip.devCnt_tim (c : Chip) (x n : Nat) : (c.devCnt x n).tim = c.tim := rfl
@[simp] theorem Chip.devCnt_cyc (c : Chip) (x n : Nat) : (c.devCnt x n).cyc = c.cyc := rfl
@[simp] theorem Chip.devCnt_evt (c : Chip) (x n : Nat) : (c.devCnt x n).evt = c.evt := rfl
@[simp] theorem Chip.devCnt_toutFall (c : Chip) (x n : Nat) : (c.devCnt x n).toutFall = c.toutFall := rfl
@[simp] theorem Chip.devCnt_caps (c : Chip) (x n : Nat) : (c.devCnt x n).caps = c.caps := rfl
@[simp] theorem Chip.devCnt_tsq (c : Chip) (x n : Nat) : (c.devCnt x n).tsq = c.tsq := rfl
@[simp] theorem Chip.devCnt_tsqLost (c : Chip) (x n : Nat) : (c.devCnt x n).tsqLost = c.tsqLost := rfl
@[simp] theorem Chip.devCnt_img (c : Chip) (x n : Nat) : (c.devCnt x n).img = c.img := rfl
@[simp] theorem Chip.devCnt_ctl (c : Chip) (x n : Nat) : (c.devCnt x n).ctl = c.ctl := rfl
@[simp] theorem Chip.devCnt_fenced (c : Chip) (x n : Nat) : (c.devCnt x n).fenced = c.fenced := rfl
@[simp] theorem Chip.devCnt_ports (c : Chip) (x n : Nat) : (c.devCnt x n).ports = c.ports := rfl
@[simp] theorem Chip.devCnt_engs (c : Chip) (x n : Nat) : (c.devCnt x n).engs = c.engs := rfl
@[simp] theorem Chip.devCnt_pipes (c : Chip) (x n : Nat) : (c.devCnt x n).pipes = c.pipes := rfl
@[simp] theorem Chip.devCnt_tcam (c : Chip) (x n : Nat) : (c.devCnt x n).tcam = c.tcam := rfl
@[simp] theorem Chip.devCnt_tbl (c : Chip) (x n : Nat) : (c.devCnt x n).tbl = c.tbl := rfl
@[simp] theorem Chip.devCnt_tblEcc (c : Chip) (x n : Nat) : (c.devCnt x n).tblEcc = c.tblEcc := rfl
@[simp] theorem Chip.devCnt_tblHall (c : Chip) (x n : Nat) : (c.devCnt x n).tblHall = c.tblHall := rfl
@[simp] theorem Chip.devCnt_jobs (c : Chip) (x n : Nat) : (c.devCnt x n).jobs = c.jobs := rfl
@[simp] theorem Chip.devCnt_lrn (c : Chip) (x n : Nat) : (c.devCnt x n).lrn = c.lrn := rfl
@[simp] theorem Chip.devCnt_lrnLast (c : Chip) (x n : Nat) : (c.devCnt x n).lrnLast = c.lrnLast := rfl
@[simp] theorem Chip.devCnt_agerNext (c : Chip) (x n : Nat) : (c.devCnt x n).agerNext = c.agerNext := rfl
@[simp] theorem Chip.devCnt_supSeq (c : Chip) (x n : Nat) : (c.devCnt x n).supSeq = c.supSeq := rfl
@[simp] theorem Chip.devCnt_atr (c : Chip) (x n : Nat) : (c.devCnt x n).atr = c.atr := rfl
@[simp] theorem Chip.devCnt_sgate (c : Chip) (x n : Nat) : (c.devCnt x n).sgate = c.sgate := rfl
@[simp] theorem Chip.devCnt_gal (c : Chip) (x n : Nat) : (c.devCnt x n).gal = c.gal := rfl
@[simp] theorem Chip.devCnt_rings (c : Chip) (x n : Nat) : (c.devCnt x n).rings = c.rings := rfl
@[simp] theorem Chip.devCnt_dma (c : Chip) (x n : Nat) : (c.devCnt x n).dma = c.dma := rfl
@[simp] theorem Chip.devCnt_halls (c : Chip) (x n : Nat) : (c.devCnt x n).halls = c.halls := rfl
@[simp] theorem Chip.devCnt_snaps (c : Chip) (x n : Nat) : (c.devCnt x n).snaps = c.snaps := rfl
@[simp] theorem Chip.devCnt_sec (c : Chip) (x n : Nat) : (c.devCnt x n).sec = c.sec := rfl
@[simp] theorem Chip.devCnt_flt (c : Chip) (x n : Nat) : (c.devCnt x n).flt = c.flt := rfl
@[simp] theorem Chip.devCnt_residue (c : Chip) (x n : Nat) : (c.devCnt x n).residue = c.residue := rfl
@[simp] theorem Chip.devCnt_aevc (c : Chip) (x n : Nat) : (c.devCnt x n).aevc = c.aevc := rfl
@[simp] theorem Chip.devCnt_aevcPrev (c : Chip) (x n : Nat) : (c.devCnt x n).aevcPrev = c.aevcPrev := rfl

@[simp] theorem State.onChip_otp (s : State) (g : Chip → Chip) : (s.onChip g).otp = s.otp := rfl
@[simp] theorem State.onChip_pending (s : State) (g : Chip → Chip) : (s.onChip g).pending = s.pending := rfl
@[simp] theorem State.onChip_chip (s : State) (g : Chip → Chip) : (s.onChip g).chip = g s.chip := rfl

/-! ## Fields -/

@[simp] theorem Chip.setPort_get (c : Chip) (n : Nat) (p : PortRt) (f : F) (x y : Nat) : (c.setPort n p).get f x y = c.get f x y := rfl
@[simp] theorem Chip.setPipe_get (c : Chip) (n : Nat) (p : PipeRt) (f : F) (x y : Nat) : (c.setPipe n p).get f x y = c.get f x y := rfl
@[simp] theorem Chip.setEng_get (c : Chip) (n : Nat) (p : EngRt) (f : F) (x y : Nat) : (c.setEng n p).get f x y = c.get f x y := rfl
@[simp] theorem Chip.setFrame_get (c : Chip) (n : Nat) (g : Frame) (f : F) (x y : Nat) : (c.setFrame n g).get f x y = c.get f x y := rfl
@[simp] theorem Chip.delFrame_get (c : Chip) (n : Nat) (f : F) (x y : Nat) : (c.delFrame n).get f x y = c.get f x y := rfl
@[simp] theorem Chip.irq_get (c : Chip) (n v : Nat) (f : F) (x y : Nat) : (c.irq n v).get f x y = c.get f x y := rfl
@[simp] theorem Chip.rearm_get (c : Chip) (f : F) (x y : Nat) : c.rearm.get f x y = c.get f x y := rfl
@[simp] theorem Chip.readGives_get (c : Chip) (m v : Nat) (f : F) (x y : Nat) : (c.readGives m v).get f x y = c.get f x y := rfl
@[simp] theorem Chip.latch_get (c : Chip) (m a v : Nat) (f : F) (x y : Nat) : (c.latch m a v).get f x y = c.get f x y := rfl
@[simp] theorem Chip.devCnt_get (c : Chip) (x n : Nat) (f : F) (x y : Nat) : (c.devCnt x n).get f x y = c.get f x y := rfl

/-- A field's reset value depends on the image in force and the sensed fuses alone. -/
theorem fdefault_congr {c d : Chip} (hi : d.img = c.img) (hs : d.sec = c.sec) (f : F) (i j : Nat) :
    fdefault d f i j = fdefault c f i j := by
  cases c; cases d; simp only at hi hs; subst hi hs; rfl

@[simp] theorem Chip.set_fdefault (c : Chip) (f : F) (i j v : Nat) (g : F) (x y : Nat) :
    fdefault (c.set f i j v) g x y = fdefault c g x y := rfl

@[simp] theorem Chip.unset_fdefault (c : Chip) (f : F) (i j : Nat) (g : F) (x y : Nat) :
    fdefault (c.unset f i j) g x y = fdefault c g x y := rfl

/-- A chip with the same field store, image and security block reads the same. -/
theorem Chip.get_congr {c d : Chip} (hf : d.fld = c.fld) (hi : d.img = c.img) (hs : d.sec = c.sec) (f : F) (i j : Nat) :
    d.get f i j = c.get f i j := by
  unfold Chip.get Chip.copyOf; rw [fdefault_congr hi hs, hf]

/-- The three copies after a write: the first holds the value, the others are as it is. -/
theorem Chip.copyOf_set_same (c : Chip) (f : F) (i j v : Nat) :
    (c.set f i j v).copyOf 0 (fdefault c f i j) f i j = v % 2 ^ f.width := alGet_put_same ..

theorem Chip.copyOf_set_twin (c : Chip) (f : F) (i j v a k : Nat) (hk : k = 1 ∨ k = 2) :
    (c.set f i j v).copyOf k a f i j = a := by
  unfold Chip.copyOf Chip.set; dsimp only
  rw [alGet_put_other _ _ _ (by rintro ⟨⟩; omega)]
  rcases hk with rfl | rfl
  · simp [alGet]
  · rw [alGet, alFind_erase_other (by simp), alFind_erase_same]; rfl

theorem Chip.copyOf_set_other (c : Chip) (f : F) (i j v a k : Nat) (g : F) (x y : Nat) (h : ¬(g = f ∧ x = i ∧ y = j)) :
    (c.set f i j v).copyOf k a g x y = c.copyOf k a g x y := by
  have hn : ∀ n : Nat, (⟨k, g, x, y⟩ : FKey) ≠ ⟨n, f, i, j⟩ := by rintro n ⟨⟩; exact h ⟨rfl, rfl, rfl⟩
  unfold Chip.copyOf Chip.set; dsimp only
  rw [alGet_put_other _ _ _ (hn 0)]; unfold alGet
  rw [alFind_erase_other (hn 1), alFind_erase_other (hn 2)]

@[simp] theorem vote_self (a : Nat) : vote a a a = a := by unfold vote; simp

/-- A field reads what was written to it, in its width. -/
theorem Chip.get_set_same (c : Chip) (f : F) (i j v : Nat) : (c.set f i j v).get f i j = v % 2 ^ f.width := by
  unfold Chip.get; dsimp only
  rw [Chip.set_fdefault, Chip.copyOf_set_same, Chip.copyOf_set_twin _ _ _ _ _ _ _ (.inl rfl),
    Chip.copyOf_set_twin _ _ _ _ _ _ _ (.inr rfl), vote_self, Nat.mod_mod]

/-- A write of one field leaves the others. -/
theorem Chip.get_set_other (c : Chip) (f : F) (i j v : Nat) (g : F) (x y : Nat) (h : ¬(g = f ∧ x = i ∧ y = j)) :
    (c.set f i j v).get g x y = c.get g x y := by
  unfold Chip.get; dsimp only
  simp only [Chip.set_fdefault, Chip.copyOf_set_other _ _ _ _ _ _ _ _ _ _ h]

/-- The two laws as one. -/
@[simp] theorem Chip.get_set (c : Chip) (f : F) (i j v : Nat) (g : F) (x y : Nat) :
    (c.set f i j v).get g x y = if g = f ∧ x = i ∧ y = j then v % 2 ^ f.width else c.get g x y := by
  split
  · next h => obtain ⟨rfl, rfl, rfl⟩ := h; exact c.get_set_same ..
  · next h => exact c.get_set_other _ _ _ _ _ _ _ h

@[simp] theorem Chip.get_unset (c : Chip) (f : F) (i j : Nat) (g : F) (x y : Nat) :
    (c.unset f i j).get g x y = if g = f ∧ x = i ∧ y = j then fdefault c f i j % 2 ^ f.width else c.get g x y := by
  unfold Chip.get; rw [Chip.unset_fdefault]; dsimp only
  split
  · next h =>
    obtain ⟨rfl, rfl, rfl⟩ := h
    have e0 : ∀ a, (c.unset g x y).copyOf 0 a g x y = a := fun a => by unfold Chip.copyOf Chip.unset alGet; simp
    have e1 : ∀ a, (c.unset g x y).copyOf 1 a g x y = a := fun a => by
      unfold Chip.copyOf Chip.unset alGet; dsimp only; rw [alFind_erase_other (by simp), alFind_erase_same]; rfl
    have e2 : ∀ a, (c.unset g x y).copyOf 2 a g x y = a := fun a => by
      unfold Chip.copyOf Chip.unset alGet; dsimp only
      rw [alFind_erase_other (by simp), alFind_erase_other (by simp), alFind_erase_same]; rfl
    rw [e0, e1, e2, vote_self]
  · next h =>
    have hn : ∀ k n : Nat, (⟨k, g, x, y⟩ : FKey) ≠ ⟨n, f, i, j⟩ := by rintro k n ⟨⟩; exact h ⟨rfl, rfl, rfl⟩
    have e : ∀ k a, (c.unset f i j).copyOf k a g x y = c.copyOf k a g x y := fun k a => by
      unfold Chip.copyOf Chip.unset alGet; dsimp only
      rw [alFind_erase_other (hn k 0), alFind_erase_other (hn k 1), alFind_erase_other (hn k 2)]
    simp only [e]

/-- A field never reads more than its bits hold. -/
theorem Chip.get_lt (c : Chip) (f : F) (i j : Nat) : c.get f i j < 2 ^ f.width := Nat.mod_lt _ (Nat.pow_pos (by decide))

@[simp] theorem Chip.get_mod (c : Chip) (f : F) (i j : Nat) : c.get f i j % 2 ^ f.width = c.get f i j :=
  Nat.mod_eq_of_lt (c.get_lt f i j)

end Sys2Proof.Machine
end

