-- ==== Sys2Proof/Laws/Access.lean ====
section
/-! SUPPORT. What an access does, said once: a write that reaches its register, the access log, command status. -/

namespace Sys2Proof.Machine

/-- What the log keeps under another address leaves every other field. -/
theorem Chip.logAs_get (c : Chip) (a : Nat) (f : Chip → Chip) (g : F) (x y : Nat) (h : g ≠ Fd.GLB_ACCESS_ERR_ADDR_ADDR) :
    (c.logAs a f).get g x y = (f c).get g x y := by
  unfold Chip.logAs; dsimp only; split
  · rw [Chip.get_set, if_neg (by rintro ⟨h1, -⟩; exact h h1)]
  · rfl

/-- It changes the field store alone. -/
theorem Chip.logAs_fld (c : Chip) (a : Nat) (f : Chip → Chip) : ∃ x, c.logAs a f = { f c with fld := x } := by
  unfold Chip.logAs; dsimp only; split
  · exact ⟨_, rfl⟩
  · exact ⟨(f c).fld, rfl⟩

/-- A write that reaches its register has its effect, and the KG lock is armed again (R10). -/
theorem Chip.withWrite_serves {c : Chip} {m : Nat} {via : Option Nat} {r : R} {i j : Nat} (h : c.serves m via r i j = true)
    (k : Bool → Chip → Chip) :
    c.withWrite m via r i j k = (c.rearm).logAs (c.accAddr via r i j) (k (c.bus.kgOpen && r.guarded)) := by
  unfold Chip.serves at h
  simp only [Bool.and_eq_true, decide_eq_true_eq, Bool.not_eq_true'] at h
  obtain ⟨⟨h1, h2⟩, h3⟩ := h
  unfold Chip.withWrite
  simp only [h1]
  rw [if_neg (by simp [h2])]
  cases via with
  | none => rfl
  | some hh =>
    simp only [Bool.and_eq_true, Bool.not_eq_true', decide_eq_false_iff_not] at h3
    obtain ⟨⟨⟨a, b⟩, d⟩, e⟩ := h3
    simp only [a, d, Bool.not_true, Bool.false_or, decide_eq_true_eq, if_neg b, Bool.false_eq_true, if_false]
    split
    · next hps =>
      rw [if_pos hps] at e
      cases hb : apertureBar c hh r i j with
      | none => rfl
      | some k => rw [hb] at e; simp at e
    · rfl

@[simp] theorem Chip.outcome_status (c : Chip) (st : F) (i j code : Nat) : (c.outcome st i j code).get st i j = code % 2 ^ st.width := by
  unfold Chip.outcome; split <;> exact Chip.get_set_same ..

end Sys2Proof.Machine
end

