-- ==== Sys2Proof/Laws/Frame.lean ====
section
/-! SUPPORT. What the operations that every register access goes through leave alone, said once: a part of the state that neither
the registers nor the bus make up is kept by the access log, by command status, by a plain write, and by a write whose effect
keeps it; and which registers the log, the status and a fault's event may change. -/

namespace Sys2Proof.Machine

/-- A view of the chip that looks neither at the registers nor at the bus. -/
def Chip.Blind {γ : Type} (p : Chip → γ) : Prop := ∀ (c : Chip) (x : FStore) (b : Bus), p { c with fld := x, bus := b } = p c

theorem Chip.Blind.fld {γ : Type} {p : Chip → γ} (hp : Chip.Blind p) (c : Chip) (x : FStore) : p { c with fld := x } = p c :=
  hp c x c.bus

theorem Chip.Blind.bus {γ : Type} {p : Chip → γ} (hp : Chip.Blind p) (c : Chip) (b : Bus) : p { c with bus := b } = p c :=
  hp c c.fld b

section
variable {γ : Type} {p : Chip → γ} (hp : Chip.Blind p)
include hp

theorem Chip.Blind.set (c : Chip) (f : F) (i j v : Nat) : p (c.set f i j v) = p c := hp.fld c _

theorem Chip.Blind.unset (c : Chip) (f : F) (i j : Nat) : p (c.unset f i j) = p c := hp.fld c _

theorem Chip.Blind.rearm (c : Chip) : p c.rearm = p c := hp.bus c _

theorem Chip.Blind.irq (c : Chip) (n v : Nat) : p (c.irq n v) = p c := hp.bus c _

theorem Chip.Blind.cntSat (c : Chip) (f : F) (i j n : Nat) : p (c.cntSat f i j n) = p c := by
  unfold Chip.cntSat; exact hp.set ..

theorem Chip.Blind.cntOvf (c : Chip) (f o : F) (i j n : Nat) : p (c.cntOvf f o i j n) = p c := by
  unfold Chip.cntOvf; dsimp only; split <;> simp only [hp.set]

theorem Chip.Blind.logErr (c : Chip) (m a : Nat) (w : Bool) (k : Nat) : p (c.logErr m a w k) = p c := by
  unfold Chip.logErr; dsimp only; rw [hp.cntOvf]; split <;> simp only [hp.set]

theorem Chip.Blind.refuse (c : Chip) (m : Nat) (r : R) (i j : Nat) : p (c.refuse m r i j) = p c := hp.logErr ..

theorem Chip.Blind.kgRefuse (c : Chip) (m : Nat) (r : R) (i j : Nat) : p (c.kgRefuse m r i j) = p c := hp.logErr ..

theorem Chip.Blind.stateErr (c : Chip) : p c.stateErr = p c := hp.cntOvf ..

theorem Chip.Blind.outcome (c : Chip) (st : F) (i j code : Nat) : p (c.outcome st i j code) = p c := by
  unfold Chip.outcome; split <;> simp only [hp.set, hp.stateErr]

theorem Chip.Blind.writeArgs (c : Chip) (fs : List (F × Nat)) (i j : Nat) : p (c.writeArgs fs i j) = p c := by
  unfold Chip.writeArgs
  induction fs generalizing c with
  | nil => rfl
  | cons a l ih => exact (ih _).trans (hp.set ..)

theorem Chip.Blind.writeField (m : Nat) (kg run : Bool) (i j v : Nat) (a : Chip × Option Nat) (w : Row) :
    p (writeField m kg run i j v a w).1 = p a.1 := by
  unfold Sys2Proof.Machine.writeField; dsimp only
  (repeat' split) <;> first | rfl | exact hp.set ..

/-- A plain write changes registers alone. -/
theorem Chip.Blind.plainWrite (c : Chip) (m : Nat) (kg : Bool) (r : R) (i j v : Nat) : p (c.plainWrite m kg r i j v) = p c := by
  unfold Chip.plainWrite; dsimp only
  have h : ∀ (l : List Row) (a : Chip × Option Nat),
      p (l.foldl (Sys2Proof.Machine.writeField m kg (domRunning c r i) i j v) a).1 = p a.1 := by
    intro l
    induction l with
    | nil => intro a; rfl
    | cons w l ih => intro a; exact (ih _).trans (hp.writeField ..)
  split
  · exact h _ _
  · rw [hp.logErr]; exact h _ _

theorem Chip.Blind.logAs (c : Chip) (a : Nat) (f : Chip → Chip) : p (c.logAs a f) = p (f c) := by
  unfold Chip.logAs; dsimp only; split
  · exact hp.set ..
  · rfl

/-- A command keeps what its operands and its effect keep. -/
theorem Chip.Blind.command (c : Chip) (st : F) (i j m a : Nat) (args : Chip → Chip) (checks : List (Bool × Nat)) (go : Chip → Chip)
    (ha : p (args c) = p c) (hg : p (go (args c)) = p c) : p (c.command st i j m a args checks go) = p c := by
  unfold Chip.command; split
  · rw [hp.logErr, hp.stateErr]
  · split
    · rw [hp.outcome, ha]
    · exact hg

/-- A register write keeps what its effect keeps, whatever becomes of the access. -/
theorem Chip.Blind.withWrite (c : Chip) (m : Nat) (via : Option Nat) (r : R) (i j : Nat) (k : Bool → Chip → Chip)
    (hk : ∀ kg d, p (k kg d) = p d) : p (c.withWrite m via r i j k) = p c := by
  unfold Chip.withWrite; dsimp only
  (repeat' split) <;> first | rfl | simp only [hp.logErr, hp.rearm, hp.logAs, hk]

theorem Chip.Blind.guardedWrite (c : Chip) (m : Nat) (kg : Bool) (r : R) (i v : Nat) (go : Chip → Chip) (hg : ∀ d, p (go d) = p d) :
    p (guardedWrite m kg r i v go c) = p c := by
  unfold Sys2Proof.Machine.guardedWrite; split
  · exact hg c
  · exact hp.plainWrite ..

end

/-! ## Which registers they may change -/

/-- The registers of the access log. -/
def R.isLog (r : R) : Bool := decide (r = .GLB_ACCESS_ERR ∨ r = .GLB_ACCESS_ERR_ADDR ∨ r = .GLB_ACCESS_ERR_CNT)

theorem Chip.get_set_ne {c : Chip} {f g : F} {i j v x y : Nat} (h : g ≠ f) : (c.set f i j v).get g x y = c.get g x y := by
  rw [Chip.get_set, if_neg (by rintro ⟨h1, -⟩; exact h h1)]

theorem Chip.cntOvf_get {c : Chip} {f o g : F} {i j n x y : Nat} (h1 : g ≠ f) (h2 : g ≠ o) :
    (c.cntOvf f o i j n).get g x y = c.get g x y := by
  unfold Chip.cntOvf; dsimp only; split <;> simp only [Chip.get_set_ne h1, Chip.get_set_ne h2]

/-- A record of the access log changes its own registers alone. -/
theorem Chip.logErr_get {c : Chip} {m a k x y : Nat} {w : Bool} {g : F} (h : g.r.isLog = false) :
    (c.logErr m a w k).get g x y = c.get g x y := by
  have hn : ∀ f : F, f.r.isLog = true → g ≠ f := by rintro f hf rfl; simp [hf] at h
  unfold Chip.logErr; dsimp only
  rw [Chip.cntOvf_get (hn _ rfl) (hn _ rfl)]
  split
  · rw [Chip.get_set_ne (hn _ rfl)]
  · rw [Chip.get_set_ne (hn _ rfl), Chip.get_set_ne (hn _ rfl), Chip.get_set_ne (hn _ rfl), Chip.get_set_ne (hn _ rfl),
      Chip.get_set_ne (hn _ rfl)]

theorem Chip.stateErr_get {c : Chip} {x y : Nat} {g : F} (h : g.r ≠ .GLB_STATE_ERR_CNT) : c.stateErr.get g x y = c.get g x y :=
  Chip.cntOvf_get (by rintro rfl; exact h rfl) (by rintro rfl; exact h rfl)

/-- An outcome changes its STATUS field, and the count of STATE_ERR. -/
theorem Chip.outcome_get {c : Chip} {st g : F} {i j code x y : Nat} (h : g ≠ st) (h2 : g.r ≠ .GLB_STATE_ERR_CNT) :
    (c.outcome st i j code).get g x y = c.get g x y := by
  unfold Chip.outcome; split
  · rw [Chip.get_set_ne h, Chip.stateErr_get h2]
  · rw [Chip.get_set_ne h]

/-! ## A fault's event -/

section
variable {γ : Type} {p : Chip → γ} (hp : Chip.Blind p)
include hp

theorem Chip.Blind.latchFault (c : Chip) (f : Nat) : p (c.latchFault f) = p c := by
  have h1 : p ((c.cntSat Fd.FLT_EVT_CNT_COUNT f 0 1).set Fd.FLT_STATUS_STATUS 0 0
      (setBit (c.get Fd.FLT_STATUS_STATUS 0 0) f true)) = p c := by rw [hp.set, hp.cntSat]
  unfold Chip.latchFault; dsimp only
  (repeat' split)
  · rfl
  · exact h1
  · exact (hp.bus _ _).trans ((hp.irq _ _ _).trans h1)
  · exact (hp.irq _ _ _).trans h1

/-- What looks at neither the registers, the bus nor the collector is kept by a fault's event. -/
theorem Chip.Blind.raiseD (hf : ∀ (c : Chip) (x : Flt), p { c with flt := x } = p c) (c : Chip) (f unit detail : Nat) :
    p (c.raiseD f unit detail) = p c := by
  have h : p (c.histEntry f unit detail) = p c := by
    unfold Chip.histEntry; split
    · rfl
    · dsimp only; rw [hp.set]; refine (hf _ _).trans ?_; rw [apply_ite p, hp.cntSat, ite_self]
  unfold Chip.raiseD; dsimp only; split
  · rfl
  · rw [hp.latchFault]; split
    · exact (hf _ _).trans h
    · rfl

theorem Chip.Blind.raise (hf : ∀ (c : Chip) (x : Flt), p { c with flt := x } = p c) (c : Chip) (f unit : Nat) :
    p (c.raise f unit) = p c := hp.raiseD hf ..

end

theorem Chip.latchFault_status {c : Chip} {f : Nat} (h : c.safe = false) :
    (c.latchFault f).get Fd.FLT_STATUS_STATUS 0 0 = setBit (c.get Fd.FLT_STATUS_STATUS 0 0) f true % 2 ^ 32 := by
  unfold Chip.latchFault; dsimp only; rw [if_neg (by simp [h])]
  (repeat' split) <;> exact Chip.get_set_same ..

end Sys2Proof.Machine
end

