-- ==== Sys2Proof/Laws/Keep.lean ====
section
/-! SUPPORT. What the operations on faults, frames, links and stair links leave alone: the image, the control state, the security
block, the pins, the clocks, the memories outside the device and the KG lock. -/

namespace Sys2Proof.Machine

/-- The parts of the chip that faults, frames and links do not touch. -/
def Chip.base (c : Chip) : Img × Ctl × Sec × Pins × Tim × Cyc × Mem × Mem × Bool :=
  (c.img, c.ctl, c.sec, c.pins, c.tim, c.cyc, c.host, c.flash, c.bus.kgOpen)

theorem Chip.base_iff (c d : Chip) : d.base = c.base ↔
    d.img = c.img ∧ d.ctl = c.ctl ∧ d.sec = c.sec ∧ d.pins = c.pins ∧ d.tim = c.tim ∧ d.cyc = c.cyc ∧
      d.host = c.host ∧ d.flash = c.flash ∧ d.bus.kgOpen = c.bus.kgOpen := by
  unfold Chip.base; simp only [Prod.mk.injEq]

/-- What each step of a fold keeps, the fold keeps. -/
theorem foldl_keep {α β γ : Type} (p : β → γ) (f : β → α → β) (h : ∀ c a, p (f c a) = p c) (l : List α) (c : β) :
    p (l.foldl f c) = p c := by
  induction l generalizing c with
  | nil => rfl
  | cons a l ih => exact (ih (f c a)).trans (h c a)

@[simp] theorem Chip.set_base (c : Chip) (f : F) (i j v : Nat) : (c.set f i j v).base = c.base := rfl
@[simp] theorem Chip.unset_base (c : Chip) (f : F) (i j : Nat) : (c.unset f i j).base = c.base := rfl
@[simp] theorem Chip.setPort_base (c : Chip) (n : Nat) (p : PortRt) : (c.setPort n p).base = c.base := rfl
@[simp] theorem Chip.setPipe_base (c : Chip) (n : Nat) (p : PipeRt) : (c.setPipe n p).base = c.base := rfl
@[simp] theorem Chip.setFrame_base (c : Chip) (n : Nat) (g : Frame) : (c.setFrame n g).base = c.base := rfl
@[simp] theorem Chip.delFrame_base (c : Chip) (n : Nat) : (c.delFrame n).base = c.base := rfl
@[simp] theorem Chip.irq_base (c : Chip) (n v : Nat) : (c.irq n v).base = c.base := rfl
@[simp] theorem Chip.devCnt_base (c : Chip) (x n : Nat) : (c.devCnt x n).base = c.base := rfl
@[simp] theorem Chip.setQueue_base (c : Chip) (n q : Nat) (l : List Copy) : (c.setQueue n q l).base = c.base := rfl
@[simp] theorem Chip.discard1_base (c : Chip) : (c.discard1).base = c.base := by
  unfold Chip.discard1; (repeat' split) <;> simp
@[simp] theorem Chip.cntSat_base (c : Chip) (f : F) (i j n : Nat) : (c.cntSat f i j n).base = c.base := by
  unfold Chip.cntSat; (repeat' split) <;> simp
@[simp] theorem Chip.cntWrap_base (c : Chip) (f : F) (i j n : Nat) : (c.cntWrap f i j n).base = c.base := by
  unfold Chip.cntWrap; (repeat' split) <;> simp
@[simp] theorem Chip.cntOvf_base (c : Chip) (f fo : F) (i j n : Nat) : (c.cntOvf f fo i j n).base = c.base := by
  unfold Chip.cntOvf; dsimp only; (repeat' split) <;> simp
@[simp] theorem Chip.stat_base (c : Chip) (p e x n : Nat) : (c.stat p e x n).base = c.base := by
  unfold Chip.stat; dsimp only; (repeat' split) <;> rfl
@[simp] theorem Chip.logErr_base (c : Chip) (m a : Nat) (w : Bool) (k : Nat) : (c.logErr m a w k).base = c.base := by
  unfold Chip.logErr; dsimp only; (repeat' split) <;> simp
@[simp] theorem Chip.stateErr_base (c : Chip) : (c.stateErr).base = c.base := by
  unfold Chip.stateErr; (repeat' split) <;> simp
@[simp] theorem Chip.outcome_base (c : Chip) (st : F) (i j code : Nat) : (c.outcome st i j code).base = c.base := by
  unfold Chip.outcome; (repeat' split) <;> simp
@[simp] theorem Chip.histEntry_base (c : Chip) (f un d : Nat) : (c.histEntry f un d).base = c.base := by
  unfold Chip.histEntry; split
  · rfl
  · dsimp only; rw [Chip.set_base]
    exact Eq.trans (b := Chip.base (if _ then _ else _)) rfl (by rw [apply_ite Chip.base]; simp)
@[simp] theorem Chip.latchFault_base (c : Chip) (f : Nat) : (c.latchFault f).base = c.base := by
  unfold Chip.latchFault; dsimp only; (repeat' split) <;> simp
  exact (Chip.irq_base _ 0 34).trans (by simp)
@[simp] theorem Chip.raiseD_base (c : Chip) (f un d : Nat) : (c.raiseD f un d).base = c.base := by
  unfold Chip.raiseD; dsimp only; split
  · rfl
  · rw [Chip.latchFault_base]; split
    · exact Chip.histEntry_base ..
    · rfl
@[simp] theorem Chip.raise_base (c : Chip) (f un : Nat) : (c.raise f un).base = c.base := by
  unfold Chip.raise; (repeat' split) <;> simp
@[simp] theorem Chip.disc_base (c : Chip) (n k : Nat) : (c.disc n k).base = c.base := by
  unfold Chip.disc; dsimp only; (repeat' split) <;> simp
@[simp] theorem Chip.rxCnt_base (c : Chip) (n i k : Nat) : (c.rxCnt n i k).base = c.base := by
  unfold Chip.rxCnt; (repeat' split) <;> simp
@[simp] theorem Chip.txAbort_base (c : Chip) (n : Nat) : (c.txAbort n).base = c.base := by
  unfold Chip.txAbort; (repeat' split) <;> simp
@[simp] theorem Chip.atrCnt_base (c : Chip) (i n : Nat) : (c.atrCnt i n).base = c.base := by
  unfold Chip.atrCnt; (repeat' split) <;> simp
@[simp] theorem Chip.giveCells_base (c : Chip) (l : List Nat) : (c.giveCells l).base = c.base := by
  unfold Chip.giveCells; (repeat' split) <;> simp
@[simp] theorem Chip.charge_base (c : Chip) (h k n : Nat) : (c.charge h k n).base = c.base := by
  unfold Chip.charge; dsimp only; (repeat' split) <;> simp
@[simp] theorem Chip.uncharge_base (c : Chip) (h k n : Nat) : (c.uncharge h k n).base = c.base := by
  unfold Chip.uncharge; dsimp only; (repeat' split) <;> simp
@[simp] theorem Chip.gc_base (c : Chip) (i : Nat) : (c.gc i).base = c.base := by
  unfold Chip.gc; (repeat' split) <;> simp
@[simp] theorem Chip.freeFrameCells_base (c : Chip) (i : Nat) (f : Frame) : (c.freeFrameCells i f).base = c.base := by
  unfold Chip.freeFrameCells; dsimp only; (repeat' split) <;> simp
@[simp] theorem Chip.release_base (c : Chip) (i : Nat) : (c.release i).base = c.base := by
  unfold Chip.release; (repeat' split) <;> simp
@[simp] theorem Chip.unsample_base (c : Chip) (x : Copy) : (c.unsample x).base = c.base := by
  unfold Chip.unsample; split <;> rfl
@[simp] theorem Chip.dropCopy_base (c : Chip) (n : Nat) (x : Copy) : (c.dropCopy n x).base = c.base := by
  unfold Chip.dropCopy; (repeat' split) <;> simp
@[simp] theorem Chip.dropQueue_base (c : Chip) (n q : Nat) : (c.dropQueue n q).base = c.base := by
  unfold Chip.dropQueue; dsimp only
  rw [foldl_keep Chip.base _ (by intros; simp)]; rfl
@[simp] theorem Chip.dropPortQueues_base (c : Chip) (n : Nat) : (c.dropPortQueues n).base = c.base := by
  unfold Chip.dropPortQueues; rw [foldl_keep Chip.base _ (by intros; simp)]
@[simp] theorem Chip.killFrame_base (c : Chip) (i : Nat) : (c.killFrame i).base = c.base := by
  unfold Chip.killFrame; dsimp only
  refine Eq.trans (b := Chip.base (List.foldl _ _ _)) rfl ?_
  rw [foldl_keep Chip.base _ (by intros; simp)]
  refine Eq.trans (b := Chip.base (List.foldl _ _ _)) rfl ?_
  rw [foldl_keep Chip.base]
  intro c a
  rw [foldl_keep Chip.base _ (by intros; simp)]; simp
@[simp] theorem Chip.leaveVest_base (c : Chip) (i : Nat) : (c.leaveVest i).base = c.base := by
  unfold Chip.leaveVest; (repeat' split) <;> simp
@[simp] theorem Chip.settleVest_base (c : Chip) (i : Nat) : (c.settleVest i).base = c.base := by
  unfold Chip.settleVest; (repeat' split) <;> simp
@[simp] theorem Chip.retireBank_base (c : Chip) (b : Nat) : (c.retireBank b).base = c.base := by
  unfold Chip.retireBank; dsimp only; split
  · rfl
  · rw [Chip.raise_base]; rfl
@[simp] theorem Chip.galCnt_base (c : Chip) (i : Nat) : (c.galCnt i).base = c.base := by
  unfold Chip.galCnt; (repeat' split) <;> simp
@[simp] theorem Chip.setStair_base (c : Chip) (k s : Nat) : (c.setStair k s).base = c.base := by
  unfold Chip.setStair; (repeat' split) <;> simp
@[simp] theorem Chip.setRole_base (c : Chip) : (c.setRole).base = c.base := by
  unfold Chip.setRole; (repeat' split) <;> simp
@[simp] theorem Chip.dropPartial_base (c : Chip) : (c.dropPartial).base = c.base := by
  unfold Chip.dropPartial; split
  · rfl
  · rw [Chip.galCnt_base]; rfl
@[simp] theorem Chip.dropHandover_base (c : Chip) : (c.dropHandover).base = c.base := by
  unfold Chip.dropHandover; split <;> rfl
@[simp] theorem Chip.giveUpBuild_base (c : Chip) : (c.giveUpBuild).base = c.base := rfl
@[simp] theorem Chip.orphan_base (c : Chip) : (c.orphan).base = c.base := by
  unfold Chip.orphan; simp only [Chip.raise_base, Chip.setRole_base, Chip.set_base]
  exact (Chip.dropHandover_base _).trans (Chip.dropPartial_base c)
@[simp] theorem Chip.viewChanged_base (c : Chip) : (c.viewChanged).base = c.base := by
  unfold Chip.viewChanged; dsimp only
  have e : ∀ d : Chip, ∀ g : Gal, Chip.base { d with gal := g } = d.base := fun _ _ => rfl
  (repeat' split) <;> simp only [e, Chip.set_base, Chip.setRole_base, Chip.galCnt_base, Chip.dropPartial_base, Chip.giveUpBuild_base,
    Chip.orphan_base]
theorem Chip.withView_base (c : Chip) (f : Chip → Chip) (h : ∀ d, (f d).base = d.base) : (c.withView f).base = c.base := by
  have e : ∀ d : Chip, ∀ g : Gal, Chip.base { d with gal := g } = d.base := fun _ _ => rfl
  unfold Chip.withView; dsimp only
  (repeat' split) <;> simp only [e, Chip.viewChanged_base, h]
@[simp] theorem Chip.stairLost_base (c : Chip) (k : Nat) : (c.stairLost k).base = c.base := by
  exact Chip.withView_base _ _ (by intros; simp)
@[simp] theorem Chip.galPortDown_base (c : Chip) (n : Nat) : (c.galPortDown n).base = c.base := by
  unfold Chip.galPortDown; (repeat' split) <;> simp
@[simp] theorem Chip.markFenced_base (c : Chip) (k i : Nat) (f : Option Nat) : (c.markFenced k i f).base = c.base := by
  unfold Chip.markFenced; dsimp only; cases f with
  | none => exact Chip.histEntry_base ..
  | some f => exact (Chip.latchFault_base _ _).trans (Chip.histEntry_base ..)
@[simp] theorem Chip.markUnfenced_base (c : Chip) (k i : Nat) : (c.markUnfenced k i).base = c.base := by
  unfold Chip.markUnfenced; split
  · exact Chip.histEntry_base ..
  · rfl
@[simp] theorem Chip.fenceStair_base (c : Chip) (k : Nat) : (c.fenceStair k).base = c.base := by
  unfold Chip.fenceStair; split
  · rfl
  · exact Chip.withView_base _ _ (by intros; simp)
@[simp] theorem Chip.setLane_base (c : Chip) (f : F) (n v : Nat) : (c.setLane f n v).base = c.base := by
  unfold Chip.setLane; (repeat' split) <;> simp
@[simp] theorem Chip.dropLocks_base (c : Chip) (n : Nat) : (c.dropLocks n).base = c.base := by
  unfold Chip.dropLocks; (repeat' split) <;> simp
@[simp] theorem Chip.failFrame_base (c : Chip) (i : Nat) : (c.failFrame i).base = c.base := by
  unfold Chip.failFrame; dsimp only; (repeat' split) <;> simp
@[simp] theorem Chip.cutRx_base (c : Chip) (n : Nat) : (c.cutRx n).base = c.base := by
  unfold Chip.cutRx; dsimp only; cases (c.port n).rx <;> cases (c.port n).rxHeld <;> simp
@[simp] theorem Chip.cutTx_base (c : Chip) (n : Nat) : (c.cutTx n).base = c.base := by
  unfold Chip.cutTx; dsimp only; cases (c.port n).tx <;> cases (c.port n).held <;> simp
@[simp] theorem Chip.leaveUp_base (c : Chip) (n : Nat) (b : Bool) : (c.leaveUp n b).base = c.base := by
  unfold Chip.leaveUp; dsimp only; (repeat' split) <;> simp
@[simp] theorem Chip.enterLink_base (c : Chip) (n s : Nat) : (c.enterLink n s).base = c.base := by
  unfold Chip.enterLink; (repeat' split) <;> simp
@[simp] theorem Chip.goDark_base (c : Chip) (n s : Nat) (b : Bool) : (c.goDark n s b).base = c.base := by
  unfold Chip.goDark; dsimp only; (repeat' split) <;> simp
@[simp] theorem Chip.reacquire_base (c : Chip) (n : Nat) : (c.reacquire n).base = c.base := by
  unfold Chip.reacquire; (repeat' split) <;> simp
@[simp] theorem Chip.fencePort_base (c : Chip) (n : Nat) : (c.fencePort n).base = c.base := by
  unfold Chip.fencePort; dsimp only; (repeat' split) <;> simp
@[simp] theorem Chip.loseHeader_base (c : Chip) (p i : Nat) : (c.loseHeader p i).base = c.base := by
  unfold Chip.loseHeader; dsimp only; (repeat' split) <;> simp
@[simp] theorem Chip.slotAdd_base (c : Chip) (p x n : Nat) : (c.slotAdd p x n).base = c.base := by
  unfold Chip.slotAdd; dsimp only; (repeat' split) <;> simp
@[simp] theorem Chip.slotSeen_base (c : Chip) (p : Nat) : (c.slotSeen p).base = c.base := rfl
@[simp] theorem Chip.slotUsed_base (c : Chip) (p x : Nat) : (c.slotUsed p x).base = c.base := by
  unfold Chip.slotUsed; dsimp only; (repeat' split) <;> simp
@[simp] theorem Chip.fencePipe_base (c : Chip) (p : Nat) : (c.fencePipe p).base = c.base := by
  unfold Chip.fencePipe; dsimp only; split
  · rfl
  · rw [foldl_keep Chip.base _ (by intros; split <;> simp), foldl_keep Chip.base _ (by intros; simp), Chip.setPipe_base,
      Chip.markFenced_base, foldl_keep Chip.base _ (by intros; simp)]
@[simp] theorem Chip.fenceTcam_base (c : Chip) (b : Nat) : (c.fenceTcam b).base = c.base := by
  unfold Chip.fenceTcam; (repeat' split) <;> simp
@[simp] theorem Chip.fenceDma_base (c : Chip) (b : Nat) : (c.fenceDma b).base = c.base := by
  unfold Chip.fenceDma; (repeat' split) <;> simp
@[simp] theorem Chip.selfTests_base (c : Chip) (l : List (Nat × Nat)) : (c.selfTests l).base = c.base := by
  unfold Chip.selfTests; apply foldl_keep Chip.base; intro c a; (repeat' split) <;> simp

@[simp] theorem Chip.setSrc_base (c : Chip) (e k v : Nat) : (c.setSrc e k v).base = c.base := rfl
@[simp] theorem Chip.setSlotSource_base (c : Chip) (e k v : Nat) : (c.setSlotSource e k v).base = c.base := by
  unfold Chip.setSlotSource; (repeat' split) <;> rfl
@[simp] theorem Chip.applySpare_base (c : Chip) (r : Nat) : (c.applySpare r).base = c.base := by
  unfold Chip.applySpare; dsimp only; simp only [Chip.set_base, Chip.setSlotSource_base]; split <;> simp
@[simp] theorem Chip.rebuildSpares_base (c : Chip) : c.rebuildSpares.base = c.base := by
  unfold Chip.rebuildSpares; dsimp only
  rw [foldl_keep Chip.base _ (by intros; simp), foldl_keep Chip.base]
  intro c a; simp only [Chip.unset_base]
@[simp] theorem Chip.injectClear_base (c : Chip) : c.injectClear.base = c.base := rfl
@[simp] theorem State.sense_otp (s : State) : s.sense.otp = s.otp := rfl

/-- Sensing the fuses changes the security block alone among these parts: it takes the array. -/
theorem State.sense_base (s : State) : ∃ n : Nat, s.sense.chip.base =
    Chip.base { s.chip with sec := { s.chip.sec with
      sensed := sensedRows s.otp s.chip.sec.worn, shown := sensedRows s.otp s.chip.sec.worn, idScalar := n } } := by
  refine ⟨if decide (lifecycleOf ((sensedRows s.otp s.chip.sec.worn).get 0 0) = 1 ∨
      lifecycleOf ((sensedRows s.otp s.chip.sec.worn).get 0 0) = 2) then
    (idUnwrap (fun r => (sensedRows s.otp s.chip.sec.worn).get 0 r)).1.getD 0 else 0, ?_⟩
  unfold State.sense; dsimp only
  rw [apply_ite Chip.base, Chip.raise_base, ite_self, foldl_keep Chip.base _ (by intros; simp)]
  simp only [apply_ite Chip.base, Chip.injectClear_base, ite_self]

/-- With no worn row pair the array is sensed as it is. -/
@[simp] theorem sensedRows_nil (o : NMap Nat) : sensedRows o [] = o := by
  unfold sensedRows; simp only [fuseSpoilt, List.any_nil, Bool.false_eq_true, if_false]
  exact foldl_keep id _ (fun _ _ => rfl) _ o

/-! ## What the time unit and the gate lists leave -/

/-- The parts of the chip that the time unit and the gate lists do not touch. -/
def Chip.core (c : Chip) : Img × Ctl × Sec × Mem × Mem × Bool := (c.img, c.ctl, c.sec, c.host, c.flash, c.bus.kgOpen)

theorem Chip.core_iff (c d : Chip) : d.core = c.core ↔
    d.img = c.img ∧ d.ctl = c.ctl ∧ d.sec = c.sec ∧ d.host = c.host ∧ d.flash = c.flash ∧ d.bus.kgOpen = c.bus.kgOpen := by
  unfold Chip.core; simp only [Prod.mk.injEq]

theorem Chip.core_of_base {c d : Chip} (h : d.base = c.base) : d.core = c.core := by
  obtain ⟨h1, h2, h3, -, -, -, h7, h8, h9⟩ := (Chip.base_iff c d).mp h
  exact (Chip.core_iff c d).mpr ⟨h1, h2, h3, h7, h8, h9⟩

@[simp] theorem Chip.core_tim (c : Chip) (x : Tim) : Chip.core { c with tim := x } = c.core := rfl
@[simp] theorem Chip.core_cyc (c : Chip) (x : Cyc) : Chip.core { c with cyc := x } = c.core := rfl
@[simp] theorem Chip.core_pins (c : Chip) (x : Pins) : Chip.core { c with pins := x } = c.core := rfl

@[simp] theorem Chip.set_core (c : Chip) (f : F) (i j v : Nat) : (c.set f i j v).core = c.core := rfl
@[simp] theorem Chip.unset_core (c : Chip) (f : F) (i j : Nat) : (c.unset f i j).core = c.core := rfl
@[simp] theorem Chip.setPort_core (c : Chip) (n : Nat) (p : PortRt) : (c.setPort n p).core = c.core := rfl
@[simp] theorem Chip.irq_core (c : Chip) (n v : Nat) : (c.irq n v).core = c.core := rfl
@[simp] theorem Chip.setEvt_core (c : Chip) (k : Nat) (r : EvtRt) : (c.setEvt k r).core = c.core := rfl
@[simp] theorem Chip.setTout_core (c : Chip) (x : Nat) (b : Bool) : (c.setTout x b).core = c.core := rfl
@[simp] theorem Chip.raise_core (c : Chip) (f un : Nat) : (c.raise f un).core = c.core := Chip.core_of_base (Chip.raise_base c f un)
@[simp] theorem Chip.cntSat_core (c : Chip) (f : F) (i j n : Nat) : (c.cntSat f i j n).core = c.core := by
  unfold Chip.cntSat; (repeat' split) <;> simp
@[simp] theorem Chip.cntWrap_core (c : Chip) (f : F) (i j n : Nat) : (c.cntWrap f i j n).core = c.core := by
  unfold Chip.cntWrap; (repeat' split) <;> simp
@[simp] theorem Chip.gclEnter_core (c : Chip) (n : Nat) (p : GclP) (ps es k : Nat) : (c.gclEnter n p ps es k).core = c.core := by
  unfold Chip.gclEnter; dsimp only; (repeat' split) <;> simp
@[simp] theorem Chip.gclBegin_core (c : Chip) (n : Nat) : (c.gclBegin n).core = c.core := by
  unfold Chip.gclBegin; dsimp only; (repeat' split) <;> simp
@[simp] theorem Chip.gclMovePending_core (c : Chip) (n : Nat) : (c.gclMovePending n).core = c.core := by
  unfold Chip.gclMovePending; dsimp only; (repeat' split) <;> simp
@[simp] theorem Chip.gclRestart_core (c : Chip) (n : Nat) : (c.gclRestart n).core = c.core := by
  unfold Chip.gclRestart; (repeat' split) <;> simp
@[simp] theorem Chip.gclRestartAll_core (c : Chip) : (c.gclRestartAll).core = c.core := by
  unfold Chip.gclRestartAll; exact foldl_keep Chip.core _ (by intros; simp) _ _
@[simp] theorem setSgate_core (c : Chip) (g : Nat) (r : SGateRt) : (setSgate c g r).core = c.core := rfl
@[simp] theorem Chip.sgBegin_core (c : Chip) (g : Nat) : (c.sgBegin g).core = c.core := by
  unfold Chip.sgBegin; dsimp only; (repeat' split) <;> simp
@[simp] theorem Chip.sgRestart_core (c : Chip) : (c.sgRestart).core = c.core := by
  unfold Chip.sgRestart; exact foldl_keep Chip.core _ (by intros; simp) _ _
@[simp] theorem Chip.gateQuiesced_core (c : Chip) (n : Nat) : (c.gateQuiesced n).core = c.core := by
  unfold Chip.gateQuiesced; (repeat' split) <;> simp
@[simp] theorem Chip.gateReleased_core (c : Chip) (n : Nat) : (c.gateReleased n).core = c.core := by
  unfold Chip.gateReleased; (repeat' split) <;> simp
@[simp] theorem Chip.evtArm_core (c : Chip) (k x : Nat) : (c.evtArm k x).core = c.core := by
  unfold Chip.evtArm; dsimp only; (repeat' split) <;> simp
@[simp] theorem Chip.evtAct_core (c : Chip) (k x : Nat) : (c.evtAct k x).core = c.core := by
  unfold Chip.evtAct; split <;> first | rfl | (rw [Chip.setTout_core]; try rfl)
@[simp] theorem Chip.evtFire_core (c : Chip) (k : Nat) : (c.evtFire k).core = c.core := by
  unfold Chip.evtFire; dsimp only
  simp only [apply_ite Chip.core, Chip.setEvt_core, Chip.set_core, Chip.core_tim, Chip.evtAct_core, Chip.irq_core, Chip.cntWrap_core, ite_self]
@[simp] theorem Chip.evtReanchor_core (c : Chip) : (c.evtReanchor).core = c.core := by
  unfold Chip.evtReanchor; apply foldl_keep Chip.core; intro c a; dsimp only; (repeat' split) <;> simp
@[simp] theorem Chip.cycAnchor_core (c : Chip) : (c.cycAnchor).core = c.core := by
  unfold Chip.cycAnchor; dsimp only; split <;> rfl
@[simp] theorem Chip.reanchor_core (c : Chip) : (c.reanchor).core = c.core := by
  unfold Chip.reanchor; (repeat' split) <;> simp
theorem Chip.moveDeadlines_core (c d : Chip) : (Chip.moveDeadlines c d).core = d.core := by
  unfold Chip.moveDeadlines; split <;> rfl
@[simp] theorem Chip.timeQuiesced_core (c : Chip) : (c.timeQuiesced).core = c.core := by
  unfold Chip.timeQuiesced; split <;> rfl
@[simp] theorem Chip.timeReleased_core (c : Chip) : (c.timeReleased).core = c.core := by
  unfold Chip.timeReleased; dsimp only
  simp only [apply_ite Chip.core, Chip.moveDeadlines_core, Chip.reanchor_core, Chip.evtReanchor_core, Chip.sgRestart_core,
    Chip.gclRestartAll_core, Chip.cycAnchor_core, Chip.core_tim, Chip.set_core, ite_self]

end Sys2Proof.Machine
end

