-- ==== Sys2Proof/Tests/Slice0.lean ====
section
/-! SUPPORT. The model's own tests: a refused ill-formed command for each check, the worked examples of the spec, and for every
statement of Certificates/Slice0 a state and operands that meet its hypotheses, clause by clause (witness_<statement>). -/

open Sys2Proof.Machine

namespace Sys2Proof.Tests

set_option maxRecDepth 100000
set_option Elab.async false

/-! ## Small states -/

def wim : Image :=
  { id := 1, rev := 1, slot := 0, nodes := [], carve := (List.range 16).map (fun t => (t, 1024)), sidProf := [], lkp := [], hash := [],
    layouts := (List.range 4).map (fun p => ((p, 0), [])), perEntry := List.replicate 8 32, poolBase := [], portPipe := [], shapeOf := [], shapeQ := [], shapeB := [],
    hallClass := [], classQuota := [] }
def w0 : Chip :=
  { Chip.reset with img := { inForce := some wim, load := none }, pins := { Pins.reset with linkUp := true },
                    ctl := { Ctl.reset with bootDue := false }, bus := { Chip.reset.bus with vfEnable := true } }
def st (c : Chip) : State := { chip := c, otp := [], pending := [] }
def kgc (c : Chip) : Chip := { c with bus := { c.bus with kgOpen := true } }
def kg : Chip := kgc w0
def stp (c : Chip) (d i : Nat) : Chip := { c with ctl := { c.ctl with stopped := insNew (d, i) c.ctl.stopped } }

def wfr : Frame :=
  { port := 95, wire := [2, 0, 0, 0, 0, 1, 2, 0, 0, 0, 0, 2, 8, 0] ++ List.replicate 46 0, data := [2, 0, 0, 0, 0, 1, 2, 0, 0, 0, 0, 2, 8, 0] ++ List.replicate 46 0,
    devT := 0, epoch := 0, ended := true, bad := false, arrived := 60,
    handed := false, staged := false, pipe := 0, hdr := none, hall := 0, charged := 0, cells := [], refs := 0, marked := false,
    learn := none, tsReq := none, ecc := [] }
def whd : Hdr :=
  { pv := [], stack := [], ptpOff := none, lenKnown := true, exc := 0, dlen := 0, whole := true, cls := 0, colour := 0, queue := none, stream := none,
    ent := [], drop := false, trap := 0, noLearn := true, ctDis := false, fwd := 0, target := 0, mirror := 0, hash := 0, discard6 := false }
def wcp : Copy :=
  { fid := 0, kind := 0, reason := 0, cls := 0, colour := 0, dl := none, edit := Edit.plain, sess := 0, out := 0, seqDone := true }
def wtx : Tx :=
  { copy := wcp, bytes := List.replicate 200 0, len := 204, q := 0, svc := 0, express := false, stomp := false, sent := 0, t0 := 0, ts := 0, epoch := 0 }
def up (c : Chip) (n : Nat) : Chip := c.set Fd.PRT_LINK_STATUS_STATE n 0 5
def holds (c : Chip) (f : Frame) : Chip := { c with atr := { c.atr with frames := [(0, f)], nextFid := 1 } }

/-! ## Ill-formed operands -/

theorem test_wf_accepts : Instr.wf (.tcamWrite 33 31 3 7 31 6143) = true := by decide
theorem test_wf_master : Instr.wf (.resetDev 34) = false := by decide
theorem test_wf_hall : Instr.wf (.hallOpen 0 32) = false := by decide
theorem test_wf_port : Instr.wf (.linkUp 96) = false := by decide
theorem test_wf_pipe : Instr.wf (.parkComplete 4) = false := by decide
theorem test_wf_engine : Instr.wf (.swapComplete 8) = false := by decide
theorem test_wf_stair : Instr.wf (.helloTx 32) = false := by decide
theorem test_wf_slot : Instr.wf (.eventSlotFire 256) = false := by decide
theorem test_wf_pair : Instr.wf (.supFrameTx 48) = false := by decide
theorem test_wf_ring : Instr.wf (.ringTailWrite 0 0 32 0) = false := by decide
theorem test_wf_fail : Instr.wf (.auxHoldupExpire [(2, 4)]) = false := by decide
theorem test_wf_shaper : Instr.wf (.shaperRateWrite 0 0 1 8 0) = false := by decide
theorem test_wf_domain : Instr.wf (.qscStop 0 8 0) = false := by decide
theorem test_wf_index : Instr.wf (.resetPort 0 128) = false := by decide
theorem test_wf_frame : Instr.wf (.rxFrameStart 0 (List.replicate 16381 0)) = false := by decide +kernel
theorem test_wf_errLine : Instr.wf (.unitError (.bank 64 true none)) = false := by decide

/-! ## The spec's worked examples -/

/-- 12, "The address map": SCH_57_Q_200_CFG. -/
theorem test_address_of_a_queue : addrOf .SCH_Q_CFG 57 200 = 0x014E4C80 ∧
    decodeAddr Chip.reset 0x014E4C80 = .reg .SCH_Q_CFG 57 200 none := by decide +kernel

/-- 12, the side-band example: a stop of PORT(17), written to 0x0300 as 0x0001_1100. -/
theorem test_sb_write_stops_port_17 :
    (sbWrite { bytes := [0x01, 0x08, 0x00, 0x03, 0x00, 0x00, 0x00, 0x11, 0x01, 0x00], readBytes := 0, stopped := true }
      (st w0)).chip.get Fd.GLB_QSC_CMD_INDEX 0 0 = 17 := by decide +kernel

/-- 12, R369: a pair that holds 0x1_FFFF_FFFE reads its low half, both halves clear, and the high half reads what was latched. -/
theorem test_pair_low_then_high :
    let c1 := busRead 0 (addrOf .CNT_DEV 0 0) 15 { w0 with cnt := w0.cnt.put 0 8 0 0x1FFFFFFFE }
    c1.bus.readData.get 0 0 = 0xFFFFFFFE ∧ c1.cnt.get 0 8 0 = 0 ∧
      (busRead 0 (addrOf .CNT_DEV 0 1) 15 c1).bus.readData.get 0 0 = 1 := by decide +kernel

/-- 01, the fence of pipeline 2: ports 48, 49 and 50 go to pipelines 0, 1 and 3. -/
theorem test_remap_of_a_fenced_pipeline :
    let c (n : Nat) : Chip := { w0 with fenced := [(1, 2)], ports := [(n, { PortRt.init with remapping := true })] }
    [48, 49, 50].map (fun n => (portRemap n (c n)).get Fd.GLB_PORT_PIPE_PIPE n 0) = [0, 1, 3] := by decide +kernel

/-- 03: at 49.8 Hz a ns is 213.889 371 cu; at 60.2 Hz, 4 ms are 0x3DA5_119D cu (rounded). -/
theorem test_cycle_accumulator :
    incOf 49800000 * 10 ^ 6 / 2 ^ 32 = 213889371 ∧ (4000000 * incOf 60200000 + 2 ^ 31) / 2 ^ 32 = 0x3DA5119D := by decide

/-- 04: port 53 is lit by slot 1 of engine 4, with ports 51 and 52. -/
theorem test_port_53_slot : slotOf 53 = 1 ∧ slotPorts 4 1 = [51, 52, 53] := by decide

/-- 04, R139: the group 01-0C-CD-04-00-21 is bin 229, bit 5 of PRT_n_HASH_7. -/
theorem test_hash_filter_bin_229 :
    let c : Chip := (w0.set Fd.PRT_MAC_CTRL_GRP_FILTER 3 0 1).set Fd.PRT_HASH_BINS 3 7 32
    c.filtered 3 [0x01, 0x0C, 0xCD, 0x04, 0x00, 0x21] = false ∧
      c.filtered 3 [0x01, 0x0C, 0xCD, 0x01, 0x00, 0x07] = true := by decide +kernel

/-- 05: CIR 2 000 kbit/s, CBS 3 000; 0.064 B of credit at 256 ns is 375.0 B at 1 500 000 ns, and 300 of them go. -/
theorem test_meter_recovers :
    let ws := (meter [2000, 0, 3000 * 256, 0, 3000 * 65536, 0, 0, 0] 3000 0 0).2
    (meter ws 300 0 256).1 = 2 ∧ (meter ws 300 0 1500000).1 = 0 ∧ (meter ws 300 0 1500000).2.getD 4 0 / 65536 = 75 := by
  decide

/-- 05, R188: hash 0x9C3A_51E7, BASE 0x0400 and SIZE_LOG2 3 select entry 0x0407, or 0x0400 when that one is invalid. -/
theorem test_indirection_entry :
    let c : Chip := w0.set Fd.TBL_HASHIND_VALID 1 0x400 1
    (c.set Fd.TBL_HASHIND_VALID 1 0x407 1).hashEntry 1 0x400 8 (0x9C3A51E7 % 8) = some 0x407 ∧
      c.hashEntry 1 0x400 8 (0x9C3A51E7 % 8) = some 0x400 := by decide +kernel

/-- 07, R231: LAST_SEQ 0xFFF8 and sequence 5: accepted, the bitmap moves by 13; the twin of 0xFFF8 is then a duplicate. -/
theorem test_sequence_window_wraps :
    let j := judgeSeq false 64 5 [0xFFF8, 0, 0, 0, 1, 0, 0, 0]
    j.accept = true ∧ wb j.ws 0 15 0 = 5 ∧ j.ws.getD 4 0 = 2 ^ 13 + 1 ∧
      (judgeSeq false 64 0xFFF8 j.ws).dup = true := by decide

/-- 08: bank 22 retired leaves 387 072 cells; cell 53 is a donor, 5, 21 and 37 are kept. -/
theorem test_bank_22_retired :
    let c := w0.retireBank 22
    c.get Fd.ATR_STATUS_FREE 0 0 = 387072 ∧ [5, 21, 37, 53].map c.donor = [false, false, false, true] := by decide +kernel

/-- 08: with F = 184 320, ALPHA 3 and YSHIFT 1, green has 184 320 and yellow 92 160. -/
theorem test_dynamic_threshold :
    let c : Chip := (w0.set Fd.ATR_CLASS_CFG_ALPHA 1 0 3).set Fd.ATR_CLASS_CFG_YSHIFT 1 0 1
    c.queueLimit 184320 1 0 = 184320 ∧ c.queueLimit 184320 1 1 = 92160 := by decide +kernel

/-- 08, R261: s = 1 234 at 4 800/s, 257 400 000 ns into a second, budget 2 000 000 ns: the deadline is 259 083 334 ns; and
s = 4 799 at 40 000 ns: 1 791 667 ns. -/
theorem test_fixed_rate_deadlines :
    let h : Hdr := { whd with stream := some 0, ent := List.replicate 14 0 ++ [2 ^ 25] }
    let at_ (s t : Nat) : Deadline :=
      let h := { h with pv := List.replicate 46 0 ++ beBytes 2 s }
      let i : InRef := { t := t * 2 ^ 48, acc := 0, freq := 50000000 }
      w0.deadline h (w0.dlRef h i).1 i 6
    at_ 1234 3257400000 = .ns 3259083334 ∧ at_ 4799 3000040000 = .ns 3001791667 := by decide +kernel

/-- 09, R291: a service with RATE_KBPS 20 000 000 gains 160 bytes a refill, from −1 538 B to −1 378 B. -/
theorem test_shaper_refill :
    let c : Chip := ((w0.set Fd.SCH_SVC_RATE_RATE_KBPS 9 5 20000000).setCredit 9 1 5 (-1538000000))
    (c.refillNode 9 1 5).credit 9 1 5 = -1378000000 := by decide +kernel

/-- FIPS 180-4: SHA-384 of "abc". -/
theorem test_sha384_abc : beNat (sha384 [0x61, 0x62, 0x63]) =
    0xcb00753f45a35e8bb5a03d699ac65007272c32ab0eded1631a8b605a43ff5bed8086072ba1e7cc2358baeca134c825a7 := by decide +kernel

/-- RFC 3720: CRC-32C of "123456789". -/
theorem test_crc32c : crc32c 0xFFFFFFFF [0x31, 0x32, 0x33, 0x34, 0x35, 0x36, 0x37, 0x38, 0x39] = 0xE3069283 := by decide

/-- A refused write leaves its register and is logged with its kind: BULK of R365 with a byte enable missing. -/
theorem test_narrow_write_is_refused :
    let c := (busWrite 0 (addrOf .GLB_QSC_TIMEOUT 0 0) 3 7 w0)
    c.get Fd.GLB_QSC_TIMEOUT_TIMEOUT_US 0 0 = 1000 ∧ c.get Fd.GLB_ACCESS_ERR_KIND 0 0 = 1 := by decide +kernel

/-- R431: a receive copy that a fenced engine had begun: its descriptor is consumed, the copy gone. -/
theorem test_fenced_transfer :
    let c := { holds (w0.set Fd.HAL_RING_CTRL_EN 31 31 1) { wfr with refs := 1 } with
      atr := { (holds w0 { wfr with refs := 1 }).atr with queues := [((159, 15), [wcp])] }, host := [(8, 0xFF#8)] }
    (c.completeFenced 31 31).queue 159 15 = [] ∧ (c.completeFenced 31 31).get Fd.HAL_RING_HEAD_HEAD 31 31 = 1 := by decide +kernel

/-! ## Hypotheses met: by hand -/

theorem witness_StepRunsTheFrontCommand : ∃ (s : State) (i : Instr) (rest : List Instr), s.pending = i :: rest :=
  ⟨{ st w0 with pending := [.boot] }, .boot, [], rfl⟩

theorem witness_EmptyQueueIsOneClockEdge :
    (∃ s : State, s.pending = [] ∧ s.chip.pins.auxGood = true ∧ s.chip.pins.resetN = true) ∧
    (∃ s : State, s.pending = [] ∧ (s.chip.pins.auxGood = false ∨ s.chip.pins.resetN = false)) :=
  ⟨⟨st w0, by decide +kernel⟩,
   ⟨st { w0 with pins := { w0.pins with resetN := false } }, by decide +kernel⟩⟩

theorem witness_EveryStepKeepsTheFuses :
    ∃ s t : State, Otp.wf s.otp = true ∧ Sys2Proof.Machine.step s = .next t :=
  ⟨{ chip := w0, otp := [(3, 5)], pending := [.fuseBurnComplete []] }, _, by decide +kernel, rfl⟩

theorem witness_OnlyBurnsChangeTheFuses :
    ∃ (i : Instr) (s t : State), Sys2Proof.Machine.exec i s = .next t ∧ (∀ l, i ≠ .fuseBurnComplete l) ∧ i ≠ .ceOpComplete ∧
      (∀ e, i ≠ .swapComplete e) ∧ i ≠ .intlkOpen :=
  ⟨.boot, State.reset, _, rfl, by intro l; simp, by simp, by intro e; simp, by simp⟩

/-! ### An image that the loader takes: 3 040 bytes, signed -/

def imageBytes : List Nat :=
  beBytes 5 0x4757534901 ++ (List.replicate 5 0 ++ (beBytes 14 0xbe0000700f00000000100000001 ++ (List.replicate 8 0 ++ (beBytes 48 0xaa87ca22be8b05378eb1c71ef320ad746e1d3b628ba79b9859f741e082542a385502f25dbf55296c3a545e3872760ab7 ++ (beBytes 48 0x3617de4a96262c6f5d9e98bf9292dc29f8f41dbd289a147ce9da3113b5f0b8c00a60b1ce1d7e819d7a431d7c90ea0e5f ++ (List.replicate 1 0 ++ (beBytes 1 0x1 ++ (List.replicate 4 0 ++ (beBytes 1 0x1 ++ (List.replicate 4 0 ++ (beBytes 1 0x80 ++ (List.replicate 5 0 ++ (beBytes 1 0x2 ++ (List.replicate 4 0 ++ (beBytes 6 0x18000000020 ++ (List.replicate 5 0 ++ (beBytes 1 0x3 ++ (List.replicate 4 0 ++ (beBytes 6 0x1c0000005a4 ++ (List.replicate 5 0 ++ (beBytes 1 0x4 ++ (List.replicate 4 0 ++ (beBytes 6 0x78000000028 ++ (List.replicate 5 0 ++ (beBytes 1 0x5 ++ (List.replicate 4 0 ++ (beBytes 6 0x7c000000060 ++ (List.replicate 5 0 ++ (beBytes 1 0x6 ++ (List.replicate 4 0 ++ (beBytes 6 0x840000002a4 ++ (List.replicate 5 0 ++ (beBytes 1 0x7 ++ (List.replicate 4 0 ++ (beBytes 1 0xb ++ (List.replicate 4 0 ++ (beBytes 1 0x54 ++ (List.replicate 149 0 ++ (beBytes 1 0x8 ++ (List.replicate 8 0 ++ (beBytes 1 0x60 ++ (List.replicate 6 0 ++ (beBytes 9 0x90000000c00000001 ++ (List.replicate 1518 0 ++ (beBytes 1 0x1 ++ (List.replicate 7 0 ++ (beBytes 1 0x2 ++ (List.replicate 7 0 ++ (beBytes 1 0x3 ++ (List.replicate 7 0 ++ (beBytes 1 0x4 ++ (List.replicate 159 0 ++ (beBytes 1 0x1 ++ (List.replicate 703 0 ++ (beBytes 1 0x1 ++ (List.replicate 127 0 ++ (beBytes 48 0x8d999057ba3d2d969260045c55b97f089025959a6f434d651d207d19fb96e9e4fe0e86ebe0e64f85b96a9c75295df61 ++ (beBytes 48 0xa9ab29e39fd8a7f6634725a0296d2b001a0cf865e03b263aa2c161c9c144af6c1c79b9a5f43600f0fc4886acd0797687))))))))))))))))))))))))))))))))))))))))))))))))))))))))))
def loadOf (hdr : Bool) : Load :=
  { src := 2, rest := [], byReset := true, addr := 0, len := 3040, cells := 0, hdrOk := hdr,
    staged := if hdr then imageBytes.take 240 else [], ready := none }
def loadingChip (hdr : Bool) : Chip :=
  { Chip.reset with
    host := Mem.write hostBlank [] 0 imageBytes, img := { inForce := none, load := some (loadOf hdr) } }
theorem w_imageBytesOk : imageBytes.length = 3040 ∧ ∀ b ∈ imageBytes, b < 256 := by decide +kernel
theorem w_source (hdr : Bool) (n : Nat) (hn : n ≤ 3040) : (loadingChip hdr).source 2 0 0 n = imageBytes.take n :=
  Mem.read_write _ _ _ _ _ w_imageBytesOk.2 (by rw [w_imageBytesOk.1]; exact hn)
theorem w_headerPasses : (loadingChip false).headerFail (loadOf false) true (imageBytes.take 640) = none := by decide +kernel
theorem w_imageLength : beAt (imageBytes.take 240) 8 4 = 3040 := by decide +kernel
theorem w_digest : beNat (sha384 (imageBytes.take 2944)) = 0x4a7cbac1c40d7d135d684afa8d7ebe0fab1797721982179f2c4d6e3fee98c25a90f87d2ae1acf56eb00e4a278197e43a := by decide +kernel
theorem w_signature : imgPubkey imageBytes = (p384.gx, p384.gy) ∧ beAt imageBytes 2944 48 = 0x08d999057ba3d2d969260045c55b97f089025959a6f434d651d207d19fb96e9e4fe0e86ebe0e64f85b96a9c75295df61 ∧ beAt imageBytes 2992 48 = 0xa9ab29e39fd8a7f6634725a0296d2b001a0cf865e03b263aa2c161c9c144af6c1c79b9a5f43600f0fc4886acd0797687 := by decide +kernel
theorem w_verifies : ecdsaVerify p384 p384.gx p384.gy 0x4a7cbac1c40d7d135d684afa8d7ebe0fab1797721982179f2c4d6e3fee98c25a90f87d2ae1acf56eb00e4a278197e43a 0x08d999057ba3d2d969260045c55b97f089025959a6f434d651d207d19fb96e9e4fe0e86ebe0e64f85b96a9c75295df61 0xa9ab29e39fd8a7f6634725a0296d2b001a0cf865e03b263aa2c161c9c144af6c1c79b9a5f43600f0fc4886acd0797687 = true := by decide +kernel
theorem w_contentsOk : contentsOk imageBytes = true := by decide +kernel
theorem w_bodyOk : bodyFail 2 true true imageBytes = none := by
  simp [bodyFail, w_imageBytesOk.1, w_digest, w_signature.1, w_signature.2.1, w_signature.2.2, w_verifies, w_contentsOk]
theorem w_staged :
    (loadOf true).staged ++ (loadingChip true).source 2 0 (loadOf true).staged.length
      (beAt (loadOf true).staged 8 4 - (loadOf true).staged.length) = imageBytes := by
  have h : (imageBytes.take 240).length = 240 := by rw [List.length_take, w_imageBytesOk.1]; rfl
  show imageBytes.take 240 ++ (loadingChip true).source 2 0 (imageBytes.take 240).length (beAt (imageBytes.take 240) 8 4 - (imageBytes.take 240).length) = _
  rw [h, w_imageLength, ← w_source true 240 (by omega)]
  have e : (loadingChip true).source 2 0 0 240 ++ (loadingChip true).source 2 0 240 2800 = (loadingChip true).source 2 0 0 3040 :=
    Mem.read_append _ _ _ _ _
  rw [e, w_source true 3040 (by omega), List.take_of_length_le (Nat.le_of_eq w_imageBytesOk.1)]

theorem witness_LoaderKeepsTheImageInForce :
    (∃ (s : State) (l : Load) (readOk : Bool) (hd : List Nat), s.chip.img.load = some l ∧
      hd = s.chip.source l.src l.addr 0 640 ∧ l.hdrOk = false ∧ s.chip.headerFail l readOk hd = none) ∧
    (∃ (s : State) (l : Load) (readOk eccOk : Bool) (d : List Nat), s.chip.img.load = some l ∧
      d = l.staged ++ s.chip.source l.src l.addr l.staged.length (beAt l.staged 8 4 - l.staged.length) ∧
      l.hdrOk = true ∧ l.ready = none ∧ bodyFail l.src readOk eccOk d = none) :=
  ⟨⟨st (loadingChip false), loadOf false, true, imageBytes.take 640, rfl, (w_source false 640 (by omega)).symm, rfl, w_headerPasses⟩,
   ⟨st (loadingChip true), loadOf true, true, true, imageBytes, rfl, w_staged.symm, rfl, rfl, w_bodyOk⟩⟩

/-! ## Hypotheses met: clause by clause -/

theorem witness_LoaderKeepsTheImageInForce_failing :
    (∃ (s : State) (l : Load) (readOk : Bool) (hd : List Nat) (d : List Nat) (x : Nat × Nat), s.chip.img.load = some l ∧ hd =
      s.chip.source l.src l.addr 0 640 ∧ d = l.staged ++ s.chip.source l.src l.addr l.staged.length (beAt l.staged 8 4 -
      l.staged.length) ∧ l.hdrOk = false ∧ s.chip.headerFail l readOk hd = some x) ∧
    (∃ (s : State) (l : Load) (readOk : Bool) (eccOk : Bool) (hd : List Nat) (d : List Nat) (x : Nat × Nat), s.chip.img.load = some
      l ∧ hd = s.chip.source l.src l.addr 0 640 ∧ d = l.staged ++ s.chip.source l.src l.addr l.staged.length (beAt l.staged 8 4
      - l.staged.length) ∧ l.hdrOk = true ∧ l.ready = none ∧ bodyFail l.src readOk eccOk d = some x) ∧
    (∃ (s : State) (l : Load) (hd : List Nat) (d : List Nat), s.chip.img.load = some l ∧ hd = s.chip.source l.src l.addr 0 640 ∧ d =
      l.staged ++ s.chip.source l.src l.addr l.staged.length (beAt l.staged 8 4 - l.staged.length) ∧ l.ready = none) :=
  ⟨⟨st
    ({ w0 with img := { inForce := some wim, load := some { src := 2, rest := [], byReset := true, addr := 0, len := 0, cells := 0, hdrOk := false, staged := [], ready := none } } }),
    { src := 2, rest := [], byReset := true, addr := 0, len := 0, cells := 0, hdrOk := false, staged := [], ready := none },
    false,
    (({ w0 with img := { inForce := some wim, load := some { src := 2, rest := [], byReset := true, addr := 0, len := 0, cells := 0, hdrOk := false, staged := [], ready := none } } }
    : Chip).source 2 0 0 640), [], (0x0C, 10), by decide +kernel⟩,
   ⟨st
    ({ w0 with img := { inForce := some wim, load := some { src := 2, rest := [], byReset := true, addr := 0, len := 0, cells := 0, hdrOk := true, staged := [], ready := none } } }),
    { src := 2, rest := [], byReset := true, addr := 0, len := 0, cells := 0, hdrOk := true, staged := [], ready := none },
    false, true,
    (({ w0 with img := { inForce := some wim, load := some { src := 2, rest := [], byReset := true, addr := 0, len := 0, cells := 0, hdrOk := true, staged := [], ready := none } } }
    : Chip).source 2 0 0 640), [], (0x0C, 10), by decide +kernel⟩,
   ⟨st
    ({ w0 with img := { inForce := some wim, load := some { src := 2, rest := [], byReset := true, addr := 0, len := 0, cells := 0, hdrOk := true, staged := [], ready := none } } }),
    { src := 2, rest := [], byReset := true, addr := 0, len := 0, cells := 0, hdrOk := true, staged := [], ready := none },
    (({ w0 with img := { inForce := some wim, load := some { src := 2, rest := [], byReset := true, addr := 0, len := 0, cells := 0, hdrOk := true, staged := [], ready := none } } }
    : Chip).source 2 0 0 640), [], by decide +kernel⟩⟩

theorem witness_PowerOnResets :
    (∃ (s : State), s.chip.pins.auxGood = false) ∧
    (∃ (s : State), s.chip.pins.holdup = true) :=
  ⟨⟨st ({ w0 with pins := { w0.pins with auxGood := false } }), by decide +kernel⟩,
   ⟨st ({ w0 with pins := { w0.pins with holdup := true } }), by decide +kernel⟩⟩

theorem witness_RailsPinsAndHostLink :
    (∃ (s : State), s.chip.pins.auxGood = true) ∧
    (∃ (s : State), s.chip.ctl.standby = false ∧ s.chip.pins.auxGood = true ∧ s.chip.pins.pwrGood = true) ∧
    (∃ (s : State), s.chip.pins.pwrEn = true ∧ s.chip.pins.auxGood = true ∧ s.chip.pins.vin48 = true ∧ s.chip.ctl.standby = false ∧
      s.chip.pins.pwrGood = false ∧ s.chip.pins.resetN = true) ∧
    (∃ (s : State), s.chip.ctl.standby = true ∧ s.chip.pins.auxGood = true ∧ s.chip.pins.pwrEn = false ∧ s.chip.standbyBarred =
      false) ∧
    (∃ (s : State) (n : Nat), 2000 ≤ n ∧ s.chip.pins.auxGood = true) ∧
    (∃ (n : Nat), n < 2000) ∧
    (∃ (s : State), s.chip.pins.resetN = false) ∧
    (∃ (s : State), s.chip.running = true) ∧
    (∃ (s : State), s.chip.pins.linkUp = true ∧ s.chip.safe = false) ∧
    (∃ (s : State), s.chip.pins.perstN = true ∧ s.chip.running = true) :=
  ⟨⟨st w0, by decide +kernel⟩,
   ⟨st w0, by decide +kernel⟩,
   ⟨st ({ w0 with pins := { w0.pins with pwrGood := false } }), by decide +kernel⟩,
   ⟨st ({ w0 with ctl := { w0.ctl with standby := true }, pins := { w0.pins with pwrEn := false } }), by decide +kernel⟩,
   ⟨st (w0), 2000, by decide +kernel⟩,
   ⟨1999, by decide +kernel⟩,
   ⟨st ({ w0 with pins := { w0.pins with resetN := false } }), by decide +kernel⟩,
   ⟨st w0, by decide +kernel⟩,
   ⟨st w0, by decide +kernel⟩,
   ⟨st w0, by decide +kernel⟩⟩

theorem witness_BootAndImageApply :
    (∃ (s : State), s.chip.ctl.bootDue = true ∧ s.chip.running = true ∧ (s.chip.pins.bootSrc = 0 ∨ s.chip.pins.bootSrc = 1 ∨
      (s.chip.pins.bootSrc = 3 ∧ s.chip.lifecycle = 2))) ∧
    (∃ (s : State), s.chip.ctl.bootDue = true ∧ s.chip.running = true ∧ (s.chip.pins.bootSrc = 2 ∨ (s.chip.pins.bootSrc = 3 ∧
      s.chip.lifecycle ≠ 2)) ∧ s.chip.safe = false) ∧
    (∃ (s : State) (l : Load) (im : Image), s.chip.img.load = some l ∧ l.ready = some im) :=
  ⟨⟨st (Chip.reset), by decide +kernel⟩,
   ⟨st ({ Chip.reset with pins := { Pins.reset with bootSrc := 3 } }), by decide +kernel⟩,
   ⟨st
    ({ w0 with img := { inForce := some wim, load := some { src := 2, rest := [], byReset := true, addr := 0, len := 0, cells := 0, hdrOk := true, staged := [], ready := some wim } } }),
    { src := 2, rest := [], byReset := true, addr := 0, len := 0, cells := 0, hdrOk := true, staged := [], ready := some wim },
    wim, by decide +kernel⟩⟩


theorem witness_ResetCommandsStart :
    (∃ (s : State) (m : Nat), s.chip.serves m (viaOf m) .GLB_RESET 0 0 = true ∧ s.chip.bus.kgOpen = true) ∧
    (∃ (s : State) (m : Nat) (src : Nat) (rest : List Nat), s.chip.serves m (viaOf m) .GLB_RESET 0 0 = true ∧ s.chip.bus.kgOpen =
      true ∧ s.chip.get Fd.GLB_RESET_STATUS 0 0 ≠ sBUSY ∧ s.chip.stopped 6 0 = true ∧ s.chip.structSources m = src :: rest ∧
      (src = 2 → m < 32 ∧ s.chip.get Fd.GLB_IMG_ADDR_LO_ADDR 0 0 % 16 = 0)) ∧
    (∃ (s : State) (m : Nat) (x : Nat), s.chip.serves m (viaOf m) .GLB_RESET 0 0 = true ∧ s.chip.bus.kgOpen = true ∧ s.chip.get
      Fd.GLB_RESET_STATUS 0 0 ≠ sBUSY ∧ x < 32 ∧ s.chip.hallPresent x = true ∧ s.chip.quiesced 5 x = true) ∧
    (∃ (s : State) (m : Nat) (x : Nat), s.chip.serves m (viaOf m) .GLB_RESET 0 0 = true ∧ s.chip.bus.kgOpen = true ∧ s.chip.get
      Fd.GLB_RESET_STATUS 0 0 ≠ sBUSY ∧ x < 4 ∧ s.chip.quiesced 1 x = true) ∧
    (∃ (s : State) (m : Nat) (x : Nat), s.chip.serves m (viaOf m) .GLB_RESET 0 0 = true ∧ s.chip.bus.kgOpen = true ∧ s.chip.get
      Fd.GLB_RESET_STATUS 0 0 ≠ sBUSY ∧ x < 96 ∧ s.chip.quiesced 0 x = true) :=
  ⟨⟨st (kg), 33, by decide +kernel⟩,
   ⟨st (stp kg 6 0), 0, 0, [1], by decide +kernel⟩,
   ⟨st (stp kg 5 31), 0, 31, by decide +kernel⟩,
   ⟨st (stp kg 1 3), 0, 3, by decide +kernel⟩,
   ⟨st (stp kg 0 95), 0, 95, by decide +kernel⟩⟩

theorem witness_ResetsNeedQuiesceAndEnd :
    (∃ (s : State) (m : Nat), s.chip.serves m (viaOf m) .GLB_RESET 0 0 = true ∧ s.chip.bus.kgOpen = false ∧ s.chip.ctl.rst = none) ∧
    (∃ (s : State) (m : Nat) (x : Nat), s.chip.serves m (viaOf m) .GLB_RESET 0 0 = true ∧ s.chip.bus.kgOpen = true ∧ s.chip.get
      Fd.GLB_RESET_STATUS 0 0 ≠ sBUSY ∧ x < 4 ∧ s.chip.quiesced 1 x = false) ∧
    (∃ (s : State), s.chip.ctl.rst = some (1, 0)) ∧
    (∃ (s : State) (n : Nat), s.chip.ctl.rst = some (5, n) ∧ (s.chip.isFenced 0 n && s.chip.portDead n) = false) ∧
    (∃ (s : State) (h : Nat), (h, 0) ∈ s.chip.ctl.hallResets ∧ s.chip.hallQuiet h = true ∧ s.chip.ctl.rst = some (3, h)) :=
  ⟨⟨st w0, 0, by decide +kernel⟩,
   ⟨st (kg), 0, 3, by decide +kernel⟩,
   ⟨st ({ w0 with ctl := { w0.ctl with rst := some (1, 0) } }), by decide +kernel⟩,
   ⟨st ({ w0 with ctl := { w0.ctl with rst := some (5, 95) } }), 95, by decide +kernel⟩,
   ⟨st ({ w0 with ctl := { w0.ctl with rst := some (3, 31), hallResets := [(31, 0)] } }), 31, by decide +kernel⟩⟩

theorem witness_PipeResetSelfTest :
    ∃ (s : State) (p : Nat), s.chip.ctl.rst = some (4, p) ∧ s.chip.isFenced 1 p = true :=
  ⟨st ({ w0 with ctl := { w0.ctl with rst := some (4, 3) }, fenced := [(1, 3)] }), 3, by decide +kernel⟩

theorem witness_QuiesceAndRelease :
    (∃ (s : State) (m : Nat) (d : Nat) (x : Nat), s.chip.serves m (viaOf m) .GLB_QSC_CMD 0 0 = true ∧ s.chip.get
      Fd.GLB_QSC_CMD_STATUS 0 0 ≠ sBUSY ∧ qscInRange d (qscIndex d x) = true ∧ s.chip.stopped d (qscIndex d x) = false ∧
      s.chip.quiesced d (qscIndex d x) = false) ∧
    (∃ (s : State) (m : Nat) (d : Nat) (x : Nat), s.chip.serves m (viaOf m) .GLB_QSC_CMD 0 0 = true ∧ s.chip.get
      Fd.GLB_QSC_CMD_STATUS 0 0 ≠ sBUSY ∧ qscInRange d (qscIndex d x) = true ∧ s.chip.loading = true ∧ (d = 0 ∨ d = 1 →
      s.chip.isFenced d (qscIndex d x) = false)) ∧
    (∃ (s : State) (m : Nat) (d : Nat) (x : Nat), s.chip.serves m (viaOf m) .GLB_QSC_CMD 0 0 = true ∧ s.chip.get
      Fd.GLB_QSC_CMD_STATUS 0 0 ≠ sBUSY ∧ qscInRange d (qscIndex d x) = true ∧ (d, qscIndex d x) ∈ s.chip.ctl.stopped ∧
      s.chip.img.inForce.isSome = true ∧ s.chip.loading = false ∧ (d ≠ 6 → s.chip.stopped 6 0 = false) ∧ (d = 2 → (0, qscIndex d
      x) ∉ s.chip.ctl.stopped) ∧ (d = 0 ∨ d = 1 → s.chip.isFenced d (qscIndex d x) = false)) ∧
    (∃ (s : State) (q : QscRun), s.chip.ctl.qsc = some q ∧ s.chip.quiet q.dom q.idx = true) ∧
    (∃ (s : State) (q : QscRun), s.chip.ctl.qsc = some q ∧ s.chip.quiet q.dom q.idx = false) ∧
    (∃ (s : State) (q : QscRun), s.chip.ctl.qsc = some q) :=
  ⟨⟨st (w0), 32, 0, 95, by decide +kernel⟩,
   ⟨st (stp
    ({ w0 with img := { inForce := some wim, load := some { src := 2, rest := [], byReset := true, addr := 0, len := 0, cells := 0, hdrOk := false, staged := [], ready := none } } })
    0 95), 0, 0, 95, by decide +kernel⟩,
   ⟨st (stp w0 0 95), 0, 0, 95, by decide +kernel⟩,
   ⟨st ({ w0 with ctl := { w0.ctl with qsc := some { dom := 1, idx := 3 } } }), { dom := 1, idx := 3 }, by decide +kernel⟩,
   ⟨st ({ w0.setPipe 3 { PipeRt.init with buf := [0] } with ctl := { w0.ctl with qsc := some { dom := 1, idx := 3 } } }),
    { dom := 1, idx := 3 }, by decide +kernel⟩,
   ⟨st ({ w0.setPipe 3 { PipeRt.init with buf := [0] } with ctl := { w0.ctl with qsc := some { dom := 1, idx := 3 } } }),
    { dom := 1, idx := 3 }, by decide +kernel⟩⟩

theorem witness_ContainedDomains :
    (∃ (s : State) (m : Nat) (d : Nat) (x : Nat), s.chip.serves m (viaOf m) .GLB_QSC_CMD 0 0 = true ∧ s.chip.get
      Fd.GLB_QSC_CMD_STATUS 0 0 ≠ sBUSY ∧ qscInRange d (qscIndex d x) = true ∧ ((6, 0) ∈ s.chip.ctl.stopped ∨ (d = 2 ∧ (0,
      qscIndex d x) ∈ s.chip.ctl.stopped))) ∧
    (∃ (s : State) (m : Nat) (d : Nat) (x : Nat), s.chip.serves m (viaOf m) .GLB_QSC_CMD 0 0 = true ∧ s.chip.get
      Fd.GLB_QSC_CMD_STATUS 0 0 ≠ sBUSY ∧ qscInRange d (qscIndex d x) = true ∧ ¬ ((d = 0 ∨ d = 1) ∧ s.chip.isFenced d (qscIndex
      d x) = true) ∧ (((6, 0) ∈ s.chip.ctl.stopped ∧ d ≠ 6) ∨ (d = 2 ∧ (0, qscIndex d x) ∈ s.chip.ctl.stopped))) :=
  ⟨⟨st (stp w0 0 95), 0, 2, 95, by decide +kernel⟩,
   ⟨st (stp w0 6 0), 0, 5, 31, by decide +kernel⟩⟩

theorem witness_LowPower :
    (∃ (s : State) (m : Nat) (p : Nat), s.chip.serves m (viaOf m) .GLB_PWR_CTRL 0 0 = true ∧ s.chip.get Fd.GLB_PWR_CTRL_STATUS 0 0 ≠
      sBUSY ∧ p < 4 ∧ bitOf (s.chip.get Fd.GLB_PWR_CTRL_PARK 0 0) p = false ∧ (∀ n, n < 96 → s.chip.portPipe n ≠ p)) ∧
    (∃ (s : State) (m : Nat) (p : Nat), s.chip.serves m (viaOf m) .GLB_PWR_CTRL 0 0 = true ∧ s.chip.get Fd.GLB_PWR_CTRL_STATUS 0 0 ≠
      sBUSY ∧ p < 4 ∧ bitOf (s.chip.get Fd.GLB_PWR_CTRL_PARK 0 0) p = true ∧ s.chip.parked p = true) ∧
    (∃ (s : State) (m : Nat), s.chip.serves m (viaOf m) .GLB_PWR_CTRL 0 0 = true ∧ s.chip.get Fd.GLB_PWR_CTRL_STEP_EN 0 0 = 1) ∧
    (∃ (s : State) (m : Nat), s.chip.serves m (viaOf m) .GLB_PWR_CTRL 0 0 = true ∧ s.chip.get Fd.GLB_PWR_CTRL_STATUS 0 0 ≠ sBUSY ∧
      s.chip.bus.kgOpen = true) ∧
    (∃ (s : State) (p : Nat), p ∈ s.chip.ctl.parking ∧ s.chip.quiet 1 p = true ∧ p < 4) ∧
    (∃ (s : State), s.chip.get Fd.GLB_PWR_CTRL_STEP_EN 0 0 = 1 ∧ s.chip.running = true ∧ s.chip.throttled = false ∧ s.chip.loadHigh
      = true) ∧
    (∃ (s : State), s.chip.loadHigh = false) ∧
    (∃ (s : State), s.chip.get Fd.GLB_PWR_CTRL_STEP_EN 0 0 = 1 ∧ s.chip.running = true ∧ s.chip.throttled = false ∧ s.chip.loadLow =
      true ∧ s.chip.tim.step < s.chip.get Fd.GLB_PWR_CTRL_STEP_FLOOR 0 0) ∧
    (∃ (s : State), s.chip.loadLow = false) ∧
    (∃ (s : State) (v : Word), s.chip.ctl.standby = true ∧ s.chip.pins.auxGood = true ∧ s.chip.priv mSB = true ∧ s.chip.bus.kgOpen =
      true ∧ bitOf v.toNat 1 = false ∧ s.chip.standbyBarred = false) :=
  ⟨⟨st (w0), 0, 3, by decide +kernel⟩,
   ⟨st ((w0.set Fd.GLB_PWR_CTRL_PARK 0 0 8).set Fd.GLB_PWR_CTRL_PARKED 0 0 8), 0, 3, by decide +kernel⟩,
   ⟨st w0, 0, by decide +kernel⟩,
   ⟨st (kg), 0, by decide +kernel⟩,
   ⟨st ({ w0 with ctl := { w0.ctl with parking := [3] } }), 3, by decide +kernel⟩,
   ⟨st ((w0.set Fd.GLB_PWR_CTRL_STEP_EN 0 0 1).setPipe 0 { PipeRt.init with used := [(0, 1000000)] }), by decide +kernel⟩,
   ⟨st (w0), by decide +kernel⟩,
   ⟨st
    ({ (w0.set Fd.GLB_PWR_CTRL_STEP_EN 0 0 1).set Fd.GLB_PWR_CTRL_STEP_FLOOR 0 0 2 with tim := { w0.tim with step := 1, clk := 100000 } }),
    by decide +kernel⟩,
   ⟨st ({ w0 with tim := { w0.tim with clk := 99999 } }), by decide +kernel⟩,
   ⟨st ({ kg with ctl := { w0.ctl with standby := true } }), 0, by decide +kernel⟩⟩

theorem witness_MonitorEvents :
    (∃ (s : State) (i : Nat) (r : Nat), s.chip.safe = false ∧ s.chip.ctl.standby = false ∧ i < 16 ∧ r < 6) ∧
    (∃ (s : State) (i : Nat) (r : Nat) (x : Int), s.chip.safe = false ∧ s.chip.ctl.standby = false ∧ i < 16 ∧ r < 6 ∧ 135 * 16 ≤ x) :=
  ⟨⟨st (w0), 15, 5, by decide +kernel⟩,
   ⟨st (w0), 15, 5, 2160, by decide +kernel⟩⟩

theorem witness_FrameEntersTheVestibule :
    (∃ (s : State) (n : Nat), s.chip.receives n = true ∧ (s.chip.port n).rx = none ∧ s.chip.stopping 0 n = false ∧ (s.chip.port
      n).remapping = false ∧ s.chip.vestLevel n + s.chip.maxLen n + 64 ≤ 32768) ∧
    (∃ (s : State) (n : Nat), s.chip.receives n = true ∧ (s.chip.port n).rx = none ∧ s.chip.stopping 0 n = false ∧ ((s.chip.port
      n).remapping = true ∨ 32768 < s.chip.vestLevel n + s.chip.maxLen n + 64)) ∧
    (∃ (s : State) (n : Nat), s.chip.receives n = true ∧ (s.chip.port n).rx = none ∧ s.chip.stopping 0 n = true) :=
  ⟨⟨st (up w0 95), 95, by decide +kernel⟩,
   ⟨st ((up w0 95).setPort 95 { PortRt.init with remapping := true }), 95, by decide +kernel⟩,
   ⟨st (stp (up w0 95) 0 95), 95, by decide +kernel⟩⟩

theorem witness_HeaderIsHandedOff :
    ∃ (s : State) (p : Nat) (n : Nat) (a : Nat) (fid : Nat) (f : Frame), (s.chip.port n).vest.find? (fun i => ((s.chip.frame i).map
      (fun f => !f.handed)).getD false) = some fid ∧ s.chip.frame fid = some f ∧ s.chip.running = true ∧ s.chip.pipeUp p = true
      ∧ s.chip.portPipe n = p ∧ (s.chip.port n).remapping = false ∧ s.chip.stopping 1 p = false ∧ (s.chip.pipe p).buf.length <
      64 ∧ (f.ended = true ∨ (s.chip.flag Fd.PRT_MAC_CTRL_CUT_THRU f.port 0 = true ∧ 256 ≤ f.wireLen ∧ 256 ≤ a)) :=
  ⟨st ((holds (w0.set Fd.GLB_PORT_PIPE_PIPE 95 0 3) wfr).setPort 95 { PortRt.init with vest := [0], rx := none }), 3, 95, 0, 0,
    wfr, by decide +kernel⟩

theorem witness_FrameEnds :
    (∃ (s : State) (n : Nat) (fid : Nat) (e : RxErr) (f : Frame) (i : Nat), (s.chip.port n).rx = some fid ∧ s.chip.frame fid = some
      f ∧ s.chip.rxCheck n f.wire e = some i ∧ f.handed = false ∧ f.bad = false ∧ f.port = n ∧ n < 96 ∧ s.chip.get
      Fd.PRT_ERR_BUDGET_WINDOW_MS n 0 = 0) ∧
    (∃ (s : State) (n : Nat) (fid : Nat) (e : RxErr) (f : Frame), (s.chip.port n).rx = some fid ∧ s.chip.frame fid = some f ∧
      s.chip.rxCheck n f.wire e = none ∧ (s.chip.msReceive n f.wire).pass = true ∧ (s.chip.msReceive n f.wire).icv = false ∧
      f.bad = false ∧ f.staged = false ∧ f.hdr = none) :=
  ⟨⟨st ((holds w0 { wfr with ended := false }).setPort 95 { PortRt.init with vest := [0], rx := some 0 }), 95, 0,
    { pcs := false, fecUncorr := false, fcs := true, fecCorr := 3 }, { wfr with ended := false }, 0, by decide +kernel⟩,
   ⟨st ((holds w0 { wfr with ended := false }).setPort 95 { PortRt.init with vest := [0], rx := some 0 }), 95, 0,
    { pcs := false, fecUncorr := false, fcs := false, fecCorr := 3 }, { wfr with ended := false }, by decide +kernel⟩⟩

theorem witness_HeadersLeaveInOrder :
    (∃ (s : State) (p : Nat) (fid : Nat) (rest : List Nat) (f : Frame), (s.chip.pipe p).buf = fid :: rest ∧ s.chip.frame fid = some
      f ∧ s.chip.running = true ∧ f.bad = true) ∧
    (∃ (s : State) (p : Nat) (fid : Nat) (rest : List Nat) (f : Frame) (h : Hdr), (s.chip.pipe p).buf = fid :: rest ∧ s.chip.frame
      fid = some f ∧ s.chip.running = true ∧ f.bad = false ∧ f.ended = true ∧ f.hdr = some h ∧ (s.chip.frameHall f.port h.vid =
      none ∨ (∃ hall, s.chip.frameHall f.port h.vid = some hall ∧ s.chip.hallState hall = 3))) ∧
    (∃ (s : State) (p : Nat) (fid : Nat) (rest : List Nat) (f : Frame) (h : Hdr), (s.chip.pipe p).buf = fid :: rest ∧ s.chip.frame
      fid = some f ∧ s.chip.running = true ∧ f.bad = false ∧ f.hdr = some h ∧ (f.ended = true ∨ s.chip.flag
      Fd.PRT_PARSE_CTRL_TRAILER f.port 0 = false)) :=
  ⟨⟨st ((holds w0 { wfr with bad := true }).setPipe 3 { PipeRt.init with buf := [0] }), 3, 0, [], { wfr with bad := true },
    by decide +kernel⟩,
   ⟨st (((holds w0 { wfr with hdr := some whd, handed := true }).setPipe 3 { PipeRt.init with buf := [0] }).set
    Fd.GLB_PORT_OWN_SHARED 95 0 1), 3, 0, [], { wfr with hdr := some whd, handed := true }, whd, by decide +kernel⟩,
   ⟨st ((holds w0 { wfr with hdr := some whd, handed := true }).setPipe 3 { PipeRt.init with buf := [0] }), 3, 0, [],
    { wfr with hdr := some whd, handed := true }, whd, by decide +kernel⟩⟩

theorem witness_LearnInsertsAnEntry :
    ∃ (s : State) (p : Nat) (i : Nat) (l : Learn) (rest : List Learn), (s.chip.pipe p).learnQ = l :: rest ∧ (∀ k, s.chip.tblEcc.get
      0 tFDB k = 0) ∧ s.chip.flt.eccNext.get 0 1 tFDB = 0 ∧ l.kind < 8 ∧ (s.chip.fdbFind l.mac l.fid l.hall).1 = none ∧
      s.chip.excess { kind := l.kind, target := l.target, pair := l.pair, port := l.port } = false ∧ s.chip.tblUse tFDB l.hall <
      s.chip.tblQuota tFDB l.hall ∧ s.chip.hashPlace tFDB (s.chip.tblSize tFDB) (fdbKey l.mac l.fid l.hall) = some i :=
  ⟨st ((w0.set Fd.GLB_QUOTA_W1_FDB 0 0 1).setPipe 3
    { PipeRt.init with learnQ := [{ mac := 0x020000000001, fid := 1, hall := 0, port := 95, target := 95, pair := false, kind := 0 }] }),
    3, (((w0.setPipe 3
    { PipeRt.init with learnQ := [{ mac := 0x020000000001, fid := 1, hall := 0, port := 95, target := 95, pair := false, kind := 0 }] }).hashPlace
    tFDB 1024 (fdbKey 0x020000000001 1 0)).getD 0),
    { mac := 0x020000000001, fid := 1, hall := 0, port := 95, target := 95, pair := false, kind := 0 }, [], by decide +kernel,
    fun _ => rfl, by decide +kernel, by decide +kernel, by decide +kernel, by decide +kernel, by decide +kernel,
    by decide +kernel⟩

theorem witness_SelectionStartsACopy :
    ∃ (s : State) (n : Nat) (w : Path) (rest : List Copy) (f : Frame) (bytes : List Nat), n < 96 ∧ s.chip.running = true ∧
      (s.chip.edgeEvents n).running = true ∧ (s.chip.edgeEvents n).imageOff = false ∧ ((s.chip.edgeEvents n).port n).tx = none ∧
      (s.chip.edgeEvents n).isUp n = true ∧ (s.chip.edgeEvents n).stopping 0 n = false ∧ ((s.chip.edgeEvents n).dropDeficits
      n).choose n = some w ∧ ((s.chip.edgeEvents n).dropDeficits n).stale w.child.head = false ∧ (w.child.head.seqDone = true ∨
      (((s.chip.edgeEvents n).dropDeficits n).atr.rsq = [] ∧ ((s.chip.edgeEvents n).dropDeficits n).sprayTag w.child.head =
      none)) ∧ ((s.chip.edgeEvents n).dropDeficits n).queue n w.child.q = w.child.head :: rest ∧ ((s.chip.edgeEvents
      n).dropDeficits n).frame w.child.head.fid = some f ∧ f.ecc = [] ∧ (f.lenKnown && ((s.chip.edgeEvents n).dropDeficits
      n).tooLong n w.child.q w.child.head) = false ∧ (((s.chip.edgeEvents n).dropDeficits n).egressBytes n w.child.head f).1 =
      some bytes ∧ ((s.chip.edgeEvents n).dropDeficits n).idxWith Fd.ATR_MIR_CTRL_ENABLE = [] :=
  ⟨st
    ({ holds (up w0 95) { wfr with refs := 1 } with atr := { (holds w0 { wfr with refs := 1 }).atr with queues := [((95, 255), [wcp])] } }),
    95,
    ((({ holds (up w0 95) { wfr with refs := 1 } with atr := { (holds w0 { wfr with refs := 1 }).atr with queues := [((95, 255), [wcp])] } }
    : Chip).choose 95).getD { child := { num := 0, weight := 0, q := 0, head := wcp, len := 0 }, picks := [] }), [],
    { wfr with refs := 1 }, wfr.data, by decide +kernel⟩

theorem witness_TransmissionsEnd :
    (∃ (s : State) (n : Nat) (x : Tx) (f : Frame), (s.chip.port n).tx = some x ∧ s.chip.frame x.copy.fid = some f ∧ 2 ≤ f.refs ∧
      x.stomp = false ∧ f.ended = true) ∧
    (∃ (s : State) (n : Nat) (x : Tx) (f : Frame), (s.chip.port n).tx = some x ∧ s.chip.frame x.copy.fid = some f ∧ 2 ≤ f.refs ∧
      x.stomp = true) ∧
    (∃ (s : State) (n : Nat) (x : Tx) (f : Frame), (s.chip.port n).tx = some x ∧ s.chip.frame x.copy.fid = some f ∧ f.refs ≤ 1 ∧
      (x.stomp = true ∨ f.ended = true)) ∧
    (∃ (s : State) (n : Nat) (x : Tx) (f : Frame), (s.chip.port n).tx = some x ∧ s.chip.frame x.copy.fid = some f ∧ x.stomp = false
      ∧ f.ended = false) ∧
    (∃ (s : State) (n : Nat) (sent : Nat) (x : Tx), (s.chip.port n).tx = some x ∧ x.express = false ∧ s.chip.pmacActive n = true ∧
      (s.chip.held n = true ∨ bitOf (s.chip.gatesNow n) x.svc = false ∨ (s.chip.svcPaths n).any (fun p => s.chip.express n (7 -
      p.child.num)) = true) ∧ x.sent + 64 * (1 + s.chip.get Fd.PRT_PMAC_CTRL_ADD_FRAG n 0) ≤ sent ∧ sent < x.len) ∧
    (∃ (s : State) (n : Nat) (sent : Nat) (x : Tx), (s.chip.port n).tx = some x ∧ (x.express = true ∨ s.chip.pmacActive n = false ∨
      x.len ≤ sent ∨ (s.chip.held n = false ∧ bitOf (s.chip.gatesNow n) x.svc = true ∧ (s.chip.svcPaths n).any (fun p =>
      s.chip.express n (7 - p.child.num)) = false))) :=
  ⟨⟨st ((holds w0 { wfr with refs := 2 }).setPort 95 { PortRt.init with tx := some { wtx with stomp := false } }), 95,
    { wtx with stomp := false }, { wfr with refs := 2 }, by decide +kernel⟩,
   ⟨st ((holds w0 { wfr with refs := 2 }).setPort 95 { PortRt.init with tx := some { wtx with stomp := true } }), 95,
    { wtx with stomp := true }, { wfr with refs := 2 }, by decide +kernel⟩,
   ⟨st ((holds w0 { wfr with refs := 1 }).setPort 95 { PortRt.init with tx := some { wtx with stomp := false } }), 95,
    { wtx with stomp := false }, { wfr with refs := 1 }, by decide +kernel⟩,
   ⟨st ((holds w0 { wfr with ended := false }).setPort 95 { PortRt.init with tx := some wtx }), 95, wtx,
    { wfr with ended := false }, by decide +kernel⟩,
   ⟨st (((((up ((holds w0 { wfr with refs := 2 }).setPort 95 { PortRt.init with tx := some wtx }) 95).set Fd.PRT_PMAC_CTRL_EN 95 0
    1).set Fd.PRT_PMAC_CTRL_VERIFY_DIS 95 0 1).set Fd.SCH_GCL_STATUS_HOLD 95 0 1).set Fd.SCH_GCL_STATUS_STATE 95 0 2), 95, 64,
    wtx, by decide +kernel⟩,
   ⟨st ((holds w0 { wfr with refs := 2 }).setPort 95 { PortRt.init with tx := some wtx }), 95, 64, wtx, by decide +kernel⟩⟩

theorem witness_Shapers :
    (∃ (s : State), s.chip.shapers.Nodup ∧ s.chip.tim.clk / 64 ≤ s.chip.tim.refills) ∧
    (∃ (s : State), s.chip.shapers.Nodup ∧ s.chip.tim.refills < s.chip.tim.clk / 64) ∧
    (∃ (s : State) (m : Nat) (n : Nat) (kind : Nat) (i : Nat), wfShaper kind i = true ∧ s.chip.serves m (viaOf m) (shaperRateReg
      kind) n i = true) ∧
    (∃ (s : State) (m : Nat) (n : Nat) (kind : Nat) (i : Nat), wfShaper kind i = true ∧ s.chip.serves m (viaOf m) (shaperCfgReg
      kind) n i = true) :=
  ⟨⟨st (w0), by decide +kernel⟩,
   ⟨st ({ (w0.set Fd.SCH_PORT_CFG_SHAPE_EN 95 0 1).set Fd.SCH_SVC_CFG_SHAPE_EN 95 7 1 with tim := { w0.tim with clk := 64 } }),
    by decide +kernel⟩,
   ⟨st (w0), 0, 95, 0, 63, by decide +kernel⟩,
   ⟨st (w0), 0, 95, 1, 7, by decide +kernel⟩⟩

theorem witness_GateListsAdvance :
    (∃ (s : State) (n : Nat), s.chip.gclState n = 1 ∧ s.chip.reached (gclActive s.chip n).cu (s.chip.port n).gclStart = true) ∧
    (∃ (s : State) (n : Nat), s.chip.gclState n = 2 ∧ (s.chip.port n).gclSwitch = false ∧ s.chip.reached (gclActive s.chip n).cu
      (s.chip.port n).gclEnd = true ∧ (s.chip.port n).gclEnd < (s.chip.port n).gclStart + (gclActive s.chip n).period) ∧
    (∃ (s : State) (n : Nat), s.chip.gclState n = 2 ∧ (s.chip.port n).gclSwitch = false ∧ s.chip.reached (gclActive s.chip n).cu
      (s.chip.port n).gclEnd = true ∧ (s.chip.port n).gclStart + (gclActive s.chip n).period ≤ (s.chip.port n).gclEnd ∧
      s.chip.gclSwitchBusy n = false) ∧
    (∃ (s : State) (n : Nat), s.chip.gclState n = 2 ∧ (gclActive s.chip n).cu = false ∧ (s.chip.port n).gclSwitch = false ∧
      s.chip.gclSwitchBusy n = false ∧ (s.chip.port n).gclStart + (gclActive s.chip n).period ≤ (s.chip.port n).gclEnd ∧ gclOp
      s.chip n (gclActive s.chip n).start = 1 ∧ (s.chip.port n).gclEnd * 2 ^ 48 ≤ s.chip.tim.devT + s.chip.get
      Fd.SCH_GCL_HOLD_HOLD_ADV_NS n 0 * 2 ^ 48) :=
  ⟨⟨st ((((w0.set Fd.SCH_GCL_STATUS_STATE 95 0 1).set Fd.SCH_GCL_CTRL_ENABLE 95 0 1).set Fd.SCH_GCL_CTRL_LEN 95 0 2).set
    Fd.SCH_GCL_CYCLE_CYCLE 95 0 64), 95, by decide +kernel⟩,
   ⟨st ((((w0.set Fd.SCH_GCL_STATUS_STATE 95 0 2).set Fd.SCH_GCL_CTRL_ENABLE 95 0 1).set Fd.SCH_GCL_CTRL_LEN 95 0 2).set
    Fd.SCH_GCL_CYCLE_CYCLE 95 0 64), 95, by decide +kernel⟩,
   ⟨st
    ({ ((((w0.set Fd.SCH_GCL_STATUS_STATE 95 0 2).set Fd.SCH_GCL_CTRL_ENABLE 95 0 1).set Fd.SCH_GCL_CTRL_LEN 95 0 2).set Fd.SCH_GCL_CYCLE_CYCLE 95 0 64).setPort 95 { PortRt.init with gclEnd := 64 } with tim := { Tim.reset with devT := 64 * 2 ^ 48 } }),
    95, by decide +kernel⟩,
   ⟨st
    ({ ((((((w0.set Fd.SCH_GCL_STATUS_STATE 95 0 2).set Fd.SCH_GCL_CTRL_ENABLE 95 0 1).set Fd.SCH_GCL_CTRL_LEN 95 0 2).set Fd.SCH_GCL_CYCLE_CYCLE 95 0 64).set Fd.SCH_GCL_W0_OP 95 0 1).set Fd.SCH_GCL_HOLD_HOLD_ADV_NS 95 0 4).setPort 95 { PortRt.init with gclEnd := 64 } with tim := { Tim.reset with devT := 60 * 2 ^ 48 } }),
    95, by decide +kernel⟩⟩

theorem witness_GateListCommands :
    (∃ (s : State) (m : Nat) (n : Nat), s.chip.serves m (viaOf m) .SCH_GCL_CMD n 0 = true ∧ s.chip.gclSwitchBusy n = false ∧
      s.chip.flag Fd.SCH_GCL_CTRL_ENABLE n 0 = true ∧ s.chip.get Fd.SCH_GCL_PEND_CTRL_LEN n 0 ≠ 0 ∧ rangesOverlap (gclActive
      s.chip n) (gclPending s.chip n) = false) ∧
    (∃ (s : State) (m : Nat) (n : Nat), s.chip.serves m (viaOf m) .SCH_GCL_CMD n 0 = true ∧ s.chip.gclSwitchBusy n = true) ∧
    (∃ (s : State) (m : Nat) (n : Nat) (v : Word), s.chip.serves m (viaOf m) .SCH_GCL_CTRL n 0 = true ∧ s.chip.flag
      Fd.SCH_GCL_CTRL_ENABLE n 0 = false ∧ s.chip.stopped 2 n = true ∧ bitOf v.toNat 31 = true) ∧
    (∃ (s : State) (m : Nat) (n : Nat) (v : Word), s.chip.serves m (viaOf m) .SCH_GCL_CTRL n 0 = true ∧ s.chip.flag
      Fd.SCH_GCL_CTRL_ENABLE n 0 = false ∧ s.chip.stopped 2 n = false ∧ bitOf v.toNat 31 = true ∧ bitOf v.toNat 30 = false) ∧
    (∃ (s : State) (m : Nat) (n : Nat), s.chip.serves m (viaOf m) .SCH_GCL_CTRL n 0 = true ∧ s.chip.flag Fd.SCH_GCL_CTRL_ENABLE n 0
      = true ∧ s.chip.stopped 2 n = false) ∧
    (∃ (s : State) (m : Nat) (n : Nat) (v : Word), s.chip.serves m (viaOf m) .SCH_GCL_CTRL n 0 = true ∧ s.chip.stopped 2 n = true ∧
      bitOf v.toNat 31 = false) :=
  ⟨⟨st (((((w0.set Fd.SCH_GCL_CTRL_ENABLE 95 0 1).set Fd.SCH_GCL_CTRL_LEN 95 0 128).set Fd.SCH_GCL_PEND_CTRL_LEN 95 0 128).set
    Fd.SCH_GCL_PEND_CTRL_START 95 0 128)), 0, 95, by decide +kernel⟩,
   ⟨st ((w0.set Fd.SCH_GCL_CTRL_ENABLE 95 0 1).set Fd.SCH_GCL_CMD_STATUS 95 0 1), 0, 95, by decide +kernel⟩,
   ⟨st (stp w0 2 95), 0, 95, 0x80000000, by decide +kernel⟩,
   ⟨st (w0), 0, 95, 0x81FF00FF, by decide +kernel⟩,
   ⟨st (w0.set Fd.SCH_GCL_CTRL_ENABLE 95 0 1), 0, 95, by decide +kernel⟩,
   ⟨st (stp w0 2 95), 0, 95, 0, by decide +kernel⟩⟩

theorem witness_StreamGatesAdvance :
    (∃ (s : State) (g : Nat), s.chip.flag Fd.TBL_SGATE_CTRL_ENABLE g 0 = true ∧ (sgP s.chip g).cu = false ∧ (sgate s.chip g).waiting
      = true ∧ s.chip.reached false (sgate s.chip g).until_ = true) ∧
    (∃ (s : State) (m : Nat) (g : Nat), s.chip.serves m (viaOf m) .TBL_SGATE_REOPEN g 0 = true ∧ s.chip.priv m = true) :=
  ⟨⟨st ({ w0.set Fd.TBL_SGATE_CTRL_ENABLE 255 0 1 with sgate := [(255, { SGateRt.init with waiting := true })] }), 255,
    by decide +kernel⟩,
   ⟨st (w0), 0, 255, by decide +kernel⟩⟩

theorem witness_SweeperAndResequencer :
    (∃ (s : State) (n : Nat) (q : Nat) (xs : List Copy), s.chip.flag Fd.ATR_AGE_CTRL_SWEEP_EN 0 0 = true ∧ s.chip.running = true ∧
      s.chip.atr.sweeping = false ∧ n < 96 ∧ s.chip.atr.rsq = [] ∧ s.chip.atr.queues = [((n, q), xs)]) ∧
    (∃ (s : State), s.chip.atr.sweeping = true) ∧
    (∃ (s : State) (n : Nat) (r : Rsq) (h : Held), s.chip.atr.rsq = [r] ∧ r.move = some n ∧ r.held = [h] ∧ s.chip.mayReturn r n h =
      true ∧ s.chip.oldInPipe n (s.chip.port n).moves = false ∧ (∀ e ∈ s.chip.atr.queues, ∀ y ∈ e.2, s.chip.isOld n (s.chip.port
      n).moves y = false) ∧ s.chip.isOld n (s.chip.port n).moves h.copy = false) ∧
    (∃ (s : State) (x : Nat) (r : Rsq) (h : Held), s.chip.atr.rsq = [r] ∧ r.id = x ∧ r.move = none ∧ r.held = [h] ∧ h.seq < 65536 ∧
      h.since + 1000 * max 1 (s.chip.get Fd.ATR_RSQ_CTRL_TIMEOUT_US 0 0) ≤ s.chip.tim.clk) ∧
    (∃ (s : State) (x : Nat) (r : Rsq), s.chip.atr.rsq.find? (fun r => decide (r.id = x)) = some r ∧ r.held = [] ∧ r.move = none ∧
      max r.last r.heldAt + 1000000 ≤ s.chip.tim.clk) ∧
    (∃ (s : State) (n : Nat) (x : Nat) (r : Rsq) (h : Held), s.chip.atr.rsq = [r] ∧ r.id = x ∧ r.move = some n ∧ r.held = [h] ∧
      h.since + 1000 * max 1 (s.chip.get Fd.ATR_RSQ_CTRL_TIMEOUT_US 0 0) ≤ s.chip.tim.clk) :=
  ⟨⟨st ({ w0 with atr := { w0.atr with queues := [((95, 255), [wcp])] } }), 95, 255, [wcp], by decide +kernel⟩,
   ⟨st ({ w0 with atr := { w0.atr with sweeping := true } }), by decide +kernel⟩,
   ⟨st
    ({ w0 with atr := { w0.atr with rsq := [{ id := 0, move := some 95, src := 3, flow := 0, port := 95, expect := 5, held := [{ seq := 65535, since := 0, port := 95, q := 255, copy := wcp }], last := 0 }] } }),
    95,
    { id := 0, move := some 95, src := 3, flow := 0, port := 95, expect := 5, held := [{ seq := 65535, since := 0, port := 95, q := 255, copy := wcp }], last := 0 },
    { seq := 65535, since := 0, port := 95, q := 255, copy := wcp }, by decide +kernel⟩,
   ⟨st
    ({ { w0 with atr := { w0.atr with rsq := [{ id := 0, move := none, src := 3, flow := 0, port := 95, expect := 5, held := [{ seq := 65535, since := 0, port := 95, q := 255, copy := wcp }], last := 0 }] } } with tim := { Tim.reset with clk := 2000000 } }),
    0,
    { id := 0, move := none, src := 3, flow := 0, port := 95, expect := 5, held := [{ seq := 65535, since := 0, port := 95, q := 255, copy := wcp }], last := 0 },
    { seq := 65535, since := 0, port := 95, q := 255, copy := wcp }, by decide +kernel⟩,
   ⟨st
    ({ { w0 with atr := { w0.atr with rsq := [{ id := 0, move := none, src := 3, flow := 0, port := 95, expect := 5, held := [], last := 0 }] } } with tim := { Tim.reset with clk := 2000000 } }),
    0, { id := 0, move := none, src := 3, flow := 0, port := 95, expect := 5, held := [], last := 0 }, by decide +kernel⟩,
   ⟨st
    ({ { w0 with atr := { w0.atr with rsq := [{ id := 0, move := some 95, src := 3, flow := 0, port := 95, expect := 5, held := [{ seq := 65535, since := 0, port := 95, q := 255, copy := wcp }], last := 0 }] } } with tim := { Tim.reset with clk := 2000000 } }),
    95, 0,
    { id := 0, move := some 95, src := 3, flow := 0, port := 95, expect := 5, held := [{ seq := 65535, since := 0, port := 95, q := 255, copy := wcp }], last := 0 },
    { seq := 65535, since := 0, port := 95, q := 255, copy := wcp }, by decide +kernel⟩⟩

theorem witness_PassesSnapshotsAndCounters :
    (∃ (s : State) (i : Nat) (ws : List Nat), s.chip.flag Fd.RED_DUP_CTRL_SWEEP_EN 0 0 = true ∧ s.chip.running = true ∧ s.chip.entry
      tDUP i = some ws ∧ (dupKind ws = kSOURCE ∨ dupKind ws = kGENERATOR)) ∧
    (∃ (s : State) (i : Nat) (ws : List Nat), s.chip.flag Fd.TBL_AGE_CTRL_ENABLE 0 0 = true ∧ s.chip.running = true ∧
      s.chip.imageOff = false ∧ s.chip.agerNext ≤ s.chip.ns ∧ (s.chip.entries tFDB).Nodup ∧ (∀ k, s.chip.tblEcc.get 0 tFDB k =
      0) ∧ s.chip.entry tFDB i = some ws) ∧
    (∃ (s : State), (s.chip.residue.map (fun e => e.1)).Nodup) ∧
    (∃ (s : State) (m : Nat) (h : Nat) (p : Nat), s.chip.serves m (slotVia m h) .CNT_SNAP_CMD h 0 = true ∧ s.chip.get
      Fd.CNT_SNAP_CMD_STATUS h 0 ≠ sBUSY ∧ (h = 0 → s.chip.priv m = true) ∧ s.chip.genCurrent h = true ∧ s.chip.stopped 5 h =
      false ∧ p < 8 ∧ p ≠ 5 ∧ p ≠ 6 ∧ s.chip.snapAddr h % 64 = 0 ∧ 64 + 8 * s.chip.snapTotal h p ≤ s.chip.get
      Fd.CNT_SNAP_LEN_LEN h 0) ∧
    (∃ (s : State) (m : Nat) (h : Nat) (p : Nat), s.chip.serves m (slotVia m h) .CNT_SNAP_CMD h 0 = true ∧ s.chip.get
      Fd.CNT_SNAP_CMD_STATUS h 0 ≠ sBUSY ∧ (h = 0 → s.chip.priv m = true) ∧ s.chip.genCurrent h = true ∧ s.chip.stopped 5 h =
      false ∧ p < 8 ∧ p ≠ 5 ∧ p ≠ 6 ∧ s.chip.snapAddr h % 64 = 0 ∧ s.chip.get Fd.CNT_SNAP_LEN_LEN h 0 < 64 + 8 *
      s.chip.snapTotal h p) ∧
    (∃ (s : State) (h : Nat) (j : SnapJob), s.chip.snaps.find h = some j ∧ s.chip.pins.linkUp = true ∧ j.bytes = none) ∧
    (∃ (s : State) (h : Nat) (j : SnapJob) (bs : List Nat), s.chip.snaps.find h = some j ∧ s.chip.pins.linkUp = true ∧ j.bytes =
      some bs ∧ s.chip.snaps = [(h, j)]) ∧
    (∃ (s : State) (h : Nat) (j : SnapJob) (bs : List Nat) (k : Nat) (w : SnapJob), s.chip.snaps.find h = some j ∧
      s.chip.pins.linkUp = true ∧ j.bytes = some bs ∧ h < k ∧ k < 32 ∧ w.bytes = none ∧ s.chip.snaps = [(h, j), (k, w)]) ∧
    (∃ (s : State) (m : Nat) (b : Nat), b < 4 ∧ s.chip.serves m (viaOf m) .PIP_EVC_CTRL b 0 = true) ∧
    (∃ (s : State) (m : Nat), s.chip.serves m (viaOf m) .ATR_EVC_CTRL 0 0 = true) :=
  ⟨⟨st ({ { w0 with tbl := [((5, 9), [0x80000000, 0, 0, 0])] } with tim := { Tim.reset with devT := 60000000000 * 2 ^ 48 } }), 9,
    [0x80000000, 0, 0, 0], by decide +kernel⟩,
   ⟨st (({ w0 with tbl := [((0, 9), [0x80000000, 0, 0, 0, 16])] }).set Fd.TBL_AGE_CTRL_ENABLE 0 0 1), 9, [0x80000000, 0, 0, 0, 16],
    by decide +kernel, by decide +kernel, by decide +kernel, by decide +kernel, by decide +kernel, fun _ => rfl,
    by decide +kernel⟩,
   ⟨st ({ w0 with residue := [((0, 3), 7), ((4, 1), 2 ^ 64 - 1)], cnt := [((4, 1), 2)] }), by decide +kernel⟩,
   ⟨st (w0.set Fd.CNT_SNAP_LEN_LEN 31 0 0xFFFFFFFF), 0, 31, 3, by decide +kernel⟩,
   ⟨st (w0.set Fd.CNT_SNAP_LEN_LEN 31 0 63), 0, 31, 7, by decide +kernel⟩,
   ⟨st ({ w0 with snaps := [(31, { gen := 0, addr := 64, pool := 7, clear := false, bytes := none })] }), 31,
    { gen := 0, addr := 64, pool := 7, clear := false, bytes := none }, by decide +kernel⟩,
   ⟨st ({ w0 with snaps := [(31, { gen := 0, addr := 64, pool := 7, clear := false, bytes := some [1, 2] })] }), 31,
    { gen := 0, addr := 64, pool := 7, clear := false, bytes := some [1, 2] }, [1, 2], by decide +kernel⟩,
   ⟨st
    ({ w0 with snaps := [(0, { gen := 0, addr := 64, pool := 7, clear := false, bytes := some [1, 2] }), (31, { gen := 0, addr := 64, pool := 7, clear := false, bytes := none })] }),
    0, { gen := 0, addr := 64, pool := 7, clear := false, bytes := some [1, 2] }, [1, 2], 31,
    { gen := 0, addr := 64, pool := 7, clear := false, bytes := none }, by decide +kernel⟩,
   ⟨st (w0), 0, 3, by decide +kernel⟩,
   ⟨st w0, 0, by decide +kernel⟩⟩

theorem witness_PortPipeRefused :
    ∃ (s : State) (m : Nat) (n : Nat) (p : Nat), s.chip.serves m (viaOf m) .GLB_PORT_PIPE n 0 = true ∧ p < 4 ∧ (s.chip.isFenced 1 p
      = true ∨ s.chip.parked p = true) :=
  ⟨st ({ w0 with fenced := [(1, 3)] }), 0, 95, 3, by decide +kernel⟩

theorem witness_PortsMoveBetweenPipelines :
    (∃ (s : State) (m : Nat) (n : Nat) (p : Nat), s.chip.serves m (viaOf m) .GLB_PORT_PIPE n 0 = true ∧ p < 4 ∧ p ≠ s.chip.portPipe
      n ∧ s.chip.pipeOut p = false ∧ s.chip.pipeOut (s.chip.portPipe n) = false ∧ s.chip.moveOf n = none ∧ s.chip.atr.rsq.length
      < 1024) ∧
    (∃ (s : State) (m : Nat) (n : Nat) (p : Nat) (r : Rsq), s.chip.serves m (viaOf m) .GLB_PORT_PIPE n 0 = true ∧ p < 4 ∧ p ≠
      s.chip.portPipe n ∧ s.chip.pipeOut p = false ∧ s.chip.pipeOut (s.chip.portPipe n) = false ∧ s.chip.moveOf n = some r) ∧
    (∃ (s : State) (m : Nat) (n : Nat) (p : Nat), s.chip.serves m (viaOf m) .GLB_PORT_PIPE n 0 = true ∧ p < 4 ∧ p ≠ s.chip.portPipe
      n ∧ s.chip.pipeOut p = false ∧ s.chip.pipeOut (s.chip.portPipe n) = false ∧ s.chip.moveOf n = none ∧ 1024 ≤
      s.chip.atr.rsq.length) ∧
    (∃ (s : State) (m : Nat) (n : Nat) (p : Nat), s.chip.serves m (viaOf m) .GLB_PORT_PIPE n 0 = true ∧ p < 4 ∧ p ≠ s.chip.portPipe
      n ∧ s.chip.pipeOut p = false ∧ s.chip.pipeOut (s.chip.portPipe n) = true) ∧
    (∃ (s : State) (n : Nat), (s.chip.port n).remapping = true ∧ s.chip.pipesUp ≠ []) :=
  ⟨⟨st (w0), 0, 95, 3, by decide +kernel⟩,
   ⟨st
    ({ w0 with atr := { w0.atr with rsq := [{ id := 0, move := some 95, src := 2, flow := 0, port := 95, expect := 0, held := [], last := 0 }] } }),
    0, 95, 3, { id := 0, move := some 95, src := 2, flow := 0, port := 95, expect := 0, held := [], last := 0 },
    by decide +kernel⟩,
   ⟨st
    ({ w0 with atr := { w0.atr with rsq := List.replicate 1024 { ({ id := 0, move := some 95, src := 2, flow := 0, port := 95, expect := 0, held := [], last := 0 } : Rsq) with move := none } } }),
    0, 95, 3, by decide +kernel⟩,
   ⟨st ({ w0 with fenced := [(1, 0)] }), 0, 95, 3, by decide +kernel⟩,
   ⟨st (w0.setPort 95 { PortRt.init with remapping := true }), 95, by decide +kernel⟩⟩

theorem witness_TableCommandsStart :
    (∃ (s : State) (m : Nat) (h : Nat) (t : Nat), s.chip.serves m (slotVia m h) .TBL_CMD h 0 = true ∧ s.chip.tblTakes m h opSEARCH t
      = true) ∧
    (∃ (s : State) (m : Nat) (h : Nat) (t : Nat), s.chip.serves m (slotVia m h) .TBL_CMD h 0 = true ∧ s.chip.tblTakes m h opNEXT t =
      true) ∧
    (∃ (s : State) (m : Nat) (h : Nat) (t : Nat), s.chip.serves m (slotVia m h) .TBL_CMD h 0 = true ∧ s.chip.tblTakes m h opINSERT t
      = true) ∧
    (∃ (s : State) (m : Nat) (h : Nat) (t : Nat), s.chip.serves m (slotVia m h) .TBL_CMD h 0 = true ∧ s.chip.tblTakes m h opDELETE t
      = true) ∧
    (∃ (s : State) (m : Nat) (h : Nat) (t : Nat), s.chip.serves m (slotVia m h) .TBL_CMD h 0 = true ∧ s.chip.tblTakes m h
      opFLUSHPORT t = true) ∧
    (∃ (s : State) (m : Nat) (h : Nat) (t : Nat), s.chip.serves m (slotVia m h) .TBL_CMD h 0 = true ∧ s.chip.tblTakes m h
      opFLUSHHALL t = true) ∧
    (∃ (s : State) (m : Nat) (h : Nat) (t : Nat), s.chip.serves m (slotVia m h) .TBL_CMD h 0 = true ∧ s.chip.tblTakes m h opAGE t =
      true) :=
  ⟨⟨st (w0), 31, 31, 0, by decide +kernel⟩,
   ⟨st (w0), 31, 31, 1, by decide +kernel⟩,
   ⟨st (w0), 33, 0, 0, by decide +kernel⟩,
   ⟨st (w0), 33, 0, 0, by decide +kernel⟩,
   ⟨st (w0), 33, 0, 0, by decide +kernel⟩,
   ⟨st (w0), 33, 0, 0, by decide +kernel⟩,
   ⟨st (w0), 33, 0, 0, by decide +kernel⟩⟩

theorem witness_TableCommandsComplete :
    (∃ (s : State) (h : Nat) (t : Nat) (g : Nat) (op : Nat), s.chip.jobs.find h = some { op := op, table := t, gen := g } ∧ g ≠
      s.chip.gen h) ∧
    (∃ (s : State) (h : Nat) (t : Nat) (g : Nat) (ws : List Nat), tblHashed t = false ∧ g = s.chip.gen h ∧ s.chip.tblEcc.get 0 t
      (s.chip.cmdIndex h t) = 0 ∧ s.chip.jobs.find h = some { op := opSEARCH, table := t, gen := g } ∧ h = 0 ∧ s.chip.entry t
      (s.chip.cmdIndex h t) = some ws) ∧
    (∃ (s : State) (h : Nat) (t : Nat) (g : Nat), tblHashed t = false ∧ g = s.chip.gen h ∧ s.chip.tblEcc.get 0 t (s.chip.cmdIndex h
      t) = 0 ∧ s.chip.jobs.find h = some { op := opSEARCH, table := t, gen := g } ∧ s.chip.entry t (s.chip.cmdIndex h t) = none) ∧
    (∃ (s : State) (h : Nat) (t : Nat) (g : Nat), tblHashed t = false ∧ g = s.chip.gen h ∧ s.chip.tblEcc.get 0 t (s.chip.cmdIndex h
      t) = 0 ∧ s.chip.jobs.find h = some { op := opINSERT, table := t, gen := g } ∧ h = 0 ∧ tblValid t (tblClean t
      (s.chip.slotData h t)) = true ∧ s.chip.tblUse t ((dataHall t (s.chip.slotData h t)).getD (s.chip.argHall h)) <
      s.chip.tblQuota t ((dataHall t (s.chip.slotData h t)).getD (s.chip.argHall h))) ∧
    (∃ (s : State) (h : Nat) (t : Nat) (g : Nat) (ws : List Nat), tblHashed t = false ∧ g = s.chip.gen h ∧ s.chip.tblEcc.get 0 t
      (s.chip.cmdIndex h t) = 0 ∧ s.chip.jobs.find h = some { op := opDELETE, table := t, gen := g } ∧ s.chip.entry t
      (s.chip.cmdIndex h t) = some ws) :=
  ⟨⟨st (({ w0 with jobs := [(0, { op := opINSERT, table := 5, gen := 0 })] }).set Fd.HAL_GEN_GEN 0 0 1), 0, 5, 0, opINSERT,
    by decide +kernel⟩,
   ⟨st
    ({ { w0 with tbl := [((5, 0), [0x80000000, 0, 0, 0, 0, 0])] } with jobs := [(0, { op := opSEARCH, table := 5, gen := 0 })] }),
    0, 5, 0, [0x80000000, 0, 0, 0, 0, 0], by decide +kernel⟩,
   ⟨st ({ w0 with jobs := [(0, { op := opSEARCH, table := 5, gen := 0 })] }), 0, 5, 0, by decide +kernel⟩,
   ⟨st
    ({ (w0.set Fd.TBL_DATA_DATA 0 0 0x80000000).set Fd.GLB_QUOTA_W6_DUP 0 0 1 with jobs := [(0, { op := opINSERT, table := 5, gen := 0 })] }),
    0, 5, 0, by decide +kernel⟩,
   ⟨st
    ({ { w0 with tbl := [((5, 0), [0x80000000, 0, 0, 0, 0, 0])] } with jobs := [(0, { op := opDELETE, table := 5, gen := 0 })] }),
    0, 5, 0, [0x80000000, 0, 0, 0, 0, 0], by decide +kernel⟩⟩

theorem witness_TcamCommands :
    (∃ (s : State) (m : Nat) (h : Nat) (p : Nat) (layout : Nat) (owner : Nat) (row : Nat), s.chip.serves m (slotVia m h)
      .PIP_TCAM_CMD p 0 = true ∧ s.chip.tcamTakes m h p layout row = true ∧ s.chip.rowsOwned p (if h = 0 then owner else h) <
      s.chip.get Fd.GLB_QUOTA_W3_TCAM (if h = 0 then owner else h) 0 ∧ ((if h = 0 then owner else h) = 0 ∨ s.chip.actOwned p (if
      h = 0 then owner else h) (s.chip.stagedAction h p) = true)) ∧
    (∃ (s : State) (m : Nat) (h : Nat) (p : Nat) (layout : Nat) (row : Nat), s.chip.serves m (slotVia m h) .PIP_TCAM_CMD p 0 = true
      ∧ s.chip.tcamTakes m h p layout row = true) ∧
    (∃ (s : State) (h : Nat) (p : Nat) (layout : Nat) (owner : Nat) (row : Nat), (if h = 0 then owner else h) < 32 ∧ (s.chip.pipe
      p).tcamOp = some (1, layout, (if h = 0 then owner else h) + 32 * h, row)) ∧
    (∃ (s : State) (h : Nat) (p : Nat) (layout : Nat) (owner : Nat) (row : Nat) (r : TcamRow), (if h = 0 then owner else h) < 32 ∧
      (s.chip.pipe p).tcamOp = some (2, layout, (if h = 0 then owner else h) + 32 * h, row) ∧ s.chip.tcam.find p row = some r) ∧
    (∃ (s : State) (h : Nat) (p : Nat) (layout : Nat) (owner : Nat) (row : Nat) (r : TcamRow), (if h = 0 then owner else h) < 32 ∧
      (s.chip.pipe p).tcamOp = some (3, layout, (if h = 0 then owner else h) + 32 * h, row) ∧ s.chip.tcam.find p row = some r ∧
      r.err = 0) :=
  ⟨⟨st (w0.set Fd.GLB_QUOTA_W3_TCAM 31 0 1), 0, 0, 3, 0, 31, 6143, by decide +kernel⟩,
   ⟨st (w0), 0, 0, 3, 0, 6143, by decide +kernel⟩,
   ⟨st ((w0).setPipe 3 { PipeRt.init with tcamOp := some (1, 0, 31, 6143) }), 0, 3, 0, 31, 6143, by decide +kernel⟩,
   ⟨st
    (({ w0 with tcam := [((3, 6143), { valid := true, layout := 0, owner := 31, value := 5, mask := 7, action := [1, 2, 3, 4, 5, 6, 7, 8], err := 0 })] }).setPipe
    3 { PipeRt.init with tcamOp := some (2, 0, 31, 6143) }), 0, 3, 0, 31, 6143,
    ({ valid := true, layout := 0, owner := 31, value := 5, mask := 7, action := [1, 2, 3, 4, 5, 6, 7, 8], err := 0 } :
    TcamRow), by decide +kernel⟩,
   ⟨st
    (({ w0 with tcam := [((3, 6143), { valid := true, layout := 0, owner := 31, value := 5, mask := 7, action := [1, 2, 3, 4, 5, 6, 7, 8], err := 0 })] }).setPipe
    3 { PipeRt.init with tcamOp := some (3, 0, 31, 6143) }), 0, 3, 0, 31, 6143,
    ({ valid := true, layout := 0, owner := 31, value := 5, mask := 7, action := [1, 2, 3, 4, 5, 6, 7, 8], err := 0 } :
    TcamRow), by decide +kernel⟩⟩

theorem witness_FlushCommands :
    (∃ (s : State) (m : Nat) (h : Nat) (port : Nat) (n : Nat) (x : Nat), s.chip.serves m (slotVia m h) .SCH_FLUSH_CMD h 0 = true ∧
      port < 96 ∧ s.chip.hport h port = some n ∧ h < 32 ∧ s.chip.flushTakes h n [x] = true) ∧
    (∃ (s : State) (m : Nat) (h : Nat) (port : Nat) (n : Nat) (x : Nat), s.chip.serves m (slotVia m h) .SCH_FLUSH_CMD h 0 = true ∧
      port < 96 ∧ s.chip.hport h port = some n ∧ h < 32 ∧ x < 64 ∧ s.chip.flushTakes h n ((List.range 256).filter (fun q =>
      decide (s.chip.qBay n q = x))) = true) ∧
    (∃ (s : State) (m : Nat) (h : Nat) (port : Nat) (n : Nat), s.chip.serves m (slotVia m h) .SCH_FLUSH_CMD h 0 = true ∧ port < 96 ∧
      s.chip.hport h port = some n ∧ h < 32 ∧ s.chip.flushTakes h n (List.range 256) = true) ∧
    (∃ (s : State) (h : Nat), s.chip.get Fd.SCH_FLUSH_CMD_STATUS h 0 = sBUSY) :=
  ⟨⟨st (w0), 0, 0, 95, 95, 63, by decide +kernel⟩,
   ⟨st (w0), 0, 0, 95, 95, 63, by decide +kernel⟩,
   ⟨st (w0), 0, 0, 95, 95, by decide +kernel⟩,
   ⟨st (w0.set Fd.SCH_FLUSH_CMD_STATUS 31 0 1), 31, by decide +kernel⟩⟩

theorem witness_StepsOfTime :
    (∃ (s : State) (m : Nat), s.chip.serves m (viaOf m) .TIM_CMD 0 0 = true ∧ s.chip.get Fd.TIM_CMD_STATUS 0 0 ≠ sBUSY ∧
      (s.chip.flag Fd.TIM_STATUS_STEP_USED 0 0 = true ∧ s.chip.stopped 3 0 = false)) ∧
    (∃ (s : State) (m : Nat), s.chip.serves m (viaOf m) .TIM_CMD 0 0 = true ∧ s.chip.get Fd.TIM_CMD_STATUS 0 0 ≠ sBUSY ∧ ¬
      (s.chip.flag Fd.TIM_STATUS_STEP_USED 0 0 = true ∧ s.chip.stopped 3 0 = false) ∧ (10 ^ 9 ≤ (s.chip.get Fd.TIM_STEP_NS_NS 0
      0) ∨ (((s.chip.get Fd.TIM_STEP_SEC_HI_SEC 0 0 * 2 ^ 32 + s.chip.get Fd.TIM_STEP_SEC_LO_SEC 0 0) * 10 ^ 9 + (s.chip.get
      Fd.TIM_STEP_NS_NS 0 0) : Nat) : Int) < 0 ∨ 2 ^ 48 * 10 ^ 9 ≤ (((s.chip.get Fd.TIM_STEP_SEC_HI_SEC 0 0 * 2 ^ 32 +
      s.chip.get Fd.TIM_STEP_SEC_LO_SEC 0 0) * 10 ^ 9 + (s.chip.get Fd.TIM_STEP_NS_NS 0 0) : Nat) : Int))) ∧
    (∃ (s : State) (m : Nat), s.chip.serves m (viaOf m) .TIM_CMD 0 0 = true ∧ s.chip.get Fd.TIM_CMD_STATUS 0 0 ≠ sBUSY ∧ ¬
      (s.chip.flag Fd.TIM_STATUS_STEP_USED 0 0 = true ∧ s.chip.stopped 3 0 = false) ∧ (10 ^ 9 ≤ (s.chip.get Fd.TIM_STEP_NS_NS 0
      0) ∨ (if s.chip.flag Fd.TIM_STEP_SEC_HI_SIGN 0 0 then (s.chip.ns : Int) - (((s.chip.get Fd.TIM_STEP_SEC_HI_SEC 0 0 * 2 ^
      32 + s.chip.get Fd.TIM_STEP_SEC_LO_SEC 0 0) * 10 ^ 9 + (s.chip.get Fd.TIM_STEP_NS_NS 0 0) : Nat) : Int) else (s.chip.ns :
      Int) + (((s.chip.get Fd.TIM_STEP_SEC_HI_SEC 0 0 * 2 ^ 32 + s.chip.get Fd.TIM_STEP_SEC_LO_SEC 0 0) * 10 ^ 9 + (s.chip.get
      Fd.TIM_STEP_NS_NS 0 0) : Nat) : Int) : Int) < 0 ∨ 2 ^ 48 * 10 ^ 9 ≤ (if s.chip.flag Fd.TIM_STEP_SEC_HI_SIGN 0 0 then
      (s.chip.ns : Int) - (((s.chip.get Fd.TIM_STEP_SEC_HI_SEC 0 0 * 2 ^ 32 + s.chip.get Fd.TIM_STEP_SEC_LO_SEC 0 0) * 10 ^ 9 +
      (s.chip.get Fd.TIM_STEP_NS_NS 0 0) : Nat) : Int) else (s.chip.ns : Int) + (((s.chip.get Fd.TIM_STEP_SEC_HI_SEC 0 0 * 2 ^
      32 + s.chip.get Fd.TIM_STEP_SEC_LO_SEC 0 0) * 10 ^ 9 + (s.chip.get Fd.TIM_STEP_NS_NS 0 0) : Nat) : Int) : Int))) ∧
    (∃ (s : State) (m : Nat), s.chip.serves m (viaOf m) .TIM_CMD 0 0 = true ∧ s.chip.get Fd.TIM_CMD_STATUS 0 0 ≠ sBUSY ∧ ¬
      (s.chip.flag Fd.TIM_STATUS_STEP_USED 0 0 = true ∧ s.chip.stopped 3 0 = false) ∧ (s.chip.get Fd.TIM_STEP_NS_NS 0 0) < 10 ^
      9 ∧ (((s.chip.get Fd.TIM_STEP_SEC_HI_SEC 0 0 * 2 ^ 32 + s.chip.get Fd.TIM_STEP_SEC_LO_SEC 0 0) * 10 ^ 9 + (s.chip.get
      Fd.TIM_STEP_NS_NS 0 0) : Nat) : Int) < 2 ^ 48 * 10 ^ 9) ∧
    (∃ (s : State) (m : Nat), s.chip.serves m (viaOf m) .TIM_CMD 0 0 = true ∧ s.chip.get Fd.TIM_CMD_STATUS 0 0 ≠ sBUSY ∧ ¬
      (s.chip.flag Fd.TIM_STATUS_STEP_USED 0 0 = true ∧ s.chip.stopped 3 0 = false) ∧ (s.chip.get Fd.TIM_STEP_NS_NS 0 0) < 10 ^
      9 ∧ 0 ≤ (if s.chip.flag Fd.TIM_STEP_SEC_HI_SIGN 0 0 then (s.chip.ns : Int) - (((s.chip.get Fd.TIM_STEP_SEC_HI_SEC 0 0 * 2
      ^ 32 + s.chip.get Fd.TIM_STEP_SEC_LO_SEC 0 0) * 10 ^ 9 + (s.chip.get Fd.TIM_STEP_NS_NS 0 0) : Nat) : Int) else (s.chip.ns
      : Int) + (((s.chip.get Fd.TIM_STEP_SEC_HI_SEC 0 0 * 2 ^ 32 + s.chip.get Fd.TIM_STEP_SEC_LO_SEC 0 0) * 10 ^ 9 + (s.chip.get
      Fd.TIM_STEP_NS_NS 0 0) : Nat) : Int) : Int) ∧ (if s.chip.flag Fd.TIM_STEP_SEC_HI_SIGN 0 0 then (s.chip.ns : Int) -
      (((s.chip.get Fd.TIM_STEP_SEC_HI_SEC 0 0 * 2 ^ 32 + s.chip.get Fd.TIM_STEP_SEC_LO_SEC 0 0) * 10 ^ 9 + (s.chip.get
      Fd.TIM_STEP_NS_NS 0 0) : Nat) : Int) else (s.chip.ns : Int) + (((s.chip.get Fd.TIM_STEP_SEC_HI_SEC 0 0 * 2 ^ 32 +
      s.chip.get Fd.TIM_STEP_SEC_LO_SEC 0 0) * 10 ^ 9 + (s.chip.get Fd.TIM_STEP_NS_NS 0 0) : Nat) : Int) : Int) < 2 ^ 48 * 10 ^
      9) ∧
    (∃ (s : State) (m : Nat), s.chip.serves m (viaOf m) .TIM_CMD 0 0 = true ∧ s.chip.get Fd.TIM_CMD_STATUS 0 0 ≠ sBUSY) :=
  ⟨⟨st (w0.set Fd.TIM_STATUS_STEP_USED 0 0 1), 0, by decide +kernel⟩,
   ⟨st (w0.set Fd.TIM_STEP_NS_NS 0 0 1000000000), 0, by decide +kernel⟩,
   ⟨st ((w0.set Fd.TIM_STEP_NS_NS 0 0 1).set Fd.TIM_STEP_SEC_HI_SIGN 0 0 1), 0, by decide +kernel⟩,
   ⟨st ((w0.set Fd.TIM_STEP_NS_NS 0 0 999999999).set Fd.TIM_STEP_SEC_HI_SEC 0 0 0xFFFF), 0, by decide +kernel⟩,
   ⟨st ({ (w0.set Fd.TIM_STEP_NS_NS 0 0 1).set Fd.TIM_STEP_SEC_HI_SIGN 0 0 1 with tim := { Tim.reset with devT := 2 ^ 48 } }), 0,
    by decide +kernel⟩,
   ⟨st w0, 0, by decide +kernel⟩⟩

theorem witness_RateAndServo :
    (∃ (s : State) (m : Nat), s.chip.serves m (viaOf m) .TIM_RATE_LO 0 0 = true) ∧
    (∃ (s : State) (m : Nat), s.chip.serves m (viaOf m) .TIM_RATE_HI 0 0 = true ∧ s.chip.servo ≠ svHOLDOVER ∧ s.chip.servo ≠
      svSTOPPED ∧ s.chip.get Fd.TIM_CTRL_SERVO_SRC 0 0 = 0) ∧
    (∃ (s : State) (m : Nat) (t0 : Nat) (v : Word), s.chip.serves m (viaOf m) .TIM_OFFSET 0 0 = true ∧ s.chip.get Fd.TIM_CMD_STATUS
      0 0 ≠ sBUSY ∧ s.chip.get Fd.TIM_CTRL_SERVO_SRC 0 0 = 1 ∧ s.chip.servo = svTRACK ∧ s.chip.tim.ref = some t0 ∧ t0 <
      s.chip.ns ∧ (signed 32 v.toNat).natAbs ≤ s.chip.get Fd.TIM_JUMP_THRESH_NS 0 0) ∧
    (∃ (s : State) (m : Nat) (t0 : Nat) (v : Word), s.chip.serves m (viaOf m) .TIM_OFFSET 0 0 = true ∧ s.chip.get Fd.TIM_CMD_STATUS
      0 0 ≠ sBUSY ∧ s.chip.get Fd.TIM_CTRL_SERVO_SRC 0 0 = 1 ∧ s.chip.servo = svTRACK ∧ s.chip.tim.ref = some t0 ∧ t0 <
      s.chip.ns ∧ s.chip.get Fd.TIM_JUMP_THRESH_NS 0 0 < (signed 32 v.toNat).natAbs ∧ s.chip.safe = false) ∧
    (∃ (s : State) (t0 : Nat), s.chip.get Fd.TIM_CTRL_SERVO_SRC 0 0 = 2 ∧ s.chip.running = true ∧ s.chip.servo = svTRACK ∧
      s.chip.tim.ref = some t0 ∧ (if (s.chip.nsec) ≤ 500000000 then (s.chip.nsec) else ((s.chip.nsec) : Int) - 10 ^ 9 :
      Int).natAbs ≤ s.chip.get Fd.TIM_JUMP_THRESH_NS 0 0) ∧
    (∃ (s : State), s.chip.safe = false) :=
  ⟨⟨st w0, 0, by decide +kernel⟩,
   ⟨st (w0), 0, by decide +kernel⟩,
   ⟨st
    ({ (w0.set Fd.TIM_CTRL_SERVO_SRC 0 0 1).set Fd.TIM_STATUS_SERVO_STATE 0 0 1 with tim := { Tim.reset with devT := 1000 * 2 ^ 48, ref := some 0 } }),
    0, 0, 0xFFFFFFFF, by decide +kernel⟩,
   ⟨st
    ({ (w0.set Fd.TIM_CTRL_SERVO_SRC 0 0 1).set Fd.TIM_STATUS_SERVO_STATE 0 0 1 with tim := { Tim.reset with devT := 1000 * 2 ^ 48, ref := some 0 } }),
    0, 0, 0x80000000, by decide +kernel⟩,
   ⟨st
    ({ (w0.set Fd.TIM_CTRL_SERVO_SRC 0 0 2).set Fd.TIM_STATUS_SERVO_STATE 0 0 1 with tim := { Tim.reset with devT := 1000 * 2 ^ 48, ref := some 0 } }),
    0, by decide +kernel⟩,
   ⟨st w0, by decide +kernel⟩⟩

theorem witness_CycleClockEvents :
    (∃ (s : State), s.chip.cycMode = 1 ∧ s.chip.running = true ∧ s.chip.get Fd.TIM_CYC_STATUS_STATE 0 0 = cyACQUIRE ∧
      s.chip.cyc.refT = none ∧ s.chip.anchored = false) ∧
    (∃ (s : State) (t0 : Nat), s.chip.cycMode = 1 ∧ s.chip.running = true ∧ s.chip.get Fd.TIM_CYC_STATUS_STATE 0 0 = cyACQUIRE ∧
      s.chip.cyc.refT = some t0) ∧
    (∃ (s : State), (s.chip.get Fd.TIM_CYC_STATUS_STATE 0 0 = cyLOCKED ∨ s.chip.get Fd.TIM_CYC_STATUS_STATE 0 0 = cyPULLIN) ∧
      s.chip.cyc.refT.getD 0 + (if s.chip.cycMode = 2 then 3 else 2) * s.chip.refSpacing * 2 ^ 48 ≤ s.chip.tim.devT ∧
      s.chip.safe = false) ∧
    (∃ (s : State), s.chip.cycMode = 0 ∧ s.chip.anchored = true ∧ s.chip.get Fd.TIM_CYC_STATUS_STATE 0 0 = cyNOMINAL ∧
      s.chip.cyc.secAt ≠ s.chip.secs) ∧
    (∃ (s : State) (m : Nat), s.chip.serves m (viaOf m) .TIM_CYC_FREQ 0 0 = true ∧ s.chip.cycMode ≠ 3) ∧
    (∃ (s : State) (m : Nat), s.chip.serves m (viaOf m) .TIM_CYC_FREQ 0 0 = true ∧ s.chip.cycMode = 3) :=
  ⟨⟨st (((w0).set Fd.TIM_CYC_CTRL_MODE 0 0 1).set Fd.TIM_CYC_STATUS_STATE 0 0 1 |>.set Fd.TIM_CYC_STATUS_ANCHORED 0 0 0),
    by decide +kernel⟩,
   ⟨st
    ({ (((w0).set Fd.TIM_CYC_CTRL_MODE 0 0 1).set Fd.TIM_CYC_STATUS_STATE 0 0 1 |>.set Fd.TIM_CYC_STATUS_ANCHORED 0 0 0) with cyc := { Cyc.reset with refT := some 0 } }),
    0, by decide +kernel⟩,
   ⟨st
    ({ (((w0).set Fd.TIM_CYC_CTRL_MODE 0 0 1).set Fd.TIM_CYC_STATUS_STATE 0 0 3 |>.set Fd.TIM_CYC_STATUS_ANCHORED 0 0 0) with tim := { Tim.reset with devT := 10 ^ 9 * 2 ^ 48 } }),
    by decide +kernel⟩,
   ⟨st
    ({ (((w0).set Fd.TIM_CYC_CTRL_MODE 0 0 0).set Fd.TIM_CYC_STATUS_STATE 0 0 0 |>.set Fd.TIM_CYC_STATUS_ANCHORED 0 0 1) with tim := { Tim.reset with devT := 10 ^ 9 * 2 ^ 48 } }),
    by decide +kernel⟩,
   ⟨st (w0), 0, by decide +kernel⟩,
   ⟨st (((w0).set Fd.TIM_CYC_CTRL_MODE 0 0 3).set Fd.TIM_CYC_STATUS_STATE 0 0 0 |>.set Fd.TIM_CYC_STATUS_ANCHORED 0 0 0), 0,
    by decide +kernel⟩⟩

theorem witness_EventSlotsAndPins :
    (∃ (s : State) (m : Nat) (k : Nat) (v : Word), s.chip.serves m (viaOf m) .TIM_EVT_CTRL k 0 = true ∧ s.chip.flag
      Fd.TIM_EVT_CTRL_ENABLE k 0 = false ∧ bitOf v.toNat 31 = true ∧ bits 29 29 v.toNat = 0 ∧ (s.chip.stopped 3 0 = true ∨ (∀ r
      ∈ R.TIM_EVT_CTRL.rows, r.f ≠ Fd.TIM_EVT_CTRL_ENABLE → bits r.f.hi r.f.lo v.toNat = s.chip.get r.f k 0))) ∧
    (∃ (s : State) (k : Nat), evtDue s.chip k = true ∧ s.chip.running = true ∧ s.chip.flag Fd.TIM_EVT_CTRL_PERIODIC k 0 = false) ∧
    (∃ (s : State) (k : Nat), evtDue s.chip k = true ∧ s.chip.running = true ∧ s.chip.flag Fd.TIM_EVT_CTRL_PERIODIC k 0 = true) ∧
    (∃ (s : State) (x : Nat) (e : (Nat × Nat) × Nat), s.chip.toutFall.find? (fun e => decide (e.1.1 = x ∧ e.1.2 ≤ s.chip.tim.clk)) =
      some e) ∧
    (∃ (s : State), s.chip.flag Fd.TIM_PPS_CTRL_ENABLE 0 0 = true ∧ s.chip.running = true ∧ s.chip.tim.ppsIdx ≠ ppsIndex s.chip ∧
      s.chip.ppsHeld = false) ∧
    (∃ (s : State), s.chip.tim.ppsFall ≤ s.chip.tim.clk) ∧
    (∃ (s : State) (x : Nat) (w : Nat) (rising : Bool), s.chip.flag Fd.TIM_CAP_CTRL_ENABLE x 0 = true ∧ s.chip.running = true ∧
      s.chip.get Fd.TIM_CAP_CTRL_FILTER_NS x 0 ≤ w ∧ (s.chip.get Fd.TIM_CAP_CTRL_EDGE x 0 = (if rising then 1 else 2) ∨
      s.chip.get Fd.TIM_CAP_CTRL_EDGE x 0 = 3) ∧ (s.chip.caps.get [] x).length < 16) ∧
    (∃ (s : State) (x : Nat) (w : Nat) (rising : Bool), s.chip.flag Fd.TIM_CAP_CTRL_ENABLE x 0 = true ∧ s.chip.running = true ∧
      s.chip.get Fd.TIM_CAP_CTRL_FILTER_NS x 0 ≤ w ∧ (s.chip.get Fd.TIM_CAP_CTRL_EDGE x 0 = (if rising then 1 else 2) ∨
      s.chip.get Fd.TIM_CAP_CTRL_EDGE x 0 = 3) ∧ 16 ≤ (s.chip.caps.get [] x).length) :=
  ⟨⟨st (w0), 0, 255, 0x80000000, by decide +kernel⟩,
   ⟨st ({ w0.set Fd.TIM_EVT_CTRL_ENABLE 255 0 1 with evt := [(255, { EvtRt.init with armed := true })] }), 255, by decide +kernel⟩,
   ⟨st (({ w0.set Fd.TIM_EVT_CTRL_ENABLE 255 0 1 with evt := [(255, { EvtRt.init with armed := true })] } : Chip).set
    Fd.TIM_EVT_CTRL_PERIODIC 255 0 1), 255, by decide +kernel⟩,
   ⟨st ({ w0 with toutFall := [((3, 0), 0)] }), 3, (((3, 0), 0) : (Nat × Nat) × Nat), by decide +kernel⟩,
   ⟨st ({ w0 with tim := { Tim.reset with ppsIdx := 0 } }), by decide +kernel⟩,
   ⟨st w0, by decide +kernel⟩,
   ⟨st ((w0.set Fd.TIM_CAP_CTRL_ENABLE 3 0 1).set Fd.TIM_CAP_CTRL_EDGE 3 0 1), 3, 65535, true, by decide +kernel⟩,
   ⟨st
    ({ (w0.set Fd.TIM_CAP_CTRL_ENABLE 3 0 1).set Fd.TIM_CAP_CTRL_EDGE 3 0 3 with caps := [(3, List.replicate 16 { devT := 0, rising := true, angleValid := false, epoch := 0, acc := 0 })] }),
    3, 65535, true, by decide +kernel⟩⟩

theorem witness_LinkCommandChecks :
    (∃ (s : State) (m : Nat) (n : Nat), s.chip.serves m (viaOf m) .PRT_LINK_CMD n 0 = true ∧ s.chip.get Fd.PRT_LINK_CMD_STATUS n 0 ≠
      sBUSY ∧ s.chip.isFenced 0 n = true) ∧
    (∃ (s : State) (m : Nat) (n : Nat), s.chip.serves m (viaOf m) .PRT_LINK_CMD n 0 = true ∧ s.chip.get Fd.PRT_LINK_CMD_STATUS n 0 ≠
      sBUSY ∧ s.chip.isFenced 0 n = false ∧ s.chip.link n ≠ lDOWN) ∧
    (∃ (s : State) (m : Nat) (n : Nat), s.chip.serves m (viaOf m) .PRT_LINK_CMD n 0 = true ∧ s.chip.get Fd.PRT_LINK_CMD_STATUS n 0 ≠
      sBUSY ∧ s.chip.isFenced 0 n = false ∧ s.chip.link n ≠ lUP) ∧
    (∃ (s : State) (m : Nat) (n : Nat), s.chip.serves m (viaOf m) .PRT_LINK_CMD n 0 = true ∧ s.chip.get Fd.PRT_LINK_CMD_STATUS n 0 ≠
      sBUSY ∧ s.chip.isFenced 0 n = false ∧ s.chip.link n = lDOWN ∧ pairListed (s.chip.get Fd.PRT_LINK_CFG_RATE n 0) (s.chip.get
      Fd.PRT_LINK_CFG_FEC n 0) = false) ∧
    (∃ (s : State) (m : Nat) (n : Nat), s.chip.serves m (viaOf m) .PRT_LINK_CMD n 0 = true ∧ s.chip.get Fd.PRT_LINK_CMD_STATUS n 0 ≠
      sBUSY ∧ s.chip.isFenced 0 n = false ∧ s.chip.link n = lDOWN) :=
  ⟨⟨st ({ w0 with fenced := [(0, 95)] }), 0, 95, by decide +kernel⟩,
   ⟨st (up w0 95), 0, 95, by decide +kernel⟩,
   ⟨st w0, 0, 0, by decide +kernel⟩,
   ⟨st (w0.set Fd.PRT_LINK_CFG_RATE 95 0 7), 0, 95, by decide +kernel⟩,
   ⟨st w0, 0, 0, by decide +kernel⟩⟩

theorem witness_LinkStates :
    (∃ (s : State) (m : Nat) (n : Nat), n < 96 ∧ s.chip.serves m (viaOf m) .PRT_LINK_CMD n 0 = true ∧ s.chip.get
      Fd.PRT_LINK_CMD_STATUS n 0 ≠ sBUSY ∧ s.chip.isFenced 0 n = false ∧ s.chip.link n = lDOWN ∧ pairListed (s.chip.get
      Fd.PRT_LINK_CFG_RATE n 0) (s.chip.get Fd.PRT_LINK_CFG_FEC n 0) = true) ∧
    (∃ (s : State) (m : Nat) (n : Nat), n < 96 ∧ s.chip.serves m (viaOf m) .PRT_LINK_CMD n 0 = true ∧ s.chip.get
      Fd.PRT_LINK_CMD_STATUS n 0 ≠ sBUSY ∧ s.chip.isFenced 0 n = false ∧ s.chip.link n ≠ lDOWN) ∧
    (∃ (s : State) (m : Nat) (n : Nat), n < 96 ∧ s.chip.serves m (viaOf m) .PRT_LINK_CMD n 0 = true ∧ s.chip.get
      Fd.PRT_LINK_CMD_STATUS n 0 ≠ sBUSY ∧ s.chip.isFenced 0 n = false ∧ s.chip.link n = lUP) ∧
    (∃ (n : Nat), n < 96) ∧
    (∃ (s : State) (n : Nat), n < 96 ∧ s.chip.link n = lACQUIRE ∧ s.chip.rxSignal n = true) ∧
    (∃ (s : State) (n : Nat), n < 96 ∧ s.chip.link n = lALIGN ∧ (s.chip.port n).negotiates = true) ∧
    (∃ (s : State) (n : Nat), n < 96 ∧ s.chip.link n = lALIGN ∧ ((s.chip.port n).negotiates = false ∨ (s.chip.port n).anDone =
      true)) ∧
    (∃ (s : State) (n : Nat), n < 96 ∧ s.chip.link n = lUP ∧ s.chip.get Fd.PRT_ERR_BUDGET_WINDOW_MS n 0 = 0) :=
  ⟨⟨st (w0), 0, 95, by decide +kernel⟩,
   ⟨st (w0.set Fd.PRT_LINK_STATUS_STATE 95 0 5), 0, 95, by decide +kernel⟩,
   ⟨st (w0.set Fd.PRT_LINK_STATUS_STATE 95 0 5), 0, 95, by decide +kernel⟩,
   ⟨95, by decide +kernel⟩,
   ⟨st ((w0.set Fd.PRT_LINK_STATUS_STATE 95 0 3).set Fd.PRT_LINK_STATUS_RX_SIGNAL 95 0 1), 95, by decide +kernel⟩,
   ⟨st ((w0.set Fd.PRT_LINK_STATUS_STATE 95 0 4).setPort 95 { PortRt.init with rate := 0 }), 95, by decide +kernel⟩,
   ⟨st (w0.set Fd.PRT_LINK_STATUS_STATE 95 0 4), 95, by decide +kernel⟩,
   ⟨st (w0.set Fd.PRT_LINK_STATUS_STATE 95 0 5), 95, by decide +kernel⟩⟩

theorem witness_PortUnits :
    (∃ (s : State) (n : Nat), s.chip.get Fd.PRT_ERR_BUDGET_WINDOW_MS n 0 ≠ 0) ∧
    (∃ (s : State) (m : Nat) (n : Nat), s.chip.serves m (viaOf m) .PRT_ERR_BUDGET n 0 = true) ∧
    (∃ (s : State) (n : Nat), s.chip.link n = lUP ∧ (s.chip.verifyState n = 1 ∨ s.chip.verifyState n = 2)) ∧
    (∃ (s : State) (n : Nat), s.chip.link n = lUP ∧ (s.chip.verifyState n = 1 ∨ s.chip.verifyState n = 2) ∧ max 1 (s.chip.get
      Fd.PRT_PMAC_CTRL_VERIFY_LIMIT n 0) ≤ (s.chip.port n).verify + 1) ∧
    (∃ (s : State) (m : Nat) (n : Nat), s.chip.serves m (viaOf m) .PRT_MACSEC_CTRL n 0 = true ∧ s.chip.sku = 0 ∧ s.chip.stopped 0 n
      = true) :=
  ⟨⟨st (w0.set Fd.PRT_ERR_BUDGET_WINDOW_MS 95 0 255), 95, by decide +kernel⟩,
   ⟨st (w0), 0, 95, by decide +kernel⟩,
   ⟨st ((w0.set Fd.PRT_LINK_STATUS_STATE 95 0 5).set Fd.PRT_PMAC_CTRL_EN 95 0 1), 95, by decide +kernel⟩,
   ⟨st (((w0.set Fd.PRT_LINK_STATUS_STATE 95 0 5).set Fd.PRT_PMAC_CTRL_EN 95 0 1).setPort 95 { PortRt.init with verify := 253 }),
    95, by decide +kernel⟩,
   ⟨st (stp w0 0 95), 0, 95, by decide +kernel⟩⟩

theorem witness_ManualSwap :
    (∃ (s : State) (m : Nat) (e : Nat) (slot : Nat), s.chip.serves m (viaOf m) .OPT_SPARE_CMD e 0 = true ∧ s.chip.bus.kgOpen = true
      ∧ s.chip.get Fd.OPT_SPARE_CMD_STATUS e 0 ≠ sBUSY ∧ slot < 4 ∧ s.chip.pins.intlkN = true) ∧
    (∃ (s : State) (m : Nat) (e : Nat) (slot : Nat), s.chip.serves m (viaOf m) .OPT_SPARE_CMD e 0 = true ∧ s.chip.bus.kgOpen = true
      ∧ s.chip.get Fd.OPT_SPARE_CMD_STATUS e 0 ≠ sBUSY ∧ slot < 4 ∧ s.chip.pins.intlkN = false ∧ s.chip.sparesLeft e = 0) ∧
    (∃ (s : State) (m : Nat) (e : Nat) (slot : Nat), s.chip.serves m (viaOf m) .OPT_SPARE_CMD e 0 = true ∧ s.chip.bus.kgOpen = true
      ∧ s.chip.get Fd.OPT_SPARE_CMD_STATUS e 0 ≠ sBUSY ∧ slot < 4 ∧ s.chip.pins.intlkN = false ∧ s.chip.sparesLeft e ≠ 0 ∧
      (s.chip.eng e).cur = none) ∧
    (∃ (s : State) (m : Nat) (e : Nat) (slot : Nat) (w : SwapRt), s.chip.serves m (viaOf m) .OPT_SPARE_CMD e 0 = true ∧
      s.chip.bus.kgOpen = true ∧ s.chip.get Fd.OPT_SPARE_CMD_STATUS e 0 ≠ sBUSY ∧ slot < 4 ∧ s.chip.pins.intlkN = false ∧
      s.chip.sparesLeft e ≠ 0 ∧ (s.chip.eng e).cur = some w) :=
  ⟨⟨st (kg), 0, 7, 3, by decide +kernel⟩,
   ⟨st ({ (kg.set Fd.OPT_SPARE_MAP_SPARES_LEFT 7 0 0) with pins := { w0.pins with intlkN := false } }), 0, 7, 3, by decide +kernel⟩,
   ⟨st ({ (kg.set Fd.PRT_LINK_STATUS_STATE 95 0 5) with pins := { w0.pins with intlkN := false } }), 0, 7, 3, by decide +kernel⟩,
   ⟨st
    ({ ((kg).setEng 7 { EngRt.init with cur := some { slot := 3, old := 3, new := 4, emerg := true, phase := 1 } }) with pins := { w0.pins with intlkN := false } }),
    0, 7, 3, ({ slot := 3, old := 3, new := 4, emerg := true, phase := 1 } : SwapRt), by decide +kernel⟩⟩

theorem witness_SourcesAndInterlock :
    (∃ (s : State) (e : Nat) (w : SwapRt), (s.chip.eng e).cur = some w ∧ w.phase = 1 ∧ w.emerg = true) ∧
    (∃ (s : State) (e : Nat) (w : SwapRt), (s.chip.eng e).cur = some w ∧ w.phase = 2) ∧
    (∃ (s : State) (e : Nat) (w : SwapRt), (s.chip.eng e).cur = some w ∧ w.phase = 3 ∧ (s.chip.eng e).waiting = [] ∧ w.slot < 4 ∧
      w.old < 6 ∧ w.new < 6 ∧ w.old ≠ w.new ∧ s.chip.safe = false ∧ (s.chip.srcState e w.new = srcSPARE ∨ s.chip.srcState e
      w.new = srcACTIVE)) ∧
    (∃ (s : State) (e : Nat) (src : Nat) (bias : Nat) (slot : Nat), e < 8 ∧ src < 6 ∧ s.chip.running = true ∧ s.chip.slotLit e src =
      some slot ∧ s.chip.sparesLeft e ≠ 0 ∧ s.chip.srcState e src = srcACTIVE ∧ max 110 (s.chip.get Fd.OPT_SPARE_CTRL_BIAS_LIMIT
      e 0) < bias ∧ s.chip.flag Fd.OPT_SPARE_CTRL_AUTO e 0 = false) ∧
    (∃ (s : State) (e : Nat) (src : Nat) (slot : Nat), e < 8 ∧ src < 6 ∧ s.chip.running = true ∧ s.chip.slotLit e src = some slot ∧
      s.chip.sparesLeft e ≠ 0 ∧ s.chip.srcState e src ≠ srcFAILED ∧ s.chip.srcState e src ≠ srcRETIRED ∧ s.chip.pins.intlkN =
      false ∧ (s.chip.eng e).cur = none) ∧
    (∃ (s : State), s.chip.pins.intlkN = true) ∧
    (∃ (s : State), s.chip.pins.intlkN = false ∧ (∀ (d : Nat) (u : SwapRt), (s.chip.eng d).cur = some u → u.phase = 1 ∨
      (s.chip.srcState d u.new ≠ srcFAILED ∧ s.chip.srcState d u.new ≠ srcDEGRADED))) ∧
    (∃ (s : State), s.chip.pins.intlkN = true ∧ s.chip.engs = []) :=
  ⟨⟨st ((w0).setEng 7 { EngRt.init with cur := some { slot := 3, old := 3, new := 4, emerg := true, phase := 1 } }), 7,
    { slot := 3, old := 3, new := 4, emerg := true, phase := 1 }, by decide +kernel⟩,
   ⟨st ((w0).setEng 7 { EngRt.init with cur := some { slot := 3, old := 3, new := 4, emerg := true, phase := 2 } }), 7,
    { slot := 3, old := 3, new := 4, emerg := true, phase := 2 }, by decide +kernel⟩,
   ⟨st ((w0).setEng 7 { EngRt.init with cur := some { slot := 3, old := 3, new := 4, emerg := true, phase := 3 } }), 7,
    { slot := 3, old := 3, new := 4, emerg := true, phase := 3 }, by decide +kernel⟩,
   ⟨st (w0.set Fd.OPT_SPARE_CTRL_AUTO 7 0 0), 7, 3, 300, 3, by decide +kernel⟩,
   ⟨st ({ (w0) with pins := { w0.pins with intlkN := false } }), 7, 3, 3, by decide +kernel⟩,
   ⟨st ({ w0 with pins := { w0.pins with intlkN := true } }), by decide +kernel⟩,
   ⟨st ({ (up w0 95) with pins := { w0.pins with intlkN := false } }), rfl, fun _ _ h => nomatch h⟩,
   ⟨st (w0.set Fd.PRT_LINK_STATUS_STATE 95 0 1), by decide +kernel⟩⟩

theorem witness_RedundancyAndBankCommands :
    (∃ (s : State) (m : Nat) (k : Nat), s.chip.serves m (viaOf m) .RED_ROLE_CMD 0 0 = true ∧ s.chip.get Fd.RED_ROLE_CMD_STATUS 0 0 ≠
      sBUSY ∧ s.chip.priv m = true ∧ k < 48 ∧ s.chip.pairA k < 96 ∧ s.chip.pairB k < 96 ∧ s.chip.isFenced 0 (s.chip.pairA k) =
      false ∧ s.chip.isFenced 0 (s.chip.pairB k) = false ∧ s.chip.stopped 0 (s.chip.pairA k) = true ∧ s.chip.stopped 0
      (s.chip.pairB k) = true ∧ s.chip.pairActive k = false ∧ (s.chip.pairRole k = 1 ∨ s.chip.pairRole k = 2) ∧ s.chip.pairA k ≠
      s.chip.pairB k ∧ s.chip.pairSplit (s.chip.pairA k) (s.chip.pairB k) = false ∧ s.chip.pairOf (s.chip.pairA k) = none ∧
      s.chip.pairOf (s.chip.pairB k) = none ∧ s.chip.quadBad k = false ∧ s.chip.stairOf (s.chip.pairA k) = none ∧ s.chip.stairOf
      (s.chip.pairB k) = none) ∧
    (∃ (s : State) (m : Nat) (k : Nat), s.chip.serves m (viaOf m) .RED_ROLE_CMD 0 0 = true ∧ s.chip.get Fd.RED_ROLE_CMD_STATUS 0 0 ≠
      sBUSY ∧ s.chip.priv m = true ∧ k < 48 ∧ s.chip.pairA k < 96 ∧ s.chip.pairB k < 96 ∧ s.chip.isFenced 0 (s.chip.pairA k) =
      false ∧ s.chip.isFenced 0 (s.chip.pairB k) = false ∧ s.chip.stopped 0 (s.chip.pairA k) = true ∧ s.chip.stopped 0
      (s.chip.pairB k) = true ∧ s.chip.pairActive k = true) ∧
    (∃ (s : State) (k : Nat), s.chip.supOn k = true) ∧
    (∃ (s : State) (k : Nat) (i : Nat) (ws : List Nat), s.chip.supOn k = true ∧ s.chip.flag Fd.RED_PAIR_CFG_PROXY_SUP k 0 = true ∧
      s.chip.entry tDUP i = some ws ∧ tblValid tDUP ws = true ∧ dupKind ws = kGENERATOR ∧ dupPair ws = k) ∧
    (∃ (s : State) (m : Nat) (b : Nat), s.chip.serves m (viaOf m) .ATR_BANK_CMD 0 0 = true ∧ s.chip.bus.kgOpen = true ∧ s.chip.get
      Fd.ATR_BANK_CMD_STATUS 0 0 ≠ sBUSY ∧ b < 64 ∧ s.chip.bankRetired b = false) ∧
    (∃ (s : State) (m : Nat) (b : Nat), s.chip.serves m (viaOf m) .ATR_BANK_CMD 0 0 = true ∧ s.chip.bus.kgOpen = true ∧ s.chip.get
      Fd.ATR_BANK_CMD_STATUS 0 0 ≠ sBUSY ∧ b < 64 ∧ s.chip.bankRetired b = true) ∧
    (∃ (s : State) (m : Nat) (k : Nat), s.chip.serves m (viaOf m) .ATR_MIR_SEED 0 0 = true ∧ s.chip.priv m = true ∧ 1 ≤ k ∧ k ≤ 15) :=
  ⟨⟨st ((((stp (stp w0 0 95) 0 94).set Fd.RED_PAIR_CFG_PORT_A 47 0 94).set Fd.RED_PAIR_CFG_PORT_B 47 0 95).set Fd.RED_PAIR_CFG_ROLE
    47 0 1), 0, 47, by decide +kernel⟩,
   ⟨st (((((stp (stp w0 0 95) 0 94).set Fd.RED_PAIR_CFG_PORT_A 47 0 94).set Fd.RED_PAIR_CFG_PORT_B 47 0 95).set
    Fd.RED_PAIR_CFG_ROLE 47 0 1).set Fd.RED_PAIR_CFG_ACTIVE 47 0 1), 0, 47, by decide +kernel⟩,
   ⟨st ((((((w0).set Fd.RED_PAIR_CFG_PORT_A 47 0 94).set Fd.RED_PAIR_CFG_PORT_B 47 0 95).set Fd.RED_PAIR_CFG_ROLE 47 0 1).set
    Fd.RED_PAIR_CFG_ACTIVE 47 0 1).set Fd.RED_PAIR_SUP_SUP_EN 47 0 1), 47, by decide +kernel⟩,
   ⟨st
    ({ ((((((w0).set Fd.RED_PAIR_CFG_PORT_A 47 0 94).set Fd.RED_PAIR_CFG_PORT_B 47 0 95).set Fd.RED_PAIR_CFG_ROLE 47 0 1).set Fd.RED_PAIR_CFG_ACTIVE 47 0 1).set Fd.RED_PAIR_SUP_SUP_EN 47 0 1).set Fd.RED_PAIR_CFG_PROXY_SUP 47 0 1 with tbl := [((5, 9), [0x80000000 + 2 ^ 29 + 47 * 2 ^ 16, 0, 0, 0])] }),
    47, 9, [0x80000000 + 2 ^ 29 + 47 * 2 ^ 16, 0, 0, 0], by decide +kernel⟩,
   ⟨st (holds kg { wfr with cells := [15, 31, 16 * 48 + 15, 3] }), 0, 63, by decide +kernel⟩,
   ⟨st (kg.set Fd.ATR_BANK_MAP_MAP 1 0 0x80000000), 0, 63, by decide +kernel⟩,
   ⟨st (w0), 0, 15, by decide +kernel⟩⟩

theorem witness_GalleryAdjacency :
    (∃ (s : State) (k : Nat), s.chip.galRuns = true ∧ s.chip.stairOpen k = true ∧ s.chip.sec.idScalar ≠ 0 ∧ s.chip.drbgReady = true) ∧
    (∃ (s : State) (k : Nat) (h : Hello), s.chip.galOn = true ∧ s.chip.stairOpen k = true ∧ s.chip.helloOk h = true ∧
      s.chip.stairState k = glPROBE ∧ s.chip.flag Fd.GAL_LINK_CFG_ADMIT_MODE k 0 = false) ∧
    (∃ (s : State) (k : Nat) (h : Hello), s.chip.galOn = true ∧ s.chip.stairOpen k = true ∧ s.chip.helloOk h = false ∧
      s.chip.stairState k = glUP) ∧
    (∃ (s : State) (k : Nat), k < 32 ∧ s.chip.stairState k = glUP) ∧
    (∃ (s : State) (m : Nat) (k : Nat), s.chip.serves m (viaOf m) .GAL_LINK_CFG k 0 = true ∧ s.chip.stairState k = glWAIT ∧
      (s.chip.stairValid k = true → s.chip.stairTaken k (s.chip.stairPort k) = false)) ∧
    (∃ (s : State) (m : Nat) (k : Nat) (v : Word), s.chip.serves m (viaOf m) .GAL_LINK_CFG k 0 = true ∧ s.chip.stopped 4 0 = true ∧
      bitOf v.toNat 31 = true ∧ bitOf v.toNat 29 = false ∧ k < 32 ∧ s.chip.stairTaken k (bits 6 0 v.toNat) = false ∧
      s.chip.stairValid k = false) ∧
    (∃ (s : State), s.chip.galOn = true ∧ s.chip.flag Fd.GAL_CTRL_AUTO_REELECT 0 0 = true ∧ s.chip.galState = gsORPHAN) ∧
    (∃ (s : State) (dst : Nat) (flow : Nat) (e : SprayEnt), s.chip.gal.spray.find dst flow = some e ∧ e.last + 2000000 ≤
      s.chip.tim.clk) :=
  ⟨⟨st
    ({ ((((((w0).set Fd.GAL_CTRL_ENABLE 0 0 1).set Fd.GAL_LINK_CFG_VALID 31 0 1).set Fd.GAL_LINK_CFG_PORT 31 0 95).set Fd.GAL_LINK_STATUS_STATE 31 0 1).set Fd.PRT_LINK_STATUS_STATE 95 0 5).set Fd.SEC_RNG_STATUS_STATE 0 0 2 with sec := { w0.sec with idScalar := 7 } }),
    31, by decide +kernel⟩,
   ⟨st
    ({ (((((w0).set Fd.GAL_CTRL_ENABLE 0 0 1).set Fd.GAL_LINK_CFG_VALID 31 0 1).set Fd.GAL_LINK_CFG_PORT 31 0 95).set Fd.GAL_LINK_STATUS_STATE 31 0 1).set Fd.PRT_LINK_STATUS_STATE 95 0 5 with gal := { Gal.reset with lastHello := [(5, { dev := 5, prio := 0, flags := 0, req := 0, addr := 3, link := 2, localPort := 9, signSeq := 1, epoch := 0, px := 0, py := 0, r := 1, s := 1, live := 1 })] } }),
    31,
    { dev := 5, prio := 0, flags := 0, req := 0, addr := 3, link := 2, localPort := 9, signSeq := 1, epoch := 0, px := 0, py := 0, r := 1, s := 1, live := 2 },
    by decide +kernel⟩,
   ⟨st ((((((w0).set Fd.GAL_CTRL_ENABLE 0 0 1).set Fd.GAL_LINK_CFG_VALID 31 0 1).set Fd.GAL_LINK_CFG_PORT 31 0 95).set
    Fd.GAL_LINK_STATUS_STATE 31 0 3).set Fd.PRT_LINK_STATUS_STATE 95 0 5), 31,
    { dev := 5, prio := 0, flags := 0, req := 0, addr := 3, link := 2, localPort := 9, signSeq := 1, epoch := 0, px := 0, py := 0, r := 1, s := 1, live := 2 },
    by decide +kernel⟩,
   ⟨st ((((((w0).set Fd.GAL_CTRL_ENABLE 0 0 1).set Fd.GAL_LINK_CFG_VALID 31 0 1).set Fd.GAL_LINK_CFG_PORT 31 0 95).set
    Fd.GAL_LINK_STATUS_STATE 31 0 3).set Fd.PRT_LINK_STATUS_STATE 95 0 5), 31, by decide +kernel⟩,
   ⟨st ((((((w0).set Fd.GAL_CTRL_ENABLE 0 0 1).set Fd.GAL_LINK_CFG_VALID 31 0 1).set Fd.GAL_LINK_CFG_PORT 31 0 95).set
    Fd.GAL_LINK_STATUS_STATE 31 0 2).set Fd.PRT_LINK_STATUS_STATE 95 0 5), 0, 31, by decide +kernel⟩,
   ⟨st ((stp w0 4 0).set Fd.GAL_CTRL_ENABLE 0 0 1), 0, 31, 0x8000005F, by decide +kernel⟩,
   ⟨st (((w0.set Fd.GAL_CTRL_ENABLE 0 0 1).set Fd.GAL_CTRL_AUTO_REELECT 0 0 1).set Fd.GAL_STATUS_STATE 0 0 4), by decide +kernel⟩,
   ⟨st
    ({ { w0 with gal := { Gal.reset with spray := [((3, 4), { seq := 1, born := 0, copies := 1, last := 0, rr := 0 })] } } with tim := { Tim.reset with clk := 2000000 } }),
    3, 4, { seq := 1, born := 0, copies := 1, last := 0, rr := 0 }, by decide +kernel⟩⟩

theorem witness_GalleryReportsAndEpochs :
    (∃ (s : State), s.chip.galRuns = true ∧ s.chip.stairs.any s.chip.stairUp = true) ∧
    (∃ (s : State) (k : Nat) (r : Report), s.chip.galOn = true ∧ s.chip.stairOpen k = true ∧ s.chip.stairState k = glUP ∧ r.dev ≠
      s.chip.uid ∧ (∀ x, s.chip.gal.reports.find r.dev = some x → x.seq < r.seq)) ∧
    (∃ (s : State) (dev : Nat) (x : Report), s.chip.gal.reports.find dev = some x ∧ s.chip.gal.repTime.get 0 dev + 400000000 ≤
      s.chip.tim.clk) ∧
    (∃ (s : State), s.chip.galOn = true ∧ s.chip.galState = gsELECT ∧ s.chip.gal.viewAt + max 1 (s.chip.get Fd.GAL_TIMERS_SETTLE_MS
      0 0) * 1000000 ≤ s.chip.tim.clk) ∧
    (∃ (s : State) (m : Nat), s.chip.serves m (viaOf m) .GAL_CMD 0 0 = true ∧ s.chip.get Fd.GAL_CMD_STATUS 0 0 ≠ sBUSY ∧
      s.chip.galState = gsORPHAN) ∧
    (∃ (s : State) (m : Nat), s.chip.serves m (viaOf m) .GAL_CMD 0 0 = true ∧ s.chip.get Fd.GAL_CMD_STATUS 0 0 ≠ sBUSY ∧
      s.chip.galState ≠ gsORPHAN) ∧
    (∃ (s : State) (m : Nat), s.chip.serves m (viaOf m) .GAL_CMD 0 0 = true ∧ s.chip.get Fd.GAL_CMD_STATUS 0 0 ≠ sBUSY ∧
      s.chip.gal.keeper = s.chip.uid ∧ s.chip.gal.keeper ≠ 0) ∧
    (∃ (s : State), s.chip.galRuns = true ∧ s.chip.gal.keeper = s.chip.uid ∧ s.chip.gal.keeper ≠ 0 ∧ s.chip.gal.due ≠ 0 ∧
      s.chip.gal.phase ≠ 1 ∧ s.chip.sec.idScalar ≠ 0 ∧ s.chip.drbgReady = true ∧ s.chip.gal.standbyId = 0) ∧
    (∃ (s : State), s.chip.galRuns = true ∧ s.chip.gal.keeper = s.chip.uid ∧ s.chip.gal.keeper ≠ 0 ∧ s.chip.gal.due ≠ 0 ∧
      s.chip.gal.phase ≠ 1 ∧ s.chip.sec.idScalar ≠ 0 ∧ s.chip.drbgReady = true ∧ s.chip.gal.standbyId ≠ 0) ∧
    (∃ (s : State) (k : Nat) (num : Nat) (i : Nat), s.chip.galOn = true ∧ s.chip.stairOpen k = true ∧ s.chip.stairState k = glUP ∧
      (s.chip.get Fd.GAL_EPOCH_NUMBER 0 0 = 0 → (num, 2 ^ 32 + i) ∉ s.chip.gal.seen) ∧ s.chip.gal.segNum ≤ num ∧
      s.chip.gal.closes = []) ∧
    (∃ (s : State) (e : Epoch), s.chip.gal.building = some e ∧ s.chip.gal.phase = 1 ∧ s.chip.gal.tries < 2) ∧
    (∃ (s : State) (e : Epoch), s.chip.gal.building = some e ∧ s.chip.gal.phase = 1 ∧ 2 ≤ s.chip.gal.tries) ∧
    (∃ (s : State) (e : Epoch), s.chip.gal.ready.find? (fun x => decide (x.applyAt ≤ s.chip.ns)) = some e ∧ s.chip.galOn = true ∧
      s.chip.get Fd.GAL_EPOCH_NUMBER 0 0 < e.number ∧ e.number < 2 ^ 32) :=
  ⟨⟨st ((((((w0).set Fd.GAL_CTRL_ENABLE 0 0 1).set Fd.GAL_LINK_CFG_VALID 31 0 1).set Fd.GAL_LINK_CFG_PORT 31 0 95).set
    Fd.GAL_LINK_STATUS_STATE 31 0 3).set Fd.PRT_LINK_STATUS_STATE 95 0 5), by decide +kernel⟩,
   ⟨st
    ({ (((((w0).set Fd.GAL_CTRL_ENABLE 0 0 1).set Fd.GAL_LINK_CFG_VALID 31 0 1).set Fd.GAL_LINK_CFG_PORT 31 0 95).set Fd.GAL_LINK_STATUS_STATE 31 0 3).set Fd.PRT_LINK_STATUS_STATE 95 0 5 with gal := { Gal.reset with reports := [(5, { dev := 5, prio := 0, req := 0, flags := 0, keyHash := 0, seq := 1, links := [], epoch := 0, ack := 0, passTo := 0 })] } }),
    31, { dev := 5, prio := 0, req := 0, flags := 0, keyHash := 0, seq := 2, links := [], epoch := 0, ack := 0, passTo := 0 },
    by decide +kernel⟩,
   ⟨st
    ({ { (((((w0).set Fd.GAL_CTRL_ENABLE 0 0 1).set Fd.GAL_LINK_CFG_VALID 31 0 1).set Fd.GAL_LINK_CFG_PORT 31 0 95).set Fd.GAL_LINK_STATUS_STATE 31 0 3).set Fd.PRT_LINK_STATUS_STATE 95 0 5 with gal := { Gal.reset with reports := [(5, { dev := 5, prio := 0, req := 0, flags := 0, keyHash := 0, seq := 1, links := [], epoch := 0, ack := 0, passTo := 0 })] } } with tim := { Tim.reset with clk := 400000000 } }),
    5, { dev := 5, prio := 0, req := 0, flags := 0, keyHash := 0, seq := 1, links := [], epoch := 0, ack := 0, passTo := 0 },
    by decide +kernel⟩,
   ⟨st
    ({ ((((((w0).set Fd.GAL_CTRL_ENABLE 0 0 1).set Fd.GAL_LINK_CFG_VALID 31 0 1).set Fd.GAL_LINK_CFG_PORT 31 0 95).set Fd.GAL_LINK_STATUS_STATE 31 0 3).set Fd.PRT_LINK_STATUS_STATE 95 0 5).set Fd.GAL_STATUS_STATE 0 0 2 with tim := { Tim.reset with clk := 10 ^ 10 } }),
    by decide +kernel⟩,
   ⟨st (w0.set Fd.GAL_STATUS_STATE 0 0 4), 0, by decide +kernel⟩,
   ⟨st w0, 0, by decide +kernel⟩,
   ⟨st
    ({ ((((((w0).set Fd.GAL_CTRL_ENABLE 0 0 1).set Fd.GAL_LINK_CFG_VALID 31 0 1).set Fd.GAL_LINK_CFG_PORT 31 0 95).set Fd.GAL_LINK_STATUS_STATE 31 0 3).set Fd.PRT_LINK_STATUS_STATE 95 0 5).set Fd.SEC_RNG_STATUS_STATE 0 0 2 with sec := { w0.sec with idScalar := 7, sensed := [(5, 7)] }, gal := { Gal.reset with keeper := 7, due := 1, standbyId := 0 } }),
    0, by decide +kernel⟩,
   ⟨st
    ({ ((((((w0).set Fd.GAL_CTRL_ENABLE 0 0 1).set Fd.GAL_LINK_CFG_VALID 31 0 1).set Fd.GAL_LINK_CFG_PORT 31 0 95).set Fd.GAL_LINK_STATUS_STATE 31 0 3).set Fd.PRT_LINK_STATUS_STATE 95 0 5).set Fd.SEC_RNG_STATUS_STATE 0 0 2 with sec := { w0.sec with idScalar := 7, sensed := [(5, 7)] }, gal := { Gal.reset with keeper := 7, due := 1, standbyId := 0 } }),
    by decide +kernel⟩,
   ⟨st
    ({ ((((((w0).set Fd.GAL_CTRL_ENABLE 0 0 1).set Fd.GAL_LINK_CFG_VALID 31 0 1).set Fd.GAL_LINK_CFG_PORT 31 0 95).set Fd.GAL_LINK_STATUS_STATE 31 0 3).set Fd.PRT_LINK_STATUS_STATE 95 0 5).set Fd.SEC_RNG_STATUS_STATE 0 0 2 with sec := { w0.sec with idScalar := 7, sensed := [(5, 7)] }, gal := { Gal.reset with keeper := 7, due := 1, standbyId := 9 } }),
    by decide +kernel⟩,
   ⟨st ((((((w0).set Fd.GAL_CTRL_ENABLE 0 0 1).set Fd.GAL_LINK_CFG_VALID 31 0 1).set Fd.GAL_LINK_CFG_PORT 31 0 95).set
    Fd.GAL_LINK_STATUS_STATE 31 0 3).set Fd.PRT_LINK_STATUS_STATE 95 0 5), 31, 7, 2, by decide +kernel⟩,
   ⟨st ({ w0 with gal := { Gal.reset with building := some { number := 1, recs := [], applyAt := 0 }, phase := 1, tries := 1 } }),
    { number := 1, recs := [], applyAt := 0 }, by decide +kernel⟩,
   ⟨st
    ({ w0 with gal := { Gal.reset with building := some { number := 1, recs := [], applyAt := 0 }, phase := 1, tries := 2, standbyId := 9 } }),
    { number := 1, recs := [], applyAt := 0 }, by decide +kernel⟩,
   ⟨st
    ({ (((((w0).set Fd.GAL_CTRL_ENABLE 0 0 1).set Fd.GAL_LINK_CFG_VALID 31 0 1).set Fd.GAL_LINK_CFG_PORT 31 0 95).set Fd.GAL_LINK_STATUS_STATE 31 0 3).set Fd.PRT_LINK_STATUS_STATE 95 0 5 with gal := { Gal.reset with ready := [{ number := 1, recs := [], applyAt := 0 }] } }),
    { number := 1, recs := [], applyAt := 0 }, by decide +kernel⟩⟩

theorem witness_HallCommands :
    (∃ (s : State) (h : Nat), s.chip.running = true ∧ 0 < h ∧ h < 32 ∧ s.chip.hallPresent h = true) ∧
    (∃ (s : State), s.chip.running = true) ∧
    (∃ (s : State) (m : Nat) (n : Nat), s.chip.serves m (viaOf m) .GLB_PORT_OWN n 0 = true ∧ s.chip.quiesced 0 n = true) ∧
    (∃ (s : State) (m : Nat) (n : Nat), s.chip.serves m (viaOf m) .GLB_PORT_OWN n 0 = true ∧ s.chip.quiesced 0 n = false) ∧
    (∃ (s : State) (m : Nat) (h : Nat), s.chip.serves m (viaOf m) .GLB_HALL_CMD 0 0 = true ∧ s.chip.get Fd.GLB_HALL_CMD_STATUS 0 0 ≠
      sBUSY ∧ s.chip.priv m = true ∧ 0 < h ∧ h < 32 ∧ s.chip.hallPresent h = true ∧ s.chip.hallState h = 1) ∧
    (∃ (s : State) (m : Nat) (h : Nat), s.chip.serves m (viaOf m) .GLB_HALL_CMD 0 0 = true ∧ s.chip.get Fd.GLB_HALL_CMD_STATUS 0 0 ≠
      sBUSY ∧ s.chip.priv m = true ∧ 0 < h ∧ h < 32 ∧ s.chip.hallPresent h = true ∧ s.chip.hallState h = 2) ∧
    (∃ (s : State) (m : Nat) (h : Nat), s.chip.serves m (viaOf m) .GLB_HALL_CMD 0 0 = true ∧ s.chip.get Fd.GLB_HALL_CMD_STATUS 0 0 ≠
      sBUSY ∧ s.chip.priv m = true ∧ 0 < h ∧ h < 32 ∧ s.chip.hallPresent h = true ∧ s.chip.hallState h = 3 ∧ s.chip.hallAddr %
      64 = 0) ∧
    (∃ (s : State) (m : Nat) (h : Nat), s.chip.serves m (viaOf m) .GLB_HALL_CMD 0 0 = true ∧ s.chip.get Fd.GLB_HALL_CMD_STATUS 0 0 ≠
      sBUSY ∧ s.chip.priv m = true ∧ 0 < h ∧ h < 32 ∧ s.chip.hallPresent h = true ∧ s.chip.hallState h = 1 ∧ s.chip.hallAddr %
      64 = 0) ∧
    (∃ (s : State) (m : Nat) (h : Nat), s.chip.serves m (viaOf m) .GLB_HALL_CMD 0 0 = true ∧ s.chip.get Fd.GLB_HALL_CMD_STATUS 0 0 ≠
      sBUSY ∧ s.chip.priv m = true ∧ 0 < h ∧ h < 32 ∧ s.chip.hallPresent h = true ∧ s.chip.hallState h = 3) ∧
    (∃ (s : State) (m : Nat) (h : Nat), s.chip.serves m (viaOf m) .GLB_HALL_CMD 0 0 = true ∧ s.chip.get Fd.GLB_HALL_CMD_STATUS 0 0 ≠
      sBUSY ∧ s.chip.priv m = true ∧ 0 < h ∧ h < 32 ∧ s.chip.hallPresent h = true ∧ (s.chip.hallState h = 2 ∨ s.chip.hallState h
      = 3)) ∧
    (∃ (s : State) (h : Nat), s.chip.ctl.hallJob = some (opOPEN, h)) ∧
    (∃ (s : State) (h : Nat), s.chip.ctl.hallJob = some (opFREEZE, h) ∧ s.chip.quiet 5 h = true ∧ (∀ n ∈ s.chip.exclusive h,
      s.chip.quiet 0 n = true)) ∧
    (∃ (s : State) (h : Nat), s.chip.ctl.hallJob = some (opSAVE, h) ∧ (s.chip.hallImage h (s.chip.flag Fd.GLB_HALL_CMD_CNT 0 0)
      (s.chip.flag Fd.GLB_HALL_CMD_DYN 0 0)).length ≤ s.chip.get Fd.GLB_HALL_LEN_LEN 0 0) ∧
    (∃ (s : State) (h : Nat), s.chip.ctl.hallJob = some (opRESTORE, h)) ∧
    (∃ (s : State) (h : Nat), s.chip.ctl.hallJob = some (opTHAW, h) ∧ (s.chip.hallRt h).savedUp = []) ∧
    (∃ (s : State) (h : Nat), s.chip.ctl.hallJob = some (opCLOSE, h)) :=
  ⟨⟨st (w0), 31, by decide +kernel⟩,
   ⟨st w0, by decide +kernel⟩,
   ⟨st (stp w0 0 95), 0, 95, by decide +kernel⟩,
   ⟨st (w0), 0, 95, by decide +kernel⟩,
   ⟨st (w0.set Fd.HAL_ID_STATE 31 0 1), 0, 31, by decide +kernel⟩,
   ⟨st (w0.set Fd.HAL_ID_STATE 31 0 2), 0, 31, by decide +kernel⟩,
   ⟨st (w0.set Fd.HAL_ID_STATE 31 0 3), 0, 31, by decide +kernel⟩,
   ⟨st (w0.set Fd.HAL_ID_STATE 31 0 1), 0, 31, by decide +kernel⟩,
   ⟨st (w0.set Fd.HAL_ID_STATE 31 0 3), 0, 31, by decide +kernel⟩,
   ⟨st (w0.set Fd.HAL_ID_STATE 31 0 2), 0, 31, by decide +kernel⟩,
   ⟨st ({ w0 with ctl := { w0.ctl with hallJob := some (1, 31) } }), 31, by decide +kernel⟩,
   ⟨st ({ w0 with ctl := { w0.ctl with hallJob := some (2, 31) } }), 31, by decide +kernel⟩,
   ⟨st ({ w0.set Fd.GLB_HALL_LEN_LEN 0 0 0xFFFFFFFF with ctl := { w0.ctl with hallJob := some (3, 31) } }), 31, by decide +kernel⟩,
   ⟨st ({ w0 with ctl := { w0.ctl with hallJob := some (4, 31) } }), 31, by decide +kernel⟩,
   ⟨st ({ w0 with ctl := { w0.ctl with hallJob := some (5, 31) } }), 31, by decide +kernel⟩,
   ⟨st ({ w0 with ctl := { w0.ctl with hallJob := some (6, 31) } }), 31, by decide +kernel⟩⟩

theorem witness_MailboxesAndRings :
    (∃ (s : State) (m : Nat) (h : Nat) (v : Word), s.chip.serves m (slotVia m h) .HAL_MBX_CTRL h 0 = true ∧ s.chip.get
      Fd.HAL_MBX_CTRL_STATUS h 0 ≠ sBUSY ∧ s.chip.genCurrent h = true ∧ (s.chip.hallRt h).staleReply = false ∧ s.chip.stopped 5
      h = false ∧ s.chip.flag Fd.HAL_MBX_CTRL_OUT_FULL h 0 = false ∧ 1 ≤ bits 22 16 v.toNat ∧ bits 22 16 v.toNat ≤ 64) ∧
    (∃ (s : State) (m : Nat) (h : Nat), s.chip.serves m (slotVia m h) .HAL_MBX_CTRL h 0 = true) ∧
    (∃ (s : State) (m : Nat) (h : Nat), s.chip.serves m (slotVia m h) .HAL_MBX_MGR h 0 = true ∧ s.chip.priv m = true ∧
      ((s.chip.hallRt h).stamped = none ∨ (s.chip.hallRt h).stamped = some (s.chip.gen h))) ∧
    (∃ (s : State) (m : Nat) (h : Nat) (g : Nat), s.chip.serves m (slotVia m h) .HAL_MBX_MGR h 0 = true ∧ s.chip.priv m = true ∧
      (s.chip.hallRt h).stamped = some g ∧ g ≠ s.chip.gen h) ∧
    (∃ (s : State) (m : Nat) (h : Nat), s.chip.serves m (slotVia m h) .HAL_MBX_MGR h 0 = true ∧ s.chip.priv m = true) ∧
    (∃ (s : State) (m : Nat) (h : Nat) (r : Nat) (v : Word), s.chip.serves m (slotVia m h) .HAL_RING_CTRL h r = true ∧ bitOf v.toNat
      31 = true ∧ s.chip.ringOn h r = false ∧ r % 16 < s.chip.ringQuota h r) ∧
    (∃ (s : State) (m : Nat) (h : Nat) (r : Nat) (v : Word), s.chip.serves m (slotVia m h) .HAL_RING_CTRL h r = true ∧ bitOf v.toNat
      31 = true ∧ s.chip.ringOn h r = false ∧ s.chip.ringQuota h r ≤ r % 16) ∧
    (∃ (s : State) (m : Nat) (h : Nat) (r : Nat), s.chip.serves m (slotVia m h) .HAL_RING_TAIL h r = true) ∧
    (∃ (s : State) (h : Nat) (r : Nat), (s.chip.ringRt h r).since ≠ 0 ∧ (s.chip.ringRt h r).first + 1000 * s.chip.get
      Fd.HAL_RING_IRQ_USEC h r ≤ s.chip.tim.clk) ∧
    (∃ (s : State) (h : Nat) (r : Nat) (p : Nat) (c : Chip), r < 16 ∧ s.chip.dmaTurn h r = some c ∧ s.chip.ringPipe h r = some p ∧
      bits 31 24 ((c.fetchDesc h r 32).getD 3 0) ≠ s.chip.gen h) ∧
    (∃ (s : State) (h : Nat) (r : Nat) (p : Nat) (c : Chip), r < 16 ∧ s.chip.dmaTurn h r = some c ∧ s.chip.ringPipe h r = some p ∧
      bits 31 24 ((c.fetchDesc h r 32).getD 3 0) = s.chip.gen h) ∧
    (∃ (s : State) (h : Nat) (r : Nat), r < 16 ∧ s.chip.dmaTurn h r = none) ∧
    (∃ (s : State) (h : Nat) (r : Nat) (q : Nat) (n : Nat), r < 16 ∧ (q = r ∨ q = 16 + r) ∧ s.chip.ringNext h q = some n ∧ h < 32 ∧
      (∀ h2, h2 < 32 → ∀ r2, r2 < 32 → s.chip.ringEngine h2 r2 = s.chip.ringEngine h q → (h2, r2) ≠ (h, q) → s.chip.ringNext h2
      r2 = none)) ∧
    (∃ (s : State) (h : Nat) (r : Nat) (x : Copy) (l : List Copy) (f : Frame) (ct : Chip), r < 16 ∧ s.chip.ringReady h (16 + r) =
      true ∧ s.chip.queue (128 + h) r = x :: l ∧ s.chip.stale x = false ∧ s.chip.frame x.fid = some f ∧ f.ended = true ∧ f.ecc =
      [] ∧ s.chip.dmaTurn h (16 + r) = some ct) :=
  ⟨⟨st (w0), 31, 31, 0x00400000, by decide +kernel⟩,
   ⟨st (w0), 31, 31, by decide +kernel⟩,
   ⟨st (w0), 0, 31, by decide +kernel⟩,
   ⟨st ({ w0 with halls := [(31, { HallRt.init with stamped := some 4 })] }), 0, 31, 4, by decide +kernel⟩,
   ⟨st (w0), 0, 31, by decide +kernel⟩,
   ⟨st (w0.set Fd.GLB_QUOTA_W9_TX_RINGS 31 0 16), 31, 31, 15, 0x80000000, by decide +kernel⟩,
   ⟨st (w0), 31, 31, 0, 0x80000000, by decide +kernel⟩,
   ⟨st (w0), 31, 31, 31, by decide +kernel⟩,
   ⟨st ({ w0 with rings := [((31, 31), { since := 1, first := 0 })] }), 31, 31, by decide +kernel⟩,
   ⟨st ((((w0).set Fd.HAL_RING_CTRL_EN 31 15 1).set Fd.HAL_RING_TAIL_TAIL 31 15 1).set Fd.HAL_GEN_GEN 31 0 1), 31, 15, 2,
    ((((((w0).set Fd.HAL_RING_CTRL_EN 31 15 1).set Fd.HAL_RING_TAIL_TAIL 31 15 1).set Fd.HAL_GEN_GEN 31 0 1 : Chip).dmaTurn 31
    15).getD w0), by decide +kernel⟩,
   ⟨st (((w0).set Fd.HAL_RING_CTRL_EN 31 15 1).set Fd.HAL_RING_TAIL_TAIL 31 15 1), 31, 15, 2, (((((w0).set Fd.HAL_RING_CTRL_EN 31
    15 1).set Fd.HAL_RING_TAIL_TAIL 31 15 1 : Chip).dmaTurn 31 15).getD w0), by decide +kernel⟩,
   ⟨st (w0), 31, 15, by decide +kernel⟩,
   ⟨st (((w0).set Fd.HAL_RING_CTRL_EN 31 15 1).set Fd.HAL_RING_TAIL_TAIL 31 15 1), 31, 15, 15, 0, by decide +kernel⟩,
   ⟨st
    ({ holds ((((w0).set Fd.HAL_RING_CTRL_EN 31 31 1).set Fd.HAL_RING_TAIL_TAIL 31 31 1).set Fd.HAL_GEN_GEN 31 0 1) { wfr with refs := 1 } with atr := { (holds w0 { wfr with refs := 1 }).atr with queues := [((159, 15), [wcp])] } }),
    31, 15, wcp, [], { wfr with refs := 1 },
    ((({ holds ((((w0).set Fd.HAL_RING_CTRL_EN 31 31 1).set Fd.HAL_RING_TAIL_TAIL 31 31 1).set Fd.HAL_GEN_GEN 31 0 1) { wfr with refs := 1 } with atr := { (holds w0 { wfr with refs := 1 }).atr with queues := [((159, 15), [wcp])] } }
    : Chip).dmaTurn 31 31).getD w0), by decide +kernel⟩⟩

theorem witness_RegisterWrites :
    (∃ (a : Nat), a % 8 = 0) ∧
    (∃ (s : State) (m : Nat) (a : Nat) (be : Nat), 16 ≤ be ∧ ¬(be = 16 ∧ a % 8 = 0) ∧ s.chip.ctl.standby = false ∧ s.chip.reach m
      (s.chip.locate m (a / 4 * 4)).1 true = .ok ∧ s.chip.flag Fd.GLB_ACCESS_ERR_VALID 0 0 = false) ∧
    (∃ (s : State) (m : Nat) (a : Nat), s.chip.ctl.standby = false ∧ s.chip.reach m (s.chip.locate m (a / 4 * 4)).1 true = .ok ∧
      (s.chip.locate m (a / 4 * 4)).2 = .reg .GLB_QSC_TIMEOUT 0 0 none ∧ s.chip.serves m none .GLB_QSC_TIMEOUT 0 0 = true) ∧
    (∃ (s : State) (m : Nat) (a : Nat) (be : Nat), s.chip.ctl.standby = false ∧ s.chip.reach m (s.chip.locate m (a / 4 * 4)).1 true
      = .ok ∧ 0 < be ∧ be < 15 ∧ s.chip.flag Fd.GLB_ACCESS_ERR_VALID 0 0 = false) ∧
    (∃ (s : State) (m : Nat), s.chip.serves m (viaOf m) .GLB_UNLOCK 0 0 = true) ∧
    (∃ (s : State) (m : Nat), s.chip.serves m (viaOf m) .GLB_PRIV_MAP 0 0 = true) ∧
    (∃ (s : State) (m : Nat), s.chip.serves m (viaOf m) .GLB_DKC_CTRL 0 0 = true ∧ s.chip.stopped 6 0 = true) ∧
    (∃ (s : State) (u : TvUpset) (n : Nat) (v : Nat), s.chip.running = true ∧ decodeNative u.addr = some (.GLB_PORT_PIPE, n, 0) ∧
      u.lo = 0 ∧ (∀ e ∈ s.chip.fld, e.1.copy = 0) ∧ u.c0 < 4 ∧ u.c1 < 4 ∧ u.c2 < 4 ∧ (u.c0 ≠ u.c1 ∨ u.c1 ≠ u.c2) ∧ tvMajority u
      = some v) ∧
    (∃ (s : State) (u : TvUpset) (n : Nat), s.chip.running = true ∧ decodeNative u.addr = some (.GLB_PORT_PIPE, n, 0) ∧ u.lo = 0 ∧
      (∀ e ∈ s.chip.fld, e.1.copy = 0) ∧ u.c0 < 4 ∧ u.c1 < 4 ∧ u.c2 < 4 ∧ (u.c0 ≠ u.c1 ∨ u.c1 ≠ u.c2) ∧ tvMajority u = none) :=
  ⟨⟨776, by decide +kernel⟩,
   ⟨st (w0), 0, 780, 16, by decide +kernel⟩,
   ⟨st (w0), 33, 776, by decide +kernel⟩,
   ⟨st (w0), 31, 0x204C, 14, by decide +kernel⟩,
   ⟨st (w0), 0, by decide +kernel⟩,
   ⟨st (kg), 0, by decide +kernel⟩,
   ⟨st (stp w0 6 0), 0, by decide +kernel⟩,
   ⟨st (w0), { addr := addrOf .GLB_PORT_PIPE 95 0, lo := 0, c0 := 3, c1 := 3, c2 := 1 }, 95, 3, by decide +kernel⟩,
   ⟨st (w0), { addr := addrOf .GLB_PORT_PIPE 95 0, lo := 0, c0 := 3, c1 := 2, c2 := 1 }, 95, by decide +kernel⟩⟩

theorem witness_RegisterReads :
    (∃ (s : State) (m : Nat) (a : Nat) (via : Option Nat) (r : R) (i : Nat) (j : Nat), s.chip.answersReg m (a / 4 * 4) via r i j) ∧
    (∃ (s : State) (m : Nat) (a : Nat) (be : Nat) (via : Option Nat) (r : R) (i : Nat) (j : Nat), s.chip.answersReg m (a / 4 * 4)
      via r i j ∧ 0 < be ∧ be < 15) ∧
    (∃ (s : State) (m : Nat) (a : Nat) (via : Option Nat) (r : R) (i : Nat) (j : Nat) (r2 : R) (i2 : Nat) (j2 : Nat),
      s.chip.answersReg m (a / 4 * 4) via r i j ∧ r.pairHalf i j = some (false, r2, i2, j2)) ∧
    (∃ (s : State) (m : Nat) (via : Option Nat), s.chip.answersReg m (hallAddrOf m 0x200010 0x2000) via .TIM_TIME_NS 0 0) ∧
    (∃ (s : State) (m : Nat) (via : Option Nat), s.chip.answersReg m (hallAddrOf m 0x200108 0x2010) via .TIM_CYC_ANGLE 0 0) ∧
    (∃ (s : State) (m : Nat), ¬(1 ≤ m ∧ m < 32) ∧ s.chip.answersReg m 0x30 none .GLB_ACCESS_ERR 0 0) ∧
    (∃ (s : State) (m : Nat) (n : Nat) (k : Nat) (via : Option Nat) (e : TsRec), n < 96 ∧ s.chip.answersReg m (hallAddrOf m
      (0x204010 + 0x20 * n) (0x3010 + 0x20 * n)) via .TIM_TSQ_W k 3 ∧ tsqHead s.chip k via = some e) ∧
    (∃ (s : State) (m : Nat) (n : Nat), n < 4 ∧ ¬(1 ≤ m ∧ m < 32) ∧ s.chip.answersReg m (0x20031C + 0x20 * n) none .TIM_CAP_W n 5) ∧
    (∃ (s : State) (m : Nat) (n : Nat) (k : Nat) (via : Option Nat), n < 32 ∧ s.chip.answersReg m (hallAddrOf m (if n = 0 then
      0xC00540 else 0x2004540 + 0x100000 * n) 0x4540) via .TBL_RES_INFO k 0) ∧
    (∃ (s : State) (m : Nat) (n : Nat) (k : Nat) (via : Option Nat) (e : LrnRec), n < 32 ∧ s.chip.answersReg m (hallAddrOf m (if n =
      0 then 0xC0060C else 0x200460C + 0x100000 * n) 0x460C) via .TBL_LRN_REC k 3 ∧ s.chip.lrnHead k = some e) ∧
    (∃ (s : State) (m : Nat), ¬(1 ≤ m ∧ m < 32) ∧ s.chip.answersReg m 0x1C01280 none .SEC_CE_RES_INFO 0 0) ∧
    (∃ (s : State) (m : Nat), ¬(1 ≤ m ∧ m < 32) ∧ s.chip.answersReg m 0x1C02140 none .SEC_KE_RES_INFO 0 0) ∧
    (∃ (s : State) (m : Nat), ¬(1 ≤ m ∧ m < 32) ∧ s.chip.answersReg m 0x1C03030 none .SEC_RNG_INFO 0 0) ∧
    (∃ (s : State) (m : Nat) (n : Nat), n < 4 ∧ ¬(1 ≤ m ∧ m < 32) ∧ s.chip.answersReg m (0x800A14 + 0x100000 * n) none .PIP_EREC_W n
      4) :=
  ⟨⟨st (w0.logErr 0 0 true 6), 0, 0x30, none, .GLB_ACCESS_ERR, 0, 0, by unfold Chip.answersReg; decide +kernel⟩,
   ⟨st (w0.logErr 0 0 true 6), 0, 0x30, 14, none, .GLB_ACCESS_ERR, 0, 0, by unfold Chip.answersReg; decide +kernel⟩,
   ⟨st (w0), 0, addrOf .CNT_DEV 4 0, none, .CNT_DEV, 4, 0, (R.CNT_DEV : R), (4 : Nat), (1 : Nat),
    by unfold Chip.answersReg; decide +kernel⟩,
   ⟨st (w0), 31, some 31, by unfold Chip.answersReg; decide +kernel⟩,
   ⟨st (w0), 31, some 31, by unfold Chip.answersReg; decide +kernel⟩,
   ⟨st (w0.logErr 0 0 true 6), 33, by unfold Chip.answersReg; decide +kernel⟩,
   ⟨st ({ w0 with tsq := [(95, [{ devT := 5 * 2 ^ 48, lostBefore := false, epoch := 0, source := 0, hall := 0, id := 7 }])] }), 0,
    95, 95, none, ({ devT := 5 * 2 ^ 48, lostBefore := false, epoch := 0, source := 0, hall := 0, id := 7 } : TsRec),
    by unfold Chip.answersReg; decide +kernel⟩,
   ⟨st ({ w0 with caps := [(3, [{ devT := 0, rising := true, angleValid := false, epoch := 0, acc := 0 }])] }), 33, 3,
    by unfold Chip.answersReg; decide +kernel⟩,
   ⟨st (w0.set Fd.TBL_RES_INFO_RESULT_VALID 31 0 1), 0, 31, 31, some 31, by unfold Chip.answersReg; decide +kernel⟩,
   ⟨st ({ w0 with lrn := [{ reason := 1, hall := 31, port := 0, fid := 0, mac := 0, oldPort := 0, ns := 5 }] }), 31, 31, 31, some
    31, ({ reason := 1, hall := 31, port := 0, fid := 0, mac := 0, oldPort := 0, ns := 5 } : LrnRec),
    by unfold Chip.answersReg; decide +kernel⟩,
   ⟨st (w0), 33, by unfold Chip.answersReg; decide +kernel⟩,
   ⟨st (w0), 33, by unfold Chip.answersReg; decide +kernel⟩,
   ⟨st (w0), 33, by unfold Chip.answersReg; decide +kernel⟩,
   ⟨st (w0), 33, 3, by unfold Chip.answersReg; decide +kernel⟩⟩

theorem witness_SideBandAndJtag :
    (∃ (s : State) (a0 : Byte), s.chip.pins.auxGood = true ∧ s.chip.bus.sbOpen = false ∧ s.chip.flag Fd.GLB_SB_CTRL_PEC_REQ 0 0 =
      false ∧ a0.toNat % 4 = 0) ∧
    (∃ (s : State), s.chip.bus.sbOpen = true) ∧
    (∃ (s : State), s.chip.alertLow = true ∧ s.chip.pins.auxGood = true) ∧
    (∃ (s : State) (a : Nat), s.chip.pins.auxGood = true ∧ s.chip.bus.jtagBusy = false ∧ a % 4 = 0) ∧
    (∃ (s : State), s.chip.pins.auxGood = true ∧ s.chip.bus.jtagBusy = true) :=
  ⟨⟨st w0, 0, by decide +kernel⟩,
   ⟨st ({ w0 with bus := { w0.bus with sbOpen := true } }), by decide +kernel⟩,
   ⟨st ((w0.set Fd.GLB_SB_CTRL_ALERT_EN 0 0 1) |> fun c => { c with bus := { c.bus with alert := true } }), by decide +kernel⟩,
   ⟨st (w0), 0x20C, by decide +kernel⟩,
   ⟨st ({ w0 with bus := { w0.bus with jtagBusy := true } }), by decide +kernel⟩⟩

theorem witness_FusesAndEntropy :
    (∃ (s : State) (m : Nat), s.chip.bus.kgOpen = true ∧ s.chip.priv m = true ∧ s.chip.sec.burn = none ∧ s.chip.serves m (viaOf m)
      .SEC_LC_CMD 0 0 = true ∧ s.chip.get Fd.SEC_LC_CMD_STATUS 0 0 ≠ sBUSY ∧ ((s.chip.lifecycle = 0 ∧ s.chip.get
      Fd.SEC_RNG_STATUS_STATE 0 0 = 2) ∨ (s.chip.lifecycle = 1 ∧ s.chip.shownAny 8 12 = true ∧ s.chip.shownAny 32 19 = true) ∨
      s.chip.lifecycle = 2)) ∧
    (∃ (s : State) (m : Nat) (row : Nat), s.chip.bus.kgOpen = true ∧ s.chip.priv m = true ∧ s.chip.sec.burn = none ∧ s.chip.serves m
      (viaOf m) .SEC_FUSE_CMD 0 0 = true ∧ s.chip.get Fd.SEC_FUSE_CMD_STATUS 0 0 ≠ sBUSY ∧ row < 256 ∧ fuseRowOk row = true ∧
      s.chip.burnMask row ≠ 0 ∧ clear32 (s.chip.get Fd.SEC_FUSE_DATA_DATA 0 0) (s.chip.burnMask row) = 0 ∧ s.chip.revokeBad row
      (s.chip.get Fd.SEC_FUSE_DATA_DATA 0 0) = false) ∧
    (∃ (s : State) (j : SecJob), s.chip.sec.burn = some j ∧ j.op = 0) ∧
    (∃ (s : State) (j : SecJob), s.chip.sec.burn = some j ∧ j.op = 1 ∧ j.b = 1 ∧ (j.a = 1 ∨ j.a = 2)) ∧
    (∃ (s : State) (w : List Bool), w.length = 1024 ∧ s.chip.running = true ∧ windowFails w = false ∧ s.chip.rngState = 1 ∧
      s.chip.sec.windows ≠ 0) ∧
    (∃ (s : State) (w : List Bool), w.length = 1024 ∧ s.chip.running = true ∧ windowFails w = true ∧ s.chip.rngState = rngRUN ∧
      s.chip.get Fd.SEC_RNG_STATUS_FAIL_RUN 0 0 = 0) ∧
    (∃ (s : State), s.chip.drbgReady = true) ∧
    (∃ (s : State) (m : Nat), s.chip.serves m (viaOf m) .SEC_RNG_CMD 0 0 = true ∧ s.chip.priv m = true ∧ s.chip.get
      Fd.SEC_RNG_CMD_STATUS 0 0 ≠ sBUSY ∧ (s.chip.rngState = 0 ∨ s.chip.rngState = rngERROR)) ∧
    (∃ (s : State) (m : Nat), s.chip.serves m (viaOf m) .SEC_RNG_CMD 0 0 = true ∧ s.chip.priv m = true ∧ s.chip.get
      Fd.SEC_RNG_CMD_STATUS 0 0 ≠ sBUSY ∧ s.chip.rngState = rngRUN) :=
  ⟨⟨st (kg.set Fd.SEC_RNG_STATUS_STATE 0 0 2), 0, by decide +kernel⟩,
   ⟨st (kg.set Fd.SEC_FUSE_DATA_DATA 0 0 1), 0, 59, by decide +kernel⟩,
   ⟨st ({ w0 with sec := { w0.sec with burn := some { op := 0, a := 127, b := 5, ws := [] } } }),
    { op := 0, a := 127, b := 5, ws := [] }, by decide +kernel⟩,
   ⟨st ({ w0 with sec := { w0.sec with burn := some { op := 1, a := 2, b := 1, ws := [] } } }),
    { op := 1, a := 2, b := 1, ws := [] }, by decide +kernel⟩,
   ⟨st ({ w0.set Fd.SEC_RNG_STATUS_STATE 0 0 1 with sec := { w0.sec with windows := 1 } }), ((List.range 512).flatMap (fun k =>
    [bitOf (k * k * 37 + k) 3, !bitOf (k * k * 37 + k) 3])), by decide +kernel⟩,
   ⟨st (w0.set Fd.SEC_RNG_STATUS_STATE 0 0 2), List.replicate 1024 true, by decide +kernel⟩,
   ⟨st (w0.set Fd.SEC_RNG_STATUS_STATE 0 0 2), by decide +kernel⟩,
   ⟨st (w0.set Fd.SEC_RNG_STATUS_STATE 0 0 4), 0, by decide +kernel⟩,
   ⟨st (w0.set Fd.SEC_RNG_STATUS_STATE 0 0 2), 0, by decide +kernel⟩⟩

theorem witness_CryptoAndKeyEngines :
    (∃ (s : State) (m : Nat) (k : Nat) (v : Nat), s.chip.serves m (viaOf m) .SEC_CE_CMD 0 0 = true ∧ s.chip.priv m = true ∧
      s.chip.get Fd.SEC_CE_CMD_STATUS 0 0 ≠ sBUSY ∧ k < 2 ∧ v < 2 ∧ s.chip.get Fd.SEC_CE_OP_OPW 0 0 % 4 = 0) ∧
    (∃ (s : State) (m : Nat) (k : Nat) (v : Nat), s.chip.serves m (viaOf m) .SEC_CE_CMD 0 0 = true ∧ s.chip.priv m = true ∧
      s.chip.get Fd.SEC_CE_CMD_STATUS 0 0 ≠ sBUSY ∧ k < 2 ∧ v < 2) ∧
    (∃ (s : State) (m : Nat) (k : Nat) (v : Nat), s.chip.serves m (viaOf m) .SEC_CE_CMD 0 0 = true ∧ s.chip.priv m = true ∧
      s.chip.get Fd.SEC_CE_CMD_STATUS 0 0 ≠ sBUSY ∧ k < 2 ∧ v < 2 ∧ (k = 0 ∨ (v = 1 ∧ s.chip.sec.idScalar ≠ 0 ∧
      (s.chip.lifecycle = 1 ∨ s.chip.lifecycle = 2))) ∧ s.chip.get Fd.SEC_RNG_STATUS_STATE 0 0 ≠ 4) ∧
    (∃ (s : State) (m : Nat) (k : Nat) (v : Nat), s.chip.serves m (viaOf m) .SEC_CE_CMD 0 0 = true ∧ s.chip.priv m = true ∧
      s.chip.get Fd.SEC_CE_CMD_STATUS 0 0 ≠ sBUSY ∧ k < 2 ∧ v < 2 ∧ (k = 0 ∨ (v = 1 ∧ s.chip.sec.idScalar ≠ 0 ∧
      (s.chip.lifecycle = 1 ∨ s.chip.lifecycle = 2)))) ∧
    (∃ (s : State) (m : Nat) (k : Nat) (v : Nat), s.chip.serves m (viaOf m) .SEC_CE_CMD 0 0 = true ∧ s.chip.priv m = true ∧
      s.chip.get Fd.SEC_CE_CMD_STATUS 0 0 ≠ sBUSY ∧ k < 2 ∧ v < 2 ∧ s.chip.lifecycle = 1 ∧ s.chip.ftLock = false ∧
      s.chip.shownAny 32 19 = false ∧ s.chip.get Fd.SEC_RNG_STATUS_STATE 0 0 ≠ 4) ∧
    (∃ (s : State) (j : SecJob), s.chip.sec.ce = some j ∧ s.chip.flag Fd.SEC_CE_CMD_TRNG_WAIT 0 0 = false ∧ (j.op = 1 →
      s.chip.pins.linkUp = true) ∧ j.op ≠ 3 ∧ j.op ≠ 6) ∧
    (∃ (s : State) (m : Nat), s.chip.serves m (viaOf m) .SEC_KE_CMD 0 0 = true ∧ s.chip.priv m = true ∧ s.chip.get
      Fd.SEC_KE_CMD_STATUS 0 0 ≠ sBUSY ∧ (s.chip.lifecycle = 1 ∨ s.chip.lifecycle = 2) ∧ s.chip.sku = 0 ∧ s.chip.get
      Fd.SEC_KE_TARGET_PORT 0 0 < 96 ∧ (s.chip.get Fd.SEC_KE_TARGET_SC 0 0 = 0 ∨ s.chip.get Fd.SEC_KE_TARGET_DIR 0 0 ≠ 0) ∧
      s.chip.get Fd.SEC_RNG_STATUS_STATE 0 0 ≠ 4) ∧
    (∃ (s : State) (m : Nat), s.chip.serves m (viaOf m) .SEC_KE_CMD 0 0 = true ∧ s.chip.priv m = true ∧ s.chip.get
      Fd.SEC_KE_CMD_STATUS 0 0 ≠ sBUSY ∧ (s.chip.lifecycle = 1 ∨ s.chip.lifecycle = 2) ∧ s.chip.sku = 0 ∧ s.chip.get
      Fd.SEC_KE_TARGET_PORT 0 0 < 96 ∧ (s.chip.get Fd.SEC_KE_TARGET_SC 0 0 = 0 ∨ s.chip.get Fd.SEC_KE_TARGET_DIR 0 0 ≠ 0) ∧
      s.chip.saProtected (s.chip.get Fd.SEC_KE_TARGET_PORT 0 0) (s.chip.get Fd.SEC_KE_TARGET_DIR 0 0) (s.chip.get
      Fd.SEC_KE_TARGET_SC 0 0) (s.chip.get Fd.SEC_KE_TARGET_SA 0 0) = false ∧ s.chip.keBlob.getD 0 0 = 1 ∧ s.chip.keBlob.getD 1
      0 = 1 ∧ s.chip.keBlob.getD 3 0 = 0 ∧ (s.chip.keBlob.getD 2 0 = 16 ∨ s.chip.keBlob.getD 2 0 = 32) ∧ s.chip.keBlob.getD 2 0
      = cipherKeyLen (s.chip.msCipher (s.chip.get Fd.SEC_KE_TARGET_PORT 0 0))) ∧
    (∃ (s : State) (m : Nat), s.chip.serves m (viaOf m) .SEC_KE_CMD 0 0 = true ∧ s.chip.priv m = true ∧ s.chip.get
      Fd.SEC_KE_CMD_STATUS 0 0 ≠ sBUSY ∧ (s.chip.lifecycle = 1 ∨ s.chip.lifecycle = 2) ∧ s.chip.sku = 0 ∧ s.chip.get
      Fd.SEC_KE_TARGET_PORT 0 0 < 96 ∧ (s.chip.get Fd.SEC_KE_TARGET_SC 0 0 = 0 ∨ s.chip.get Fd.SEC_KE_TARGET_DIR 0 0 ≠ 0) ∧
      s.chip.saProtected (s.chip.get Fd.SEC_KE_TARGET_PORT 0 0) (s.chip.get Fd.SEC_KE_TARGET_DIR 0 0) (s.chip.get
      Fd.SEC_KE_TARGET_SC 0 0) (s.chip.get Fd.SEC_KE_TARGET_SA 0 0) = false) ∧
    (∃ (s : State) (j : SecJob), s.chip.sec.ke = some j ∧ s.chip.flag Fd.SEC_KE_CMD_TRNG_WAIT 0 0 = false) :=
  ⟨⟨st (w0), 0, 0, 1, by decide +kernel⟩,
   ⟨st (w0), 0, 0, 1, by decide +kernel⟩,
   ⟨st ({ w0 with sec := { w0.sec with sensed := [(0, 0x7)], idScalar := 7 } }), 0, 1, 1, by decide +kernel⟩,
   ⟨st ({ w0 with sec := { w0.sec with sensed := [(0, 0x3F)], idScalar := 7 } }), 0, 1, 1, by decide +kernel⟩,
   ⟨st ({ w0 with sec := { w0.sec with sensed := [(0, 0x7)] } }), 0, 0, 1, by decide +kernel⟩,
   ⟨st ({ w0 with sec := { w0.sec with ce := some { op := 2, a := 0, b := 1, ws := [] } } }),
    { op := 2, a := 0, b := 1, ws := [] }, by decide +kernel⟩,
   ⟨st (({ w0 with sec := { w0.sec with sensed := [(0, 0x7)] } } : Chip).set Fd.SEC_KE_TARGET_PORT 0 0 95), 0, by decide +kernel⟩,
   ⟨st ((((({ w0 with sec := { w0.sec with sensed := [(0, 0x7)] } } : Chip).set Fd.SEC_KE_TARGET_PORT 0 0 95).set
    Fd.SEC_KE_TARGET_DIR 0 0 1).set Fd.SEC_KE_BLOB_BLOB 0 0 0x01011000)), 0, by decide +kernel⟩,
   ⟨st ((({ w0 with sec := { w0.sec with sensed := [(0, 0x3F)] } } : Chip).set Fd.SEC_KE_TARGET_PORT 0 0 95).set
    Fd.SEC_KE_TARGET_DIR 0 0 1), 0, by decide +kernel⟩,
   ⟨st ({ w0 with sec := { w0.sec with ke := some { op := 3, a := 0, b := 1, ws := [] } } }),
    { op := 3, a := 0, b := 1, ws := [] }, by decide +kernel⟩⟩

theorem witness_FaultCommands :
    (∃ (s : State) (m : Nat), s.chip.serves m (viaOf m) .FLT_CLEAR 0 0 = true ∧ s.chip.priv m = true) ∧
    (∃ (s : State) (m : Nat), s.chip.serves m (viaOf m) .FLT_HIST_CLEAR 0 0 = true ∧ s.chip.priv m = true ∧ s.chip.bus.kgOpen =
      true) ∧
    (∃ (s : State) (m : Nat) (k : Nat) (x : Nat), s.chip.serves m (viaOf m) .FLT_FENCE_CMD 0 0 = true ∧ s.chip.bus.kgOpen = true ∧
      s.chip.priv m = true ∧ s.chip.get Fd.FLT_FENCE_CMD_STATUS 0 0 ≠ sBUSY ∧ s.chip.safe = false ∧ fenceUnit k x = true ∧
      s.chip.lastUnfenced k x = false) ∧
    (∃ (s : State) (m : Nat) (k : Nat) (x : Nat), s.chip.serves m (viaOf m) .FLT_FENCE_CMD 0 0 = true ∧ s.chip.bus.kgOpen = true ∧
      s.chip.priv m = true ∧ s.chip.get Fd.FLT_FENCE_CMD_STATUS 0 0 ≠ sBUSY ∧ s.chip.safe = false ∧ fenceUnit k x = true ∧
      s.chip.lastUnfenced k x = true) ∧
    (∃ (s : State) (m : Nat) (k : Nat) (x : Nat), s.chip.serves m (viaOf m) .FLT_FENCE_CMD 0 0 = true ∧ s.chip.bus.kgOpen = true ∧
      s.chip.priv m = true ∧ s.chip.get Fd.FLT_FENCE_CMD_STATUS 0 0 ≠ sBUSY ∧ s.chip.safe = false ∧ fenceUnit k x = true ∧ (k =
      2 ∨ k = 3) ∧ s.chip.isFenced k x = true) ∧
    (∃ (s : State) (m : Nat) (k : Nat) (x : Nat), s.chip.serves m (viaOf m) .FLT_FENCE_CMD 0 0 = true ∧ s.chip.bus.kgOpen = true ∧
      s.chip.priv m = true ∧ s.chip.get Fd.FLT_FENCE_CMD_STATUS 0 0 ≠ sBUSY ∧ s.chip.safe = false ∧ fenceUnit k x = true ∧ k = 4
      ∧ s.chip.isFenced 4 x = true) ∧
    (∃ (s : State) (k : Nat) (x : Nat), s.chip.flt.fenceOp = some (k, x)) ∧
    (∃ (s : State) (p : Nat), p < 4 ∧ s.chip.safe = false ∧ s.chip.get Fd.FLT_REACT_DMA 0 0 ≠ 1 ∧ s.chip.isFenced 3 p = false) ∧
    (∃ (s : State) (p : Nat), p < 4 ∧ s.chip.safe = false ∧ s.chip.get Fd.FLT_REACT_DMA 0 0 ≠ 1 ∧ (s.chip.isFenced 3 p = true ∨
      s.chip.dmaRings p = [])) ∧
    (∃ (s : State) (p : Nat), p < 4 ∧ s.chip.safe = false ∧ s.chip.get Fd.FLT_REACT_PIPE 0 0 ≠ 1) ∧
    (∃ (s : State) (p : Nat), p < 4 ∧ s.chip.safe = false ∧ s.chip.get Fd.FLT_REACT_PIPE 0 0 ≠ 1 ∧ (s.chip.pipe p).buf ≠ []) ∧
    (∃ (s : State) (p : Nat) (row : Nat) (w : TcamRow), p < 4 ∧ s.chip.tcam.find p row = some w) ∧
    (∃ (s : State) (k : Nat), s.chip.pins.auxGood = true ∧ s.chip.safe = false ∧ k < 3) ∧
    (∃ (s : State), s.chip.pins.auxGood = true) ∧
    (∃ (s : State), s.chip.pins.auxGood = true ∧ s.chip.pins.resetN = true) :=
  ⟨⟨st (w0.set Fd.FLT_STATUS_STATUS 0 0 5), 0, by decide +kernel⟩,
   ⟨st (kg), 0, by decide +kernel⟩,
   ⟨st (kg), 0, 0, 95, by decide +kernel⟩,
   ⟨st ({ kg with fenced := [(1, 0), (1, 1), (1, 2)] }), 0, 1, 3, by decide +kernel⟩,
   ⟨st ({ kg with fenced := [(3, 3)] }), 0, 3, 3, by decide +kernel⟩,
   ⟨st (((((({ kg with fenced := [(4, 31)] } : Chip).set Fd.GAL_CTRL_ENABLE 0 0 1).set Fd.GAL_LINK_CFG_VALID 31 0 1).set
    Fd.GAL_LINK_CFG_PORT 31 0 95).set Fd.PRT_LINK_STATUS_STATE 95 0 5)), 0, 4, 31, by decide +kernel⟩,
   ⟨st ({ w0 with fenced := [(3, 3)], flt := { w0.flt with fenceOp := some (3, 3) } }), 3, 3, by decide +kernel⟩,
   ⟨st (((w0.set Fd.HAL_RING_CTRL_EN 31 12 1).set Fd.HAL_RING_TAIL_TAIL 31 12 1).set Fd.HAL_GEN_GEN 31 0 1), 3, by decide +kernel⟩,
   ⟨st (w0), 3, by decide +kernel⟩,
   ⟨st (w0), 3, by decide +kernel⟩,
   ⟨st (w0.setPipe 3 { PipeRt.init with buf := [0] }), 3, by decide +kernel⟩,
   ⟨st
    ({ w0 with tcam := [((3, 6143), { valid := true, layout := 0, owner := 0, value := 0, mask := 0, action := [], err := 2 })] }),
    3, 6143, { valid := true, layout := 0, owner := 0, value := 0, mask := 0, action := [], err := 2 }, by decide +kernel⟩,
   ⟨st (w0), 2, by decide +kernel⟩,
   ⟨st w0, by decide +kernel⟩,
   ⟨st w0, by decide +kernel⟩⟩

theorem witness_FaultInjection :
    (∃ (s : State) (m : Nat) (a : Nat), s.chip.serves m (viaOf m) .FLT_FI_CMD 0 0 = true ∧ s.chip.bus.kgOpen = true ∧ s.chip.fiOpen
      = true ∧ s.chip.priv m = true ∧ s.chip.get Fd.FLT_FI_CMD_STATUS 0 0 ≠ sBUSY ∧ a < 29 ∧ a ≠ fVOLTC ∧ s.chip.safe = false) ∧
    (∃ (s : State) (m : Nat) (a : Nat) (x : Nat), s.chip.serves m (viaOf m) .FLT_FI_CMD 0 0 = true ∧ s.chip.bus.kgOpen = true ∧
      s.chip.fiOpen = true ∧ s.chip.priv m = true ∧ s.chip.get Fd.FLT_FI_CMD_STATUS 0 0 ≠ sBUSY ∧ eccTarget a x = true) ∧
    (∃ (s : State) (m : Nat) (x : Nat), s.chip.serves m (viaOf m) .FLT_FI_CMD 0 0 = true ∧ s.chip.bus.kgOpen = true ∧ s.chip.fiOpen
      = true ∧ s.chip.priv m = true ∧ s.chip.get Fd.FLT_FI_CMD_STATUS 0 0 ≠ sBUSY ∧ x < 4 ∧ s.chip.safe = false ∧ s.chip.get
      Fd.FLT_REACT_PIPE 0 0 ≠ 1) ∧
    (∃ (s : State) (m : Nat) (x : Nat), s.chip.serves m (viaOf m) .FLT_FI_CMD 0 0 = true ∧ s.chip.bus.kgOpen = true ∧ s.chip.fiOpen
      = true ∧ s.chip.priv m = true ∧ s.chip.get Fd.FLT_FI_CMD_STATUS 0 0 ≠ sBUSY ∧ x < 4 ∧ s.chip.safe = false ∧ s.chip.get
      Fd.FLT_REACT_DMA 0 0 ≠ 1) ∧
    (∃ (s : State) (m : Nat) (x : Nat) (k : Nat), s.chip.serves m (viaOf m) .FLT_FI_CMD 0 0 = true ∧ s.chip.bus.kgOpen = true ∧
      s.chip.fiOpen = true ∧ s.chip.priv m = true ∧ s.chip.get Fd.FLT_FI_CMD_STATUS 0 0 ≠ sBUSY ∧ bitsOf 3 x = [k] ∧ s.chip.safe
      = false) ∧
    (∃ (s : State) (m : Nat) (x : Nat), s.chip.serves m (viaOf m) .FLT_FI_CMD 0 0 = true ∧ s.chip.bus.kgOpen = true ∧ s.chip.fiOpen
      = true ∧ s.chip.priv m = true ∧ s.chip.get Fd.FLT_FI_CMD_STATUS 0 0 ≠ sBUSY ∧ 2 ≤ (bitsOf 3 x).length) ∧
    (∃ (s : State) (m : Nat), s.chip.serves m (viaOf m) .FLT_FI_CMD 0 0 = true ∧ s.chip.bus.kgOpen = true ∧ s.chip.fiOpen = true ∧
      s.chip.priv m = true ∧ s.chip.get Fd.FLT_FI_CMD_STATUS 0 0 ≠ sBUSY) :=
  ⟨⟨st ({ kg with pins := { kg.pins with testMode := true }, sec := { kg.sec with sensed := [(0, 0x7)] } }), 0, 28,
    by decide +kernel⟩,
   ⟨st ({ kg with pins := { kg.pins with testMode := true }, sec := { kg.sec with sensed := [(0, 0x7)] } }), 0, 0, 0,
    by decide +kernel⟩,
   ⟨st ({ kg with pins := { kg.pins with testMode := true }, sec := { kg.sec with sensed := [(0, 0x7)] } }), 0, 3,
    by decide +kernel⟩,
   ⟨st ({ kg with pins := { kg.pins with testMode := true }, sec := { kg.sec with sensed := [(0, 0x7)] } }), 0, 3,
    by decide +kernel⟩,
   ⟨st ({ kg with pins := { kg.pins with testMode := true }, sec := { kg.sec with sensed := [(0, 0x7)] } }), 0, 4, 2,
    by decide +kernel⟩,
   ⟨st ({ kg with pins := { kg.pins with testMode := true }, sec := { kg.sec with sensed := [(0, 0x7)] } }), 0, 7,
    by decide +kernel⟩,
   ⟨st ({ kg with pins := { kg.pins with testMode := true }, sec := { kg.sec with sensed := [(0, 0x7)] } }), 0, by decide +kernel⟩⟩

end Sys2Proof.Tests
end

section
/-! SUPPORT. Footprints: which parts of the chip an operation may change. `c.outside w o` shows of `c` what lies outside the
footprint `w` (inside it shows `o`); one lemma for each operation says that it leaves what lies outside its footprint. The lemmas
rewrite from the outermost operation inwards (`simp ↓`), so that what an operation computes is never looked at. -/

namespace Sys2Proof.Machine

/-- A set of parts of the chip: a mark for each component. -/
structure Footprint where
  fld : Bool := false
  freeCtr : Bool := false
  pins : Bool := false
  host : Bool := false
  flash : Bool := false
  bus : Bool := false
  tim : Bool := false
  cyc : Bool := false
  evt : Bool := false
  toutFall : Bool := false
  caps : Bool := false
  tsq : Bool := false
  tsqLost : Bool := false
  img : Bool := false
  ctl : Bool := false
  fenced : Bool := false
  ports : Bool := false
  engs : Bool := false
  pipes : Bool := false
  tcam : Bool := false
  tbl : Bool := false
  tblEcc : Bool := false
  tblHall : Bool := false
  jobs : Bool := false
  lrn : Bool := false
  lrnLast : Bool := false
  agerNext : Bool := false
  supSeq : Bool := false
  atr : Bool := false
  sgate : Bool := false
  gal : Bool := false
  rings : Bool := false
  dma : Bool := false
  halls : Bool := false
  snaps : Bool := false
  sec : Bool := false
  flt : Bool := false
  cnt : Bool := false
  residue : Bool := false
  aevc : Bool := false
  aevcPrev : Bool := false

/-- The chip `c` seen outside the footprint `w`: the parts that `w` marks are those of `o`. -/
def Chip.outside (c : Chip) (w : Footprint) (o : Chip) : Chip :=
  { fld := bif w.fld then o.fld else c.fld, freeCtr := bif w.freeCtr then o.freeCtr else c.freeCtr,
    pins := bif w.pins then o.pins else c.pins, host := bif w.host then o.host else c.host,
    flash := bif w.flash then o.flash else c.flash, bus := bif w.bus then o.bus else c.bus,
    tim := bif w.tim then o.tim else c.tim, cyc := bif w.cyc then o.cyc else c.cyc,
    evt := bif w.evt then o.evt else c.evt, toutFall := bif w.toutFall then o.toutFall else c.toutFall,
    caps := bif w.caps then o.caps else c.caps, tsq := bif w.tsq then o.tsq else c.tsq,
    tsqLost := bif w.tsqLost then o.tsqLost else c.tsqLost, img := bif w.img then o.img else c.img,
    ctl := bif w.ctl then o.ctl else c.ctl, fenced := bif w.fenced then o.fenced else c.fenced,
    ports := bif w.ports then o.ports else c.ports, engs := bif w.engs then o.engs else c.engs,
    pipes := bif w.pipes then o.pipes else c.pipes, tcam := bif w.tcam then o.tcam else c.tcam,
    tbl := bif w.tbl then o.tbl else c.tbl, tblEcc := bif w.tblEcc then o.tblEcc else c.tblEcc,
    tblHall := bif w.tblHall then o.tblHall else c.tblHall, jobs := bif w.jobs then o.jobs else c.jobs,
    lrn := bif w.lrn then o.lrn else c.lrn, lrnLast := bif w.lrnLast then o.lrnLast else c.lrnLast,
    agerNext := bif w.agerNext then o.agerNext else c.agerNext, supSeq := bif w.supSeq then o.supSeq else c.supSeq,
    atr := bif w.atr then o.atr else c.atr, sgate := bif w.sgate then o.sgate else c.sgate,
    gal := bif w.gal then o.gal else c.gal, rings := bif w.rings then o.rings else c.rings,
    dma := bif w.dma then o.dma else c.dma, halls := bif w.halls then o.halls else c.halls,
    snaps := bif w.snaps then o.snaps else c.snaps, sec := bif w.sec then o.sec else c.sec,
    flt := bif w.flt then o.flt else c.flt, cnt := bif w.cnt then o.cnt else c.cnt,
    residue := bif w.residue then o.residue else c.residue, aevc := bif w.aevc then o.aevc else c.aevc,
    aevcPrev := bif w.aevcPrev then o.aevcPrev else c.aevcPrev }

/-- A chip that agrees with `c` outside `w`, whatever stands inside, is `c` but for its own parts inside `w`. -/
theorem Chip.eq_outside {w : Footprint} {c d : Chip} (h : ∀ o, d.outside w o = c.outside w o) : d = c.outside w d := by
  rw [← h d]; unfold Chip.outside; simp only [Bool.cond_self]

section
variable {c : Chip} {w : Footprint} {o : Chip}

/-! ## Updates of one component, branches and loops -/

@[simp ↓] theorem Chip.outside_with_fld (h : w.fld = true) (x : FStore) :
    Chip.outside { c with fld := x } w o = c.outside w o := by simp only [Chip.outside, h, cond_true]
@[simp ↓] theorem Chip.outside_with_freeCtr (h : w.freeCtr = true) (x : Nat) :
    Chip.outside { c with freeCtr := x } w o = c.outside w o := by simp only [Chip.outside, h, cond_true]
@[simp ↓] theorem Chip.outside_with_pins (h : w.pins = true) (x : Pins) :
    Chip.outside { c with pins := x } w o = c.outside w o := by simp only [Chip.outside, h, cond_true]
@[simp ↓] theorem Chip.outside_with_host (h : w.host = true) (x : Mem) :
    Chip.outside { c with host := x } w o = c.outside w o := by simp only [Chip.outside, h, cond_true]
@[simp ↓] theorem Chip.outside_with_flash (h : w.flash = true) (x : Mem) :
    Chip.outside { c with flash := x } w o = c.outside w o := by simp only [Chip.outside, h, cond_true]
@[simp ↓] theorem Chip.outside_with_bus (h : w.bus = true) (x : Bus) :
    Chip.outside { c with bus := x } w o = c.outside w o := by simp only [Chip.outside, h, cond_true]
@[simp ↓] theorem Chip.outside_with_tim (h : w.tim = true) (x : Tim) :
    Chip.outside { c with tim := x } w o = c.outside w o := by simp only [Chip.outside, h, cond_true]
@[simp ↓] theorem Chip.outside_with_cyc (h : w.cyc = true) (x : Cyc) :
    Chip.outside { c with cyc := x } w o = c.outside w o := by simp only [Chip.outside, h, cond_true]
@[simp ↓] theorem Chip.outside_with_evt (h : w.evt = true) (x : NMap EvtRt) :
    Chip.outside { c with evt := x } w o = c.outside w o := by simp only [Chip.outside, h, cond_true]
@[simp ↓] theorem Chip.outside_with_toutFall (h : w.toutFall = true) (x : PMap Nat) :
    Chip.outside { c with toutFall := x } w o = c.outside w o := by simp only [Chip.outside, h, cond_true]
@[simp ↓] theorem Chip.outside_with_caps (h : w.caps = true) (x : NMap (List CapRec)) :
    Chip.outside { c with caps := x } w o = c.outside w o := by simp only [Chip.outside, h, cond_true]
@[simp ↓] theorem Chip.outside_with_tsq (h : w.tsq = true) (x : NMap (List TsRec)) :
    Chip.outside { c with tsq := x } w o = c.outside w o := by simp only [Chip.outside, h, cond_true]
@[simp ↓] theorem Chip.outside_with_tsqLost (h : w.tsqLost = true) (x : NMap Bool) :
    Chip.outside { c with tsqLost := x } w o = c.outside w o := by simp only [Chip.outside, h, cond_true]
@[simp ↓] theorem Chip.outside_with_img (h : w.img = true) (x : Img) :
    Chip.outside { c with img := x } w o = c.outside w o := by simp only [Chip.outside, h, cond_true]
@[simp ↓] theorem Chip.outside_with_ctl (h : w.ctl = true) (x : Ctl) :
    Chip.outside { c with ctl := x } w o = c.outside w o := by simp only [Chip.outside, h, cond_true]
@[simp ↓] theorem Chip.outside_with_fenced (h : w.fenced = true) (x : List (Nat × Nat)) :
    Chip.outside { c with fenced := x } w o = c.outside w o := by simp only [Chip.outside, h, cond_true]
@[simp ↓] theorem Chip.outside_with_ports (h : w.ports = true) (x : NMap PortRt) :
    Chip.outside { c with ports := x } w o = c.outside w o := by simp only [Chip.outside, h, cond_true]
@[simp ↓] theorem Chip.outside_with_engs (h : w.engs = true) (x : NMap EngRt) :
    Chip.outside { c with engs := x } w o = c.outside w o := by simp only [Chip.outside, h, cond_true]
@[simp ↓] theorem Chip.outside_with_pipes (h : w.pipes = true) (x : NMap PipeRt) :
    Chip.outside { c with pipes := x } w o = c.outside w o := by simp only [Chip.outside, h, cond_true]
@[simp ↓] theorem Chip.outside_with_tcam (h : w.tcam = true) (x : PMap TcamRow) :
    Chip.outside { c with tcam := x } w o = c.outside w o := by simp only [Chip.outside, h, cond_true]
@[simp ↓] theorem Chip.outside_with_tbl (h : w.tbl = true) (x : PMap (List Nat)) :
    Chip.outside { c with tbl := x } w o = c.outside w o := by simp only [Chip.outside, h, cond_true]
@[simp ↓] theorem Chip.outside_with_tblEcc (h : w.tblEcc = true) (x : PMap Nat) :
    Chip.outside { c with tblEcc := x } w o = c.outside w o := by simp only [Chip.outside, h, cond_true]
@[simp ↓] theorem Chip.outside_with_tblHall (h : w.tblHall = true) (x : PMap Nat) :
    Chip.outside { c with tblHall := x } w o = c.outside w o := by simp only [Chip.outside, h, cond_true]
@[simp ↓] theorem Chip.outside_with_jobs (h : w.jobs = true) (x : NMap TblJob) :
    Chip.outside { c with jobs := x } w o = c.outside w o := by simp only [Chip.outside, h, cond_true]
@[simp ↓] theorem Chip.outside_with_lrn (h : w.lrn = true) (x : List LrnRec) :
    Chip.outside { c with lrn := x } w o = c.outside w o := by simp only [Chip.outside, h, cond_true]
@[simp ↓] theorem Chip.outside_with_lrnLast (h : w.lrnLast = true) (x : List LrnRec) :
    Chip.outside { c with lrnLast := x } w o = c.outside w o := by simp only [Chip.outside, h, cond_true]
@[simp ↓] theorem Chip.outside_with_agerNext (h : w.agerNext = true) (x : Nat) :
    Chip.outside { c with agerNext := x } w o = c.outside w o := by simp only [Chip.outside, h, cond_true]
@[simp ↓] theorem Chip.outside_with_supSeq (h : w.supSeq = true) (x : NMap Nat) :
    Chip.outside { c with supSeq := x } w o = c.outside w o := by simp only [Chip.outside, h, cond_true]
@[simp ↓] theorem Chip.outside_with_atr (h : w.atr = true) (x : Atr) :
    Chip.outside { c with atr := x } w o = c.outside w o := by simp only [Chip.outside, h, cond_true]
@[simp ↓] theorem Chip.outside_with_sgate (h : w.sgate = true) (x : NMap SGateRt) :
    Chip.outside { c with sgate := x } w o = c.outside w o := by simp only [Chip.outside, h, cond_true]
@[simp ↓] theorem Chip.outside_with_gal (h : w.gal = true) (x : Gal) :
    Chip.outside { c with gal := x } w o = c.outside w o := by simp only [Chip.outside, h, cond_true]
@[simp ↓] theorem Chip.outside_with_rings (h : w.rings = true) (x : PMap RingRt) :
    Chip.outside { c with rings := x } w o = c.outside w o := by simp only [Chip.outside, h, cond_true]
@[simp ↓] theorem Chip.outside_with_dma (h : w.dma = true) (x : NMap DmaRt) :
    Chip.outside { c with dma := x } w o = c.outside w o := by simp only [Chip.outside, h, cond_true]
@[simp ↓] theorem Chip.outside_with_halls (h : w.halls = true) (x : NMap HallRt) :
    Chip.outside { c with halls := x } w o = c.outside w o := by simp only [Chip.outside, h, cond_true]
@[simp ↓] theorem Chip.outside_with_snaps (h : w.snaps = true) (x : NMap SnapJob) :
    Chip.outside { c with snaps := x } w o = c.outside w o := by simp only [Chip.outside, h, cond_true]
@[simp ↓] theorem Chip.outside_with_sec (h : w.sec = true) (x : Sec) :
    Chip.outside { c with sec := x } w o = c.outside w o := by simp only [Chip.outside, h, cond_true]
@[simp ↓] theorem Chip.outside_with_flt (h : w.flt = true) (x : Flt) :
    Chip.outside { c with flt := x } w o = c.outside w o := by simp only [Chip.outside, h, cond_true]
@[simp ↓] theorem Chip.outside_with_cnt (h : w.cnt = true) (x : PMap Nat) :
    Chip.outside { c with cnt := x } w o = c.outside w o := by simp only [Chip.outside, h, cond_true]
@[simp ↓] theorem Chip.outside_with_residue (h : w.residue = true) (x : PMap Nat) :
    Chip.outside { c with residue := x } w o = c.outside w o := by simp only [Chip.outside, h, cond_true]
@[simp ↓] theorem Chip.outside_with_aevc (h : w.aevc = true) (x : NMap Nat) :
    Chip.outside { c with aevc := x } w o = c.outside w o := by simp only [Chip.outside, h, cond_true]
@[simp ↓] theorem Chip.outside_with_aevcPrev (h : w.aevcPrev = true) (x : NMap Nat) :
    Chip.outside { c with aevcPrev := x } w o = c.outside w o := by simp only [Chip.outside, h, cond_true]

@[simp ↓] theorem Chip.outside_ite {p : Prop} [Decidable p] {a b : Chip} :
    (if p then a else b).outside w o = if p then a.outside w o else b.outside w o := apply_ite (Chip.outside · w o) ..

theorem Chip.outside_foldl {α : Type} {f : Chip → α → Chip} (h : ∀ c a, (f c a).outside w o = c.outside w o) (l : List α) :
    (l.foldl f c).outside w o = c.outside w o := foldl_keep (Chip.outside · w o) f h l c

/-- The same for a loop that also counts and watches for an error. -/
theorem Chip.outside_foldl_count {α : Type} {f : Nat × Bool × Chip → α → Nat × Bool × Chip}
    (h : ∀ a x, (f a x).2.2.outside w o = a.2.2.outside w o) (l : List α) (a : Nat × Bool × Chip) :
    (l.foldl f a).2.2.outside w o = a.2.2.outside w o := foldl_keep (fun a => a.2.2.outside w o) f h l a

/-! ## Registers -/

section
variable (hfld : w.fld = true)
include hfld

@[simp ↓] theorem Chip.set_outside (f : F) (i j v : Nat) : (c.set f i j v).outside w o = c.outside w o :=
  Chip.outside_with_fld hfld _
@[simp ↓] theorem Chip.unset_outside (f : F) (i j : Nat) : (c.unset f i j).outside w o = c.outside w o :=
  Chip.outside_with_fld hfld _
@[simp ↓] theorem Chip.cntSat_outside (f : F) (i j n : Nat) : (c.cntSat f i j n).outside w o = c.outside w o :=
  Chip.set_outside hfld ..
@[simp ↓] theorem Chip.cntWrap_outside (f : F) (i j n : Nat) : (c.cntWrap f i j n).outside w o = c.outside w o :=
  Chip.set_outside hfld ..
@[simp ↓] theorem Chip.cntOvf_outside (f fo : F) (i j n : Nat) : (c.cntOvf f fo i j n).outside w o = c.outside w o := by
  simp [Chip.cntOvf, hfld]
@[simp ↓] theorem Chip.stateErr_outside : c.stateErr.outside w o = c.outside w o := Chip.cntOvf_outside hfld ..
@[simp ↓] theorem Chip.outcome_outside (st : F) (i j code : Nat) : (c.outcome st i j code).outside w o = c.outside w o := by
  simp [Chip.outcome, hfld]
@[simp ↓] theorem Chip.putBytes_outside (f : F) (bs : List Nat) : (c.putBytes f bs).outside w o = c.outside w o :=
  Chip.outside_foldl (by simp [hfld]) _
@[simp ↓] theorem Chip.clearKeKey_outside : c.clearKeKey.outside w o = c.outside w o := Chip.outside_foldl (by simp [hfld]) _
@[simp ↓] theorem Chip.setKeyLoaded_outside (n x v : Nat) : (c.setKeyLoaded n x v).outside w o = c.outside w o := by
  simp [Chip.setKeyLoaded, hfld]
@[simp ↓] theorem Chip.setRng_outside (s : Nat) : (c.setRng s).outside w o = c.outside w o := Chip.set_outside hfld ..
@[simp ↓] theorem Chip.setLane_outside (f : F) (n v : Nat) : (c.setLane f n v).outside w o = c.outside w o :=
  Chip.set_outside hfld ..
@[simp ↓] theorem Chip.enterLink_outside (n s : Nat) : (c.enterLink n s).outside w o = c.outside w o := by
  simp [Chip.enterLink, hfld]
@[simp ↓] theorem Chip.rxCnt_outside (n i k : Nat) : (c.rxCnt n i k).outside w o = c.outside w o := Chip.cntSat_outside hfld ..
@[simp ↓] theorem Chip.txAbort_outside (n : Nat) : (c.txAbort n).outside w o = c.outside w o := Chip.rxCnt_outside hfld ..
@[simp ↓] theorem Chip.pairCnt_outside (k i : Nat) : (c.pairCnt k i).outside w o = c.outside w o := Chip.cntSat_outside hfld ..
@[simp ↓] theorem Chip.sbAborted_outside : c.sbAborted.outside w o = c.outside w o := Chip.cntSat_outside hfld ..
@[simp ↓] theorem Chip.clampFreq_outside (f : Nat) : (c.clampFreq f).2.outside w o = c.outside w o := by
  simp [Chip.clampFreq, hfld]
@[simp ↓] theorem Chip.gclMovePending_outside (n : Nat) : (c.gclMovePending n).outside w o = c.outside w o := by
  simp [Chip.gclMovePending, hfld]
@[simp ↓] theorem Chip.gateQuiesced_outside (n : Nat) : (c.gateQuiesced n).outside w o = c.outside w o := by
  simp [Chip.gateQuiesced, hfld]
@[simp ↓] theorem Chip.giveCells_outside (cells : List Nat) : (c.giveCells cells).outside w o = c.outside w o :=
  Chip.set_outside hfld ..
@[simp ↓] theorem Chip.uncharge_outside (hall cls n : Nat) : (c.uncharge hall cls n).outside w o = c.outside w o := by
  simp [Chip.uncharge, hfld]
@[simp ↓] theorem Chip.unstage_outside (l : Load) : (c.unstage l).outside w o = c.outside w o := Chip.set_outside hfld ..
@[simp ↓] theorem Chip.atrCnt_outside (i n : Nat) : (c.atrCnt i n).outside w o = c.outside w o := Chip.cntSat_outside hfld ..
@[simp ↓] theorem Chip.rsqSkip_outside (n : Nat) : (c.rsqSkip n).outside w o = c.outside w o := Chip.set_outside hfld ..
@[simp ↓] theorem Chip.rsqLate_outside (n : Nat) : (c.rsqLate n).outside w o = c.outside w o := Chip.set_outside hfld ..
@[simp ↓] theorem Chip.galCnt_outside (i : Nat) : (c.galCnt i).outside w o = c.outside w o := Chip.cntSat_outside hfld ..
@[simp ↓] theorem Chip.setStair_outside (k s : Nat) : (c.setStair k s).outside w o = c.outside w o := Chip.set_outside hfld ..
@[simp ↓] theorem Chip.setRole_outside : c.setRole.outside w o = c.outside w o := Chip.set_outside hfld ..
@[simp ↓] theorem Chip.galPortUp_outside (n : Nat) : (c.galPortUp n).outside w o = c.outside w o := by
  unfold Chip.galPortUp; split <;> simp [hfld]

end

/-! ## One other component -/

@[simp ↓] theorem Chip.free_outside (h : w.freeCtr = true) : c.free.2.outside w o = c.outside w o := Chip.outside_with_freeCtr h _
@[simp ↓] theorem Chip.setTout_outside (h : w.pins = true) (x : Nat) (b : Bool) : (c.setTout x b).outside w o = c.outside w o :=
  Chip.outside_with_pins h _
@[simp ↓] theorem Chip.rearm_outside (h : w.bus = true) : c.rearm.outside w o = c.outside w o := Chip.outside_with_bus h _
@[simp ↓] theorem Chip.readGives_outside (h : w.bus = true) (m v : Nat) : (c.readGives m v).outside w o = c.outside w o :=
  Chip.outside_with_bus h _
@[simp ↓] theorem Chip.irq_outside (h : w.bus = true) (fn vec : Nat) : (c.irq fn vec).outside w o = c.outside w o :=
  Chip.outside_with_bus h _
@[simp ↓] theorem Chip.hallEvent_outside (h : w.bus = true) (x : Nat) : (c.hallEvent x).outside w o = c.outside w o :=
  Chip.irq_outside h ..
@[simp ↓] theorem Chip.setStep_outside (h : w.tim = true) (k : Nat) : (c.setStep k).outside w o = c.outside w o :=
  Chip.outside_with_tim h _
@[simp ↓] theorem Chip.setEvt_outside (h : w.evt = true) (k : Nat) (r : EvtRt) : (c.setEvt k r).outside w o = c.outside w o :=
  Chip.outside_with_evt h _
@[simp ↓] theorem Chip.setPort_outside (h : w.ports = true) (n : Nat) (p : PortRt) : (c.setPort n p).outside w o = c.outside w o :=
  Chip.outside_with_ports h _
@[simp ↓] theorem Chip.setCredit_outside (h : w.ports = true) (n lvl i : Nat) (v : Int) :
    (c.setCredit n lvl i v).outside w o = c.outside w o := Chip.setPort_outside h ..
@[simp ↓] theorem Chip.refillNode_outside (h : w.ports = true) (n lvl i : Nat) : (c.refillNode n lvl i).outside w o = c.outside w o := by
  simp [Chip.refillNode, h]
@[simp ↓] theorem Chip.dropDeficits_outside (h : w.ports = true) (n : Nat) : (c.dropDeficits n).outside w o = c.outside w o := by
  simp [Chip.dropDeficits, h]
@[simp ↓] theorem Chip.setEng_outside (h : w.engs = true) (n : Nat) (r : EngRt) : (c.setEng n r).outside w o = c.outside w o :=
  Chip.outside_with_engs h _
@[simp ↓] theorem Chip.setPipe_outside (h : w.pipes = true) (p : Nat) (r : PipeRt) : (c.setPipe p r).outside w o = c.outside w o :=
  Chip.outside_with_pipes h _
@[simp ↓] theorem setSgate_outside (h : w.sgate = true) (g : Nat) (r : SGateRt) : (setSgate c g r).outside w o = c.outside w o :=
  Chip.outside_with_sgate h _
@[simp ↓] theorem Chip.giveUpBuild_outside (h : w.gal = true) : c.giveUpBuild.outside w o = c.outside w o :=
  Chip.outside_with_gal h _
@[simp ↓] theorem Chip.setRingRt_outside (h : w.rings = true) (x r : Nat) (y : RingRt) :
    (c.setRingRt x r y).outside w o = c.outside w o := Chip.outside_with_rings h _
@[simp ↓] theorem Chip.devCnt_outside (h : w.cnt = true) (x n : Nat) : (c.devCnt x n).outside w o = c.outside w o :=
  Chip.outside_with_cnt h _
@[simp ↓] theorem Chip.discard1_outside (h : w.cnt = true) : c.discard1.outside w o = c.outside w o := Chip.devCnt_outside h ..
@[simp ↓] theorem Chip.stat_outside (h : w.residue = true) (pool x i n : Nat) : (c.stat pool x i n).outside w o = c.outside w o := by
  simp [Chip.stat, h]

/-! ## Several components at once: where the model writes them in one update -/

@[simp ↓] theorem Chip.random_outside (hfreeCtr : w.freeCtr = true) (hsec : w.sec = true) (nbits : Nat) :
    (c.random nbits).2.outside w o = c.outside w o := by simp [Chip.random, Chip.outside, *]
@[simp ↓] theorem Chip.delEntry_outside (htbl : w.tbl = true) (htblEcc : w.tblEcc = true) (htblHall : w.tblHall = true) (t i : Nat) :
    (c.delEntry t i).outside w o = c.outside w o := by simp [Chip.delEntry, Chip.outside, *]
@[simp ↓] theorem Chip.snapClear_outside (hcnt : w.cnt = true) (hresidue : w.residue = true) (h pool : Nat) :
    (c.snapClear h pool).outside w o = c.outside w o := by simp [Chip.snapClear, Chip.outside, *]

/-! ## Faults and fences -/

section
variable (hfld : w.fld = true) (hflt : w.flt = true)
include hfld hflt

@[simp ↓] theorem Chip.histEntry_outside (f u d : Nat) : (c.histEntry f u d).outside w o = c.outside w o := by
  simp [Chip.histEntry, hfld, hflt]

section
variable (hfenced : w.fenced = true)
include hfenced

@[simp ↓] theorem Chip.markUnfenced_outside (kind idx : Nat) : (c.markUnfenced kind idx).outside w o = c.outside w o := by
  simp [Chip.markUnfenced, *]
@[simp ↓] theorem Chip.pipeBack_outside (p : Nat) (pass : Bool) : (c.pipeBack p pass).2.outside w o = c.outside w o := by
  unfold Chip.pipeBack; (repeat' split) <;> simp [*]
@[simp ↓] theorem Chip.portBack_outside (n : Nat) : (c.portBack n).2.outside w o = c.outside w o := by
  unfold Chip.portBack; split <;> simp [*]

end

section
variable (hbus : w.bus = true)
include hbus

omit hflt in
@[simp ↓] theorem Chip.latchFault_outside (f : Nat) : (c.latchFault f).outside w o = c.outside w o := by
  unfold Chip.latchFault; dsimp only; simp [*]
@[simp ↓] theorem Chip.raiseD_outside (f u d : Nat) : (c.raiseD f u d).outside w o = c.outside w o := by
  simp [Chip.raiseD, *]
@[simp ↓] theorem Chip.raise_outside (f u : Nat) : (c.raise f u).outside w o = c.outside w o := by
  simp [Chip.raise, *]
@[simp ↓] theorem Chip.raiseLogged_outside (f u : Nat) : (c.raiseLogged f u).outside w o = c.outside w o := by
  simp [Chip.raiseLogged, *]

end

end

@[simp ↓] theorem Chip.heat_outside (hflt : w.flt = true) (htim : w.tim = true) : c.heat.outside w o = c.outside w o := by
  simp [Chip.heat, *]

/-! ## Clocks, event slots, gates and quiesce -/

section
variable (hfld : w.fld = true) (htim : w.tim = true)
include hfld htim

@[simp ↓] theorem Chip.timeQuiesced_outside : c.timeQuiesced.outside w o = c.outside w o := by
  unfold Chip.timeQuiesced; split <;> simp [*]
@[simp ↓] theorem Chip.markStopped_outside (hctl : w.ctl = true) (d i : Nat) : (c.markStopped d i).outside w o = c.outside w o := by
  unfold Chip.markStopped; dsimp only; split
  case h_4 => rw [Chip.outside_foldl (by simp [hfld])]; simp [*]
  all_goals simp [*]
@[simp ↓] theorem Chip.commitRate_outside (r : Int) : (c.commitRate r).outside w o = c.outside w o := by
  simp [Chip.commitRate, *]
@[simp ↓] theorem Chip.servoUpdate_outside (x : Int) (dt : Nat) : (c.servoUpdate x dt).outside w o = c.outside w o := by
  simp [Chip.servoUpdate, *]

section
variable (hbus : w.bus = true) (hflt : w.flt = true)
include hbus hflt

@[simp ↓] theorem Chip.jump_outside : c.jump.outside w o = c.outside w o := by
  unfold Chip.jump; dsimp only; simp [*]
@[simp ↓] theorem Chip.judgeOffset_outside (x : Int) (dt : Option Nat) : (c.judgeOffset x dt).outside w o = c.outside w o := by
  unfold Chip.judgeOffset; dsimp only; cases dt <;> (repeat' split) <;> simp [*]
@[simp ↓] theorem Chip.servoOffset_outside (x : Int) (fixed : Option Nat) : (c.servoOffset x fixed).outside w o = c.outside w o := by
  unfold Chip.servoOffset; dsimp only; (repeat' split) <;> simp [*]

end

end

@[simp ↓] theorem Chip.cycHold_outside (hfld : w.fld = true) (hbus : w.bus = true) (hcyc : w.cyc = true) (hflt : w.flt = true) :
    c.cycHold.outside w o = c.outside w o := by simp [Chip.cycHold, *]
@[simp ↓] theorem Chip.gclEnter_outside (hfld : w.fld = true) (hports : w.ports = true) (n : Nat) (p : GclP) (ps es k : Nat) :
    (c.gclEnter n p ps es k).outside w o = c.outside w o := by simp [Chip.gclEnter, *]
@[simp ↓] theorem Chip.sgEnter_outside (hfld : w.fld = true) (hsgate : w.sgate = true) (g : Nat) (p : GclP) (ps es k : Nat) :
    (c.sgEnter g p ps es k).outside w o = c.outside w o := by simp [Chip.sgEnter, *]
@[simp ↓] theorem Chip.evtAct_outside (hpins : w.pins = true) (htoutFall : w.toutFall = true) (k x : Nat) :
    (c.evtAct k x).outside w o = c.outside w o := by unfold Chip.evtAct; split <;> simp [*]
@[simp ↓] theorem Chip.evtFire_outside (hfld : w.fld = true) (hpins : w.pins = true) (hbus : w.bus = true) (htim : w.tim = true)
    (hevt : w.evt = true) (htoutFall : w.toutFall = true) (k : Nat) : (c.evtFire k).outside w o = c.outside w o := by
  simp [Chip.evtFire, *]
@[simp ↓] theorem Chip.tsqPush_outside (hfld : w.fld = true) (hbus : w.bus = true) (htsq : w.tsq = true) (htsqLost : w.tsqLost = true)
    (n hall source x t ep : Nat) : (c.tsqPush n hall source x t ep).outside w o = c.outside w o := by
  unfold Chip.tsqPush; dsimp only; split
  · simp [*]
  · rw [Chip.hallEvent_outside hbus]; simp [Chip.outside, *]

/-! ## Frames, copies, the resequencer and the counters -/

section
variable (hatr : w.atr = true)
include hatr

@[simp ↓] theorem Chip.setFrame_outside (i : Nat) (f : Frame) : (c.setFrame i f).outside w o = c.outside w o :=
  Chip.outside_with_atr hatr _
@[simp ↓] theorem Chip.delFrame_outside (i : Nat) : (c.delFrame i).outside w o = c.outside w o := Chip.outside_with_atr hatr _
@[simp ↓] theorem Chip.newFrame_outside (f : Frame) : (c.newFrame f).2.outside w o = c.outside w o := by
  simp [Chip.newFrame, hatr]
@[simp ↓] theorem Chip.setQueue_outside (n q : Nat) (l : List Copy) : (c.setQueue n q l).outside w o = c.outside w o :=
  Chip.outside_with_atr hatr _
@[simp ↓] theorem Chip.setMir_outside (s : Nat) (r : MirRt) : (c.setMir s r).outside w o = c.outside w o :=
  Chip.outside_with_atr hatr _
@[simp ↓] theorem Chip.putRsq_outside (r : Rsq) : (c.putRsq r).outside w o = c.outside w o := Chip.outside_with_atr hatr _
@[simp ↓] theorem Chip.delRsq_outside (i : Nat) : (c.delRsq i).outside w o = c.outside w o := Chip.outside_with_atr hatr _
@[simp ↓] theorem Chip.gc_outside (i : Nat) : (c.gc i).outside w o = c.outside w o := by
  unfold Chip.gc; split <;> simp [hatr]
@[simp ↓] theorem Chip.unsample_outside (x : Copy) : (c.unsample x).outside w o = c.outside w o := by
  simp [Chip.unsample, hatr]
@[simp ↓] theorem Chip.giveBack_outside (hs : List Held) : (c.giveBack hs).outside w o = c.outside w o :=
  Chip.outside_foldl (by simp [hatr]) _
@[simp ↓] theorem Chip.rsqAdvance_outside (r : Rsq) (x : Nat) : (c.rsqAdvance r x).outside w o = c.outside w o := by
  simp [Chip.rsqAdvance, hatr]

section
variable (hfld : w.fld = true)
include hfld

@[simp ↓] theorem Chip.freeFrameCells_outside (i : Nat) (f : Frame) : (c.freeFrameCells i f).outside w o = c.outside w o := by
  simp [Chip.freeFrameCells, *]
@[simp ↓] theorem Chip.release_outside (i : Nat) : (c.release i).outside w o = c.outside w o := by
  unfold Chip.release; split <;> simp [*]
@[simp ↓] theorem Chip.moveEnd_outside (n : Nat) : (c.moveEnd n).outside w o = c.outside w o := by
  unfold Chip.moveEnd; split <;> simp [*]

section
variable (hcnt : w.cnt = true)
include hcnt

omit hatr in
@[simp ↓] theorem Chip.disc_outside (n cls : Nat) : (c.disc n cls).outside w o = c.outside w o := by
  simp [Chip.disc, *]
omit hatr in
@[simp ↓] theorem Chip.vestDrop_outside (n : Nat) : (c.vestDrop n).outside w o = c.outside w o := by
  simp [Chip.vestDrop, *]
@[simp ↓] theorem Chip.dropCopy_outside (n : Nat) (x : Copy) : (c.dropCopy n x).outside w o = c.outside w o := by
  simp [Chip.dropCopy, *]

@[simp ↓] theorem Chip.moveExpire_outside (r : Rsq) (n : Nat) : (c.moveExpire r n).outside w o = c.outside w o := by
  unfold Chip.moveExpire; dsimp only
  split
  all_goals
    simp only [*, Chip.set_outside, Chip.giveBack_outside, Chip.delRsq_outside, Chip.putRsq_outside]
    refine Chip.outside_foldl (fun c k => ?_) _
    rw [Chip.outside_foldl (by simp [*])]; simp [*]
@[simp ↓] theorem Chip.rsqExpire_outside (r : Rsq) : (c.rsqExpire r).outside w o = c.outside w o := by
  unfold Chip.rsqExpire; (repeat' split) <;> simp [*]

end

end

end

@[simp ↓] theorem Chip.countTx_outside (hcnt : w.cnt = true) (hresidue : w.residue = true) (n cls : Nat) (t : Tx) :
    (c.countTx n cls t).outside w o = c.outside w o := by simp [Chip.countTx, *]

section
variable (hsnaps : w.snaps = true) (hcnt : w.cnt = true) (hresidue : w.residue = true)
include hsnaps hcnt hresidue

@[simp ↓] theorem Chip.snapStart_outside (h : Nat) : (c.snapStart h).outside w o = c.outside w o := by
  unfold Chip.snapStart; split <;> simp [*]
@[simp ↓] theorem Chip.snapTurn_outside (h : Nat) : (c.snapTurn h).outside w o = c.outside w o := by
  unfold Chip.snapTurn; (repeat' split) <;> simp [*]

end

/-! ## The table engine -/

section
variable (hfld : w.fld = true) (hbus : w.bus = true) (htbl : w.tbl = true) (htblEcc : w.tblEcc = true) (htblHall : w.tblHall = true)
  (hflt : w.flt = true) (hresidue : w.residue = true)

include htbl htblEcc htblHall hflt in
@[simp ↓] theorem Chip.putEntry_outside (t i : Nat) (words : List Nat) : (c.putEntry t i words).outside w o = c.outside w o := by
  have h : (if c.flt.eccNext.get 0 1 t = 0 then { c with tblEcc := c.tblEcc.put 0 t i 0 }
      else { c with tblEcc := c.tblEcc.put 0 t i (c.flt.eccNext.get 0 1 t),
                    flt := { c.flt with eccNext := c.flt.eccNext.put 0 1 t 0 } } : Chip).outside w o = c.outside w o := by
    split <;> simp [Chip.outside, *]
  unfold Chip.putEntry; dsimp only; split
  · exact (Chip.outside_with_tbl htbl _).trans h
  · exact (Chip.delEntry_outside htbl htblEcc htblHall ..).trans h

include hfld hresidue in
@[simp ↓] theorem Chip.fdbEvt_outside (k h : Nat) : (c.fdbEvt k h).outside w o = c.outside w o := by
  simp [Chip.fdbEvt, *]

include hfld htbl htblEcc hresidue in
theorem Chip.modify_outside {t i : Nat} {f : List Nat → List Nat} {d : Chip} (h : c.modify t i f = some d) :
    d.outside w o = c.outside w o := by
  unfold Chip.modify at h
  (repeat' split at h) <;> cases h
  · rfl
  · simp [htbl]
  · rw [Chip.fdbEvt_outside hfld hresidue]; simp [Chip.outside, *]

include hfld hbus htbl htblEcc htblHall hflt hresidue

@[simp ↓] theorem Chip.eccRead_outside (t i : Nat) : (c.eccRead t i).outside w o = c.outside w o := by
  unfold Chip.eccRead; split <;> simp [*]
@[simp ↓] theorem Chip.eccDiscard_outside (t i : Nat) : (c.eccDiscard t i).outside w o = c.outside w o := by
  simp [Chip.eccDiscard, *]
@[simp ↓] theorem Chip.update_outside (t i : Nat) (f : List Nat → List Nat) : (c.update t i f).outside w o = c.outside w o := by
  unfold Chip.update
  cases h : c.modify t i f with
  | none => simp [*]
  | some d => exact Chip.modify_outside hfld htbl htblEcc hresidue h
@[simp ↓] theorem Chip.updateEcc_outside (t i : Nat) (f : List Nat → List Nat) : (c.updateEcc t i f).2.outside w o = c.outside w o := by
  simp [Chip.updateEcc, *]
@[simp ↓] theorem Chip.clearEntry_outside (t i : Nat) : (c.clearEntry t i).2.outside w o = c.outside w o := by
  unfold Chip.clearEntry; split
  · next h => simp [*, Chip.modify_outside hfld htbl htblEcc hresidue h]
  · simp [*]
@[simp ↓] theorem Chip.delAll_outside (t : Nat) (is : List Nat) : (c.delAll t is).2.2.outside w o = c.outside w o :=
  Chip.outside_foldl_count (fun a i => by dsimp only; split <;> simp [*]) is _
@[simp ↓] theorem Chip.ageEntry_outside (i : Nat) : (c.ageEntry i).2.2.outside w o = c.outside w o := by
  unfold Chip.ageEntry; dsimp only; (repeat' split) <;> simp [*]
@[simp ↓] theorem Chip.ageOver_outside (is : List Nat) : (c.ageOver is).2.2.outside w o = c.outside w o :=
  Chip.outside_foldl_count (fun a i => by simp [*]) is _
@[simp ↓] theorem Chip.agePass_outside : c.agePass.2.2.outside w o = c.outside w o := by
  simp [Chip.agePass, *]
@[simp ↓] theorem Chip.hashFind_outside (t n : Nat) (key : List Nat) (hit : List Nat → Bool) :
    (c.hashFind t n key hit).2.outside w o = c.outside w o := by
  unfold Chip.hashFind; split
  · rfl
  · exact Chip.outside_foldl (by simp [*]) _
@[simp ↓] theorem Chip.keyFind_outside (t : Nat) (key : List Nat) : (c.keyFind t key).2.outside w o = c.outside w o := by
  simp [Chip.keyFind, *]
@[simp ↓] theorem Chip.cmdEntry_outside (h op t : Nat) : (c.cmdEntry h op t).2.outside w o = c.outside w o := by
  unfold Chip.cmdEntry; split <;> simp [*]
@[simp ↓] theorem Chip.nextScan_outside (t hall : Nat) (is : List Nat) : (Chip.nextScan t hall is c).2.outside w o = c.outside w o := by
  induction is generalizing c with
  | nil => rfl
  | cons i is ih => unfold Chip.nextScan; dsimp only; split <;> simp [*]
@[simp ↓] theorem Chip.tblPut_outside (h t : Nat) (ws : List Nat) : (c.tblPut h t ws).2.outside w o = c.outside w o := by
  unfold Chip.tblPut; dsimp only; (repeat' split) <;> simp [*]
@[simp ↓] theorem Chip.tblExec_outside (hagerNext : w.agerNext = true) (h op t : Nat) :
    (c.tblExec h op t).2.outside w o = c.outside w o := by
  unfold Chip.tblExec; dsimp only; (repeat' split) <;> simp [TblRes.count, *]

section
variable (hfreeCtr : w.freeCtr = true)
include hfreeCtr

@[simp ↓] theorem Chip.tblPart_outside (h : Nat) (j : TblJob) : (c.tblPart h j).outside w o = c.outside w o := by
  simp [Chip.tblPart, *]
@[simp ↓] theorem Chip.tblStale_outside (hjobs : w.jobs = true) (h : Nat) (j : TblJob) :
    (c.tblStale h j).outside w o = c.outside w o := by
  unfold Chip.tblStale; dsimp only; simp [*]

end

end

/-! ## The gallery -/

section
variable (hfld : w.fld = true) (hgal : w.gal = true)
include hfld hgal

@[simp ↓] theorem Chip.dropPartial_outside : c.dropPartial.outside w o = c.outside w o := by
  simp [Chip.dropPartial, *]
@[simp ↓] theorem Chip.dropHandover_outside : c.dropHandover.outside w o = c.outside w o := by
  simp [Chip.dropHandover, *]
@[simp ↓] theorem Chip.reelect_outside : c.reelect.outside w o = c.outside w o := by
  simp [Chip.reelect, *]

section
variable (hbus : w.bus = true) (hflt : w.flt = true)
include hbus hflt

@[simp ↓] theorem Chip.orphan_outside : c.orphan.outside w o = c.outside w o := by
  simp [Chip.orphan, *]
@[simp ↓] theorem Chip.viewChanged_outside : c.viewChanged.outside w o = c.outside w o := by
  simp [Chip.viewChanged, *]
/-- What a change of the view brings with it lies in this footprint; `f` is the change. -/
theorem Chip.withView_outside {f : Chip → Chip} (hf : ∀ c, (f c).outside w o = c.outside w o) :
    (c.withView f).outside w o = c.outside w o := by
  unfold Chip.withView; dsimp only; simp [*]
@[simp ↓] theorem Chip.stairLost_outside (k : Nat) : (c.stairLost k).outside w o = c.outside w o :=
  Chip.withView_outside hfld hgal hbus hflt (by simp [*])

end

end

section
variable (hfreeCtr : w.freeCtr = true) (hsec : w.sec = true)
include hfreeCtr hsec

@[simp ↓] theorem Chip.signId_outside (digest : Nat) : (c.signId digest).2.outside w o = c.outside w o := by
  simp [Chip.signId, *]
@[simp ↓] theorem Chip.epochFrames_outside (dst : Nat) (x : Epoch) : (c.epochFrames dst x).2.outside w o = c.outside w o := by
  simp [Chip.epochFrames, *]

section
variable (hgal : w.gal = true)
include hgal

@[simp ↓] theorem Chip.phase1_outside (x : Epoch) : (c.phase1 x).outside w o = c.outside w o := by
  unfold Chip.phase1; dsimp only; simp [*]
@[simp ↓] theorem Chip.phase2_outside (x : Epoch) : (c.phase2 x).outside w o = c.outside w o := by
  unfold Chip.phase2; dsimp only; simp [*]

end

end

/-! ## The image loader -/

section
variable (hfld : w.fld = true) (himg : w.img = true)
include hfld himg

@[simp ↓] theorem Chip.loadStart_outside (src : Nat) (rest : List Nat) (byReset : Bool) :
    (c.loadStart src rest byReset).outside w o = c.outside w o := by simp [Chip.loadStart, *]

section
variable (hbus : w.bus = true) (hflt : w.flt = true)
include hbus hflt

omit himg in
@[simp ↓] theorem Chip.enterNoImage_outside : c.enterNoImage.outside w o = c.outside w o := by
  simp [Chip.enterNoImage, *]

section
variable (hctl : w.ctl = true)
include hctl

@[simp ↓] theorem Chip.loadEnd_outside (byReset : Bool) (code : Nat) : (c.loadEnd byReset code).outside w o = c.outside w o := by
  unfold Chip.loadEnd; dsimp only; split
  · rw [Chip.set_outside hfld]; simp [Chip.outside, *]
  · simp [*]
@[simp ↓] theorem Chip.loadFail_outside (l : Load) (f : Nat × Nat) : (c.loadFail l f).outside w o = c.outside w o := by
  unfold Chip.loadFail; dsimp only; cases l.rest <;> simp [*]

end

end

end

/-! ## Keys and random bits -/

section
variable (hfld : w.fld = true) (hsec : w.sec = true)
include hfld hsec

@[simp ↓] theorem Chip.initEnd_outside (code : Nat) : (c.initEnd code).outside w o = c.outside w o := by
  simp [Chip.initEnd, *]
@[simp ↓] theorem Chip.ceEnd_outside (code : Nat) (res : List Nat) : (c.ceEnd code res).outside w o = c.outside w o := by
  simp [Chip.ceEnd, *]
@[simp ↓] theorem Chip.keEnd_outside (code : Nat) : (c.keEnd code).outside w o = c.outside w o := by
  simp [Chip.keEnd, *]
@[simp ↓] theorem Chip.rngError_outside (hbus : w.bus = true) (hflt : w.flt = true) : c.rngError.outside w o = c.outside w o := by
  unfold Chip.rngError; dsimp only; (repeat' split) <;> simp [*]

section
variable (hfreeCtr : w.freeCtr = true)
include hfreeCtr

@[simp ↓] theorem Chip.generate_outside : c.generate.outside w o = c.outside w o := by
  simp [Chip.generate, *]
@[simp ↓] theorem Chip.rngServe_outside : c.rngServe.outside w o = c.outside w o := by
  unfold Chip.rngServe; dsimp only; (repeat' split) <;> simp [*]

end

end

@[simp ↓] theorem Chip.sbDrop_outside (hfld : w.fld = true) (hbus : w.bus = true) : c.sbDrop.outside w o = c.outside w o := by
  simp [Chip.sbDrop, *]
@[simp ↓] theorem Chip.ringIrq_outside (hbus : w.bus = true) (hrings : w.rings = true) (h r : Nat) :
    (c.ringIrq h r).outside w o = c.outside w o := by simp [Chip.ringIrq, *]

end

end Sys2Proof.Machine
end

section
/-! SUPPORT. The footprint of each event of `Obligations.EventFrames`, from those of the operations it is made of. -/

namespace Sys2Proof.Machine

/-- What `f` changes of a chip lies within the footprint `w`. -/
def Within (w : Footprint) (f : Chip → Chip) : Prop := ∀ c o, (f c).outside w o = c.outside w o

/-! ## Power, pins and the host link -/

theorem auxLoss_within : Within { pins := true } auxLoss := fun c o => by simp [auxLoss]
theorem vin48Rise_within : Within { pins := true } vin48Rise := fun c o => by simp [vin48Rise]
theorem pwrGoodRise_within (bootSrc : Nat) : Within { pins := true } (pwrGoodRise bootSrc) := fun c o => by simp [pwrGoodRise]
theorem perstNRelease_within : Within { pins := true } perstNRelease := fun c o => by simp [perstNRelease]
theorem hostLinkUp_within : Within { pins := true, bus := true } hostLinkUp := fun c o => by
  unfold hostLinkUp; split
  · simp [Chip.outside]
  · rfl
theorem stepUp_within : Within { tim := true } stepUp := fun c o => by simp [stepUp]
theorem fiGateOpen_within : Within { pins := true } fiGateOpen := fun c o => by simp [fiGateOpen]

/-! ## Clocks, event slots and captures -/

theorem ppsOutRise_within : Within { pins := true, tim := true } ppsOutRise := fun c o => by
  unfold ppsOutRise; dsimp only; split
  · simp [Chip.outside]
  · rfl
theorem ppsOutFall_within : Within { pins := true } ppsOutFall := fun c o => by simp [ppsOutFall]
theorem clk10mReturn_within : Within { pins := true } clk10mReturn := fun c o => by simp [clk10mReturn]
theorem clk10mLost_within : Within { fld := true, pins := true, bus := true, flt := true } clk10mLost := fun c o => by
  simp [clk10mLost]
theorem toutPulseEnd_within (x : Nat) : Within { pins := true, toutFall := true } (toutPulseEnd x) := fun c o => by
  unfold toutPulseEnd; split <;> simp
theorem cycSecondRecompute_within : Within { cyc := true } cycSecondRecompute := fun c o => by simp [cycSecondRecompute]
theorem cycRefLoss_within : Within { fld := true, bus := true, cyc := true, flt := true } cycRefLoss := fun c o => by
  simp [cycRefLoss]
theorem ppsInEdge_within : Within { fld := true, bus := true, tim := true, flt := true } ppsInEdge := fun c o => by
  simp [ppsInEdge]
theorem eventSlotFire_within (k : Nat) :
    Within { fld := true, pins := true, bus := true, tim := true, evt := true, toutFall := true } (eventSlotFire k) :=
  fun c o => by simp [eventSlotFire]
theorem capInEdge_within (x : Nat) (rising : Bool) (stableNs : Nat) :
    Within { fld := true, caps := true } (capInEdge x rising stableNs) := fun c o => by simp [capInEdge]

/-! ## Quiesce, reset, park and the image -/

theorem quiescedEvt_within : Within { fld := true, tim := true, ctl := true } quiescedEvt := fun c o => by
  unfold quiescedEvt; split <;> simp
theorem qscTimeout_within : Within { fld := true, ctl := true } qscTimeout := fun c o => by unfold qscTimeout; split <;> simp
theorem resetComplete_within (pass : Bool) :
    Within { fld := true, ctl := true, fenced := true, flt := true } (resetComplete pass) :=
  fun c o => by unfold resetComplete; split <;> simp
theorem hallResetComplete_within (h : Nat) : Within { fld := true, ctl := true } (hallResetComplete h) := fun c o => by
  unfold hallResetComplete; dsimp only; (repeat' split) <;> simp
theorem parkComplete_within (p : Nat) : Within { fld := true, ctl := true } (parkComplete p) := fun c o => by
  simp [parkComplete]
theorem pipeUnparked_within (p : Nat) : Within { ctl := true } (pipeUnparked p) := fun c o => by simp [pipeUnparked]
theorem portRemap_within (n : Nat) : Within { fld := true, ports := true } (portRemap n) := fun c o => by simp [portRemap]
theorem boot_within : Within { fld := true, bus := true, img := true, ctl := true, flt := true } boot := fun c o => by
  simp [boot]
theorem imageHeaderCheck_within (readOk : Bool) :
    Within { fld := true, bus := true, img := true, ctl := true, flt := true } (imageHeaderCheck readOk) :=
  fun c o => by unfold imageHeaderCheck; dsimp only; (repeat' split) <;> simp
theorem imageBodyCheck_within (readOk eccOk : Bool) :
    Within { fld := true, bus := true, img := true, ctl := true, flt := true } (imageBodyCheck readOk eccOk) :=
  fun c o => by unfold imageBodyCheck; dsimp only; (repeat' split) <;> simp

/-! ## Ports, gates and frames -/

theorem rxSignalDetect_within (n : Nat) : Within { fld := true } (rxSignalDetect n) := fun c o => by simp [rxSignalDetect]
theorem clockRecovered_within (n : Nat) : Within { fld := true, ports := true } (clockRecovered n) := fun c o => by
  simp [clockRecovered]
theorem anComplete_within (n : Nat) (full : Bool) : Within { fld := true, ports := true } (anComplete n full) := fun c o => by
  simp [anComplete]
theorem linkUp_within (n : Nat) : Within { fld := true, ports := true } (linkUp n) := fun c o => by simp [linkUp]
theorem errBudgetWindow_within (n : Nat) : Within { ports := true } (errBudgetWindow n) := fun c o => by simp [errBudgetWindow]
theorem pmacVerify_within (n : Nat) (response : Bool) : Within { ports := true } (pmacVerify n response) := fun c o => by
  simp [pmacVerify]
theorem swapSpareReady_within (x : Nat) : Within { engs := true } (swapSpareReady x) := fun c o => by
  unfold swapSpareReady; dsimp only; split <;> simp
theorem swapSwitchDone_within (x : Nat) : Within { engs := true } (swapSwitchDone x) := fun c o => by
  unfold swapSwitchDone; dsimp only; split <;> simp
theorem rxFrameStart_within (n : Nat) (data : List Byte) :
    Within { fld := true, ports := true, atr := true, cnt := true } (rxFrameStart n data) := fun c o => by simp [rxFrameStart]
theorem txCopyEnd_within (n : Nat) :
    Within { fld := true, bus := true, tsq := true, tsqLost := true, ports := true, atr := true, cnt := true,
             residue := true } (txCopyEnd n) := fun c o => by unfold txCopyEnd; dsimp only; (repeat' split) <;> simp
theorem preemptFragmentEnd_within (n sent : Nat) :
    Within { ports := true, residue := true } (preemptFragmentEnd n sent) :=
  fun c o => by unfold preemptFragmentEnd; dsimp only; split <;> simp
theorem shaperRefill_within : Within { tim := true, ports := true } shaperRefill := fun c o => by
  unfold shaperRefill; split
  · rfl
  · rw [Chip.outside_foldl (by simp)]; simp
theorem gateBoundary_within (n : Nat) : Within { fld := true, ports := true } (gateBoundary n) := fun c o => by
  simp [gateBoundary]
theorem holdAssert_within (n : Nat) : Within { fld := true, ports := true } (holdAssert n) := fun c o => by
  unfold holdAssert; split <;> simp
theorem streamGateBoundary_within (g : Nat) : Within { fld := true, sgate := true } (streamGateBoundary g) := fun c o => by
  simp [streamGateBoundary]
theorem flushCmdComplete_within (h : Nat) : Within { fld := true } (flushCmdComplete h) := fun c o => by simp [flushCmdComplete]

/-! ## The resequencer, the passes and the tables -/

theorem atriumSweepDone_within : Within { atr := true } atriumSweepDone := fun c o => by simp [atriumSweepDone]
theorem rsqReturn_within (n : Nat) : Within { fld := true, freeCtr := true, atr := true } (rsqReturn n) := fun c o => by
  unfold rsqReturn; split <;> simp
theorem rsqTimeout_within (x : Nat) : Within { fld := true, atr := true, cnt := true } (rsqTimeout x) := fun c o => by
  unfold rsqTimeout; split <;> simp
theorem rsqContextFree_within (x : Nat) : Within { atr := true } (rsqContextFree x) := fun c o => by
  unfold rsqContextFree; split <;> simp
theorem dupSweepPass_within :
    Within { fld := true, bus := true, tbl := true, tblEcc := true, tblHall := true, flt := true, residue := true } dupSweepPass :=
  fun c o => by
  unfold dupSweepPass; split
  · rfl
  · dsimp only
    rw [Chip.outside_foldl, Chip.outside_foldl]
    · intro c i; simp
    · intro c fi; split
      · rfl
      · simp
theorem agerPass_within :
    Within { fld := true, bus := true, tbl := true, tblEcc := true, tblHall := true, agerNext := true, flt := true,
             residue := true } agerPass := fun c o => by simp [agerPass]
theorem counterReaderPass_within : Within { fld := true, cnt := true, residue := true } counterReaderPass := fun c o =>
  Chip.outside_foldl (fun c x => by dsimp only; split <;> simp [Chip.outside]) _
theorem tblCmdComplete_within (h : Nat) :
    Within { fld := true, freeCtr := true, bus := true, tbl := true, tblEcc := true, tblHall := true, jobs := true,
             agerNext := true, flt := true, residue := true } (tblCmdComplete h) := fun c o => by
  unfold tblCmdComplete; dsimp only; split
  · rfl
  · split
    · simp
    · split
      · simp
      · simp only [Chip.set_outside]
        rw [Chip.outside_foldl (by simp)]; simp
theorem tcamCmdComplete_within (p : Nat) :
    Within { fld := true, pipes := true, tcam := true, flt := true } (tcamCmdComplete p) := fun c o => by
  unfold tcamCmdComplete; dsimp only; split
  · rfl
  · split
    · rw [Chip.set_outside rfl]; simp [Chip.outside]
    · split <;> simp
    · rw [Chip.set_outside rfl, Chip.outside_foldl (by simp)]; simp
theorem snapComplete_within (h : Nat) :
    Within { fld := true, host := true, snaps := true, cnt := true, residue := true } (snapComplete h) := fun c o => by
  unfold snapComplete; split
  · rfl
  · split
    · rfl
    · dsimp only; rw [Chip.snapTurn_outside rfl rfl rfl, Chip.set_outside rfl, Chip.set_outside rfl]; rfl
theorem ringIrqTimer_within (h r : Nat) : Within { bus := true, rings := true } (ringIrqTimer h r) := fun c o => by
  simp [ringIrqTimer]

/-! ## The gallery -/

theorem reportTx_within : Within { gal := true } reportTx := fun c o => by simp [reportTx]
theorem reportExpire_within (dev : Nat) : Within { fld := true, bus := true, gal := true, flt := true } (reportExpire dev) :=
  fun c o => by
  unfold reportExpire; split
  · rfl
  · exact Chip.withView_outside rfl rfl rfl rfl (by simp)
theorem stairLinkLost_within (k : Nat) :
    Within { fld := true, bus := true, gal := true, flt := true } (stairLinkLost k) := fun c o => by simp [stairLinkLost]
theorem electSettle_within : Within { fld := true, gal := true } electSettle := fun c o => by simp [electSettle]
theorem orphanReelect_within : Within { fld := true, gal := true } orphanReelect := fun c o => by simp [orphanReelect]
theorem epochBuild_within : Within { freeCtr := true, gal := true, sec := true } epochBuild := fun c o => by simp [epochBuild]
theorem epochAckTimeout_within :
    Within { fld := true, freeCtr := true, gal := true, sec := true } epochAckTimeout :=
  fun c o => by unfold epochAckTimeout; split <;> simp
theorem sprayEntryFree_within (dst flow : Nat) : Within { gal := true } (sprayEntryFree dst flow) := fun c o => by
  unfold sprayEntryFree; split <;> simp

/-! ## Side-band, monitors, faults and random bits -/

theorem kgLockTimeout_within : Within { bus := true } Chip.rearm := fun _ _ => Chip.rearm_outside rfl
theorem sbAlertResponse_within : Within { bus := true } sbAlertResponse := fun c o => by simp [sbAlertResponse]
theorem sbSclTimeout_within : Within { fld := true, bus := true } sbSclTimeout := fun c o => by simp [sbSclTimeout]
theorem regAccessComplete_within : Within { bus := true } regAccessComplete := fun c o => by simp [regAccessComplete]
theorem thermThreshold_within (x : Nat) (t : Int) :
    Within { fld := true, bus := true, tim := true, flt := true } (thermThreshold x t) :=
  fun c o => by unfold thermThreshold; split <;> simp
theorem collectorOutvoted_within (copy : Nat) :
    Within { fld := true, bus := true, flt := true } (collectorOutvoted copy) := fun c o => by simp [collectorOutvoted]
theorem collectorSelfTest_within : Within { flt := true } collectorSelfTest := fun c o => by simp [collectorSelfTest]
theorem safeTrip_within : Within { fld := true, bus := true } safeTrip := fun c o => by simp [safeTrip]
theorem fenceCmdComplete_within (pass : Bool) :
    Within { fld := true, fenced := true, flt := true } (fenceCmdComplete pass) :=
  fun c o => by unfold fenceCmdComplete; split <;> simp
theorem entropyWindow_within (samples : List Bool) :
    Within { fld := true, freeCtr := true, bus := true, sec := true, flt := true } (entropyWindow samples) :=
  fun c o => by unfold entropyWindow; split <;> simp
theorem drbgReseed_within : Within { sec := true } drbgReseed := fun c o => by simp [drbgReseed]
theorem keCmdComplete_within : Within { fld := true, freeCtr := true, sec := true } keCmdComplete := fun c o => by
  unfold keCmdComplete; (repeat' split) <;> simp

end Sys2Proof.Machine
end

section
/-! SUPPORT. The frames of the events as `exec` gives them, and the registers that six of them may write. -/

namespace Sys2Proof.Machine

/-- Command `i` answers a next state that is `s` but for the parts of the chip that `w` names. -/
def Framed (w : Footprint) (s : State) (i : Instr) : Prop :=
  ∃ t, exec i s = .next t ∧ t = { s with chip := s.chip.outside w t.chip }

theorem framed_of_within {w : Footprint} {s : State} {i : Instr} {f : Chip → Chip} (hf : Within w f)
    (hx : exec i s = .next (s.onChip f)) : Framed w s i :=
  ⟨s.onChip f, hx, congrArg (fun c => { s with chip := c }) (Chip.eq_outside (hf s.chip))⟩

/-- The deficits that a port drops afterwards (R287) lie in the ports. -/
theorem Within.dropDeficits {w : Footprint} {f : Chip → Chip} (hf : Within w f) (hports : w.ports = true) (n : Nat) :
    Within w (fun c => (f c).dropDeficits n) := fun c o => (Chip.dropDeficits_outside hports n).trans (hf c o)

/-! ## Fuse burns -/

/-- The states that keep the queue, and of the chip what lies outside `w`; the OTP array may change. -/
theorem State.eq_outside {w : Footprint} {s t : State} (hp : t.pending = s.pending)
    (hc : ∀ o, t.chip.outside w o = s.chip.outside w o) : t = { s with otp := t.otp, chip := s.chip.outside w t.chip } := by
  rw [← Chip.eq_outside hc, ← hp]

/-- Rows burnt one after the other keep the chip and the queue. -/
theorem State.burnRows_keep {α : Type} (row v : α → Nat) (l : List α) (s : State) :
    (l.foldl (fun (s : State) x => s.burnRow (row x) (v x)) s).chip = s.chip ∧
      (l.foldl (fun (s : State) x => s.burnRow (row x) (v x)) s).pending = s.pending :=
  ⟨foldl_keep State.chip (fun s x => s.burnRow (row x) (v x)) (fun _ _ => rfl) l s,
    foldl_keep State.pending (fun s x => s.burnRow (row x) (v x)) (fun _ _ => rfl) l s⟩

@[simp] theorem State.reshow_pending (s : State) : s.reshow.pending = s.pending := rfl
@[simp ↓] theorem State.reshow_outside {w : Footprint} {o : Chip} (h : w.sec = true) (s : State) :
    s.reshow.chip.outside w o = s.chip.outside w o := Chip.outside_with_sec h _

theorem fuseBurnComplete_keep (f : List (Nat × Nat)) (s : State) :
    (fuseBurnComplete f s).pending = s.pending ∧
      ∀ o, (fuseBurnComplete f s).chip.outside { fld := true, sec := true } o = s.chip.outside { fld := true, sec := true } o := by
  unfold fuseBurnComplete; dsimp only
  split
  · exact ⟨rfl, fun _ => rfl⟩
  · split
    · exact ⟨rfl, fun _ => rfl⟩
    · refine ⟨(State.burnRows_keep ..).2, fun o => ?_⟩
      rw [State.onChip_chip, Chip.set_outside rfl]
      simp [(State.burnRows_keep _ _ _ s).1]

theorem ceOpComplete_keep (s : State) :
    (ceOpComplete s).pending = s.pending ∧
      ∀ o, (ceOpComplete s).chip.outside { fld := true, freeCtr := true, sec := true } o =
        s.chip.outside { fld := true, freeCtr := true, sec := true } o := by
  unfold ceOpComplete; dsimp only
  cases s.chip.sec.ce with
  | none => exact ⟨rfl, fun _ => rfl⟩
  | some j =>
    dsimp only
    generalize (if j.a = 1 then s.chip.sec.idScalar else beAt j.ws 0 48) = d
    by_cases hw : (s.chip.flag Fd.SEC_CE_CMD_TRNG_WAIT 0 0 || (decide (j.op = 1) && !s.chip.pins.linkUp)) = true
    · rw [if_pos hw]; exact ⟨rfl, fun _ => rfl⟩
    rw [if_neg hw]
    by_cases h3 : j.op = 3
    · rw [if_pos h3]
      split <;> exact ⟨State.onChip_pending .., fun o => by rw [State.onChip_chip]; simp⟩
    rw [if_neg h3]
    by_cases h6 : j.op = 6
    · rw [if_pos h6]
      refine ⟨(State.reshow_pending _).trans (State.burnRows_keep ..).2, fun o => ?_⟩
      rw [State.reshow_outside rfl, (State.burnRows_keep ..).1]; simp
    · rw [if_neg h6]; exact ⟨State.onChip_pending .., fun o => by rw [State.onChip_chip]; simp⟩

/-! ## The registers that an event may write -/

/-- What keeps the field store, the image and the security block keeps every register. -/
theorem Chip.get_of_outside {w : Footprint} {c d : Chip} (h : ∀ o, d.outside w o = c.outside w o) (hfld : w.fld = false)
    (himg : w.img = false) (hsec : w.sec = false) (g : F) (i j : Nat) : d.get g i j = c.get g i j := by
  have e := h d
  simp only [Chip.outside, Chip.mk.injEq, hfld, himg, hsec, cond_false] at e
  exact Chip.get_congr (by simp [e]) (by simp [e]) (by simp [e]) g i j

theorem Chip.dropDeficits_get (c : Chip) (n : Nat) (g : F) (i j : Nat) : (c.dropDeficits n).get g i j = c.get g i j :=
  Chip.get_of_outside (w := { ports := true }) (fun _ => Chip.dropDeficits_outside rfl n) rfl rfl rfl g i j

theorem Chip.snapTurn_get (c : Chip) (h : Nat) (g : F) (i j : Nat) : (c.snapTurn h).get g i j = c.get g i j :=
  Chip.get_of_outside (w := { snaps := true, cnt := true, residue := true })
    (fun _ => Chip.snapTurn_outside rfl rfl rfl h) rfl rfl rfl g i j

/-- A write of one field leaves every other. -/
theorem Chip.get_set_key {c : Chip} {f g : F} {i j v x y : Nat} (h : (g, x, y) ≠ (f, i, j)) :
    (c.set f i j v).get g x y = c.get g x y :=
  c.get_set_other _ _ _ _ _ _ _ (fun ⟨hg, hx, hy⟩ => h (by rw [hg, hx, hy]))

/-- So does one that is made under a condition. -/
theorem Chip.get_ite_set {c : Chip} {p : Prop} [Decidable p] {f g : F} {i j v x y : Nat} (h : (g, x, y) ≠ (f, i, j)) :
    (if p then c.set f i j v else c).get g x y = c.get g x y := by
  split
  · rw [Chip.get_set_key h]
  · rfl

theorem flushCmdComplete_get (x : Nat) (c : Chip) {g : F} {i j : Nat} (h : (g, i, j) ≠ (Fd.SCH_FLUSH_CMD_STATUS, x, 0)) :
    (flushCmdComplete x c).get g i j = c.get g i j := by
  rw [flushCmdComplete, Chip.get_ite_set h]

theorem holdAssert_get (n : Nat) (c : Chip) {g : F} {i j : Nat} (h : (g, i, j) ≠ (Fd.SCH_GCL_STATUS_HOLD, n, 0)) :
    (holdAssert n c).get g i j = c.get g i j := by
  unfold holdAssert; split
  · rfl
  · dsimp only; rw [Chip.get_ite_set h]

/-- A write of a field of register `r` leaves the other registers, and the register's other indices. -/
theorem Chip.get_set_reg {c : Chip} {f g : F} {i j v x y : Nat} (h : g.r ≠ f.r ∨ x ≠ i) :
    (c.set f i j v).get g x y = c.get g x y :=
  c.get_set_other _ _ _ _ _ _ _ (by rintro ⟨rfl, rfl, -⟩; simp at h)

theorem portRemap_get (n : Nat) (c : Chip) {g : F} {i j : Nat} (h : g.r ≠ .GLB_PORT_PIPE ∨ i ≠ n) :
    (portRemap n c).get g i j = c.get g i j := by
  unfold portRemap; dsimp only; split
  · rfl
  · rw [Chip.get_set_reg h, Chip.get_set_reg h, Chip.setPort_get]

@[simp] theorem setSgate_get (c : Chip) (n : Nat) (r : SGateRt) (g : F) (i j : Nat) : (setSgate c n r).get g i j = c.get g i j := rfl

theorem Chip.sgEnter_get (c : Chip) (x : Nat) (p : GclP) (ps es k : Nat) {g : F} {i j : Nat} (h : g.r ≠ .TBL_SGATE_STATUS ∨ i ≠ x) :
    (c.sgEnter x p ps es k).get g i j = c.get g i j := by
  unfold Chip.sgEnter; dsimp only
  rw [setSgate_get, Chip.get_set_reg h, Chip.get_set_reg h]

theorem streamGateBoundary_get (x : Nat) (c : Chip) {g : F} {i j : Nat} (h : g.r ≠ .TBL_SGATE_STATUS ∨ i ≠ x) :
    (streamGateBoundary x c).get g i j = c.get g i j := by
  unfold streamGateBoundary; dsimp only; split
  · rfl
  · split <;> exact Chip.sgEnter_get _ _ _ _ _ _ h

theorem parkComplete_get (x : Nat) (c : Chip) {g : F} {i j : Nat} (h : g.r ≠ .GLB_PWR_CTRL) :
    (parkComplete x c).get g i j = c.get g i j := by
  unfold parkComplete; dsimp only; split
  · rfl
  · split
    · rw [Chip.get_set_reg (.inl h), Chip.get_set_reg (.inl h)]; rfl
    · rw [Chip.get_set_reg (.inl h)]; rfl

theorem snapComplete_get (x : Nat) (c : Chip) {g : F} {i j : Nat} (h : g ≠ Fd.CNT_SNAP_RES_BYTES ∧ g ≠ Fd.CNT_SNAP_CMD_STATUS ∨ i ≠ x) :
    (snapComplete x c).get g i j = c.get g i j := by
  unfold snapComplete; split
  · rfl
  · split
    · rfl
    · dsimp only
      rw [Chip.snapTurn_get, Chip.get_set_other, Chip.get_set_other]
      · rfl
      all_goals rintro ⟨rfl, rfl, rfl⟩; simp at h

end Sys2Proof.Machine
end

section
/-! OBLIGATION O8: the frames of events. -/

namespace Sys2Proof.Machine

/-- Settles O8: each event changes what its footprint names, and six of them only the registers named. -/
theorem eventFrames : Obligations.EventFrames := by
  unfold Obligations.EventFrames
  intro s a n x y z b b2 data w f
  simp only [List.forall_mem_cons, List.not_mem_nil, false_imp_iff, implies_true, and_true]
  refine ⟨framed_of_within stepUp_within rfl,
    ⟨framed_of_within auxLoss_within rfl, framed_of_within vin48Rise_within rfl, framed_of_within (pwrGoodRise_within a) rfl,
      framed_of_within perstNRelease_within rfl, framed_of_within ppsOutFall_within rfl,
      framed_of_within clk10mReturn_within rfl, framed_of_within fiGateOpen_within rfl⟩,
    framed_of_within hostLinkUp_within rfl,
    framed_of_within ppsOutRise_within rfl,
    framed_of_within (toutPulseEnd_within x) rfl,
    framed_of_within cycSecondRecompute_within rfl,
    ⟨framed_of_within kgLockTimeout_within rfl, framed_of_within sbAlertResponse_within rfl,
      framed_of_within regAccessComplete_within rfl⟩,
    ⟨framed_of_within (errBudgetWindow_within n) rfl, framed_of_within (pmacVerify_within n b) rfl⟩,
    framed_of_within shaperRefill_within rfl,
    framed_of_within (preemptFragmentEnd_within n x) rfl,
    ⟨framed_of_within (swapSpareReady_within x) rfl, framed_of_within (swapSwitchDone_within x) rfl⟩,
    ⟨framed_of_within atriumSweepDone_within rfl, framed_of_within (rsqContextFree_within x) rfl⟩,
    ⟨framed_of_within reportTx_within rfl, framed_of_within (sprayEntryFree_within x y) rfl⟩,
    framed_of_within collectorSelfTest_within rfl,
    framed_of_within drbgReseed_within rfl,
    framed_of_within (pipeUnparked_within x) rfl,
    ⟨framed_of_within (rxSignalDetect_within n) rfl, framed_of_within (flushCmdComplete_within x) rfl⟩,
    ⟨framed_of_within (clockRecovered_within n) rfl, framed_of_within (anComplete_within n b) rfl,
      framed_of_within (linkUp_within n) rfl, framed_of_within (portRemap_within n) rfl,
      framed_of_within ((gateBoundary_within n).dropDeficits rfl n) rfl,
      framed_of_within ((holdAssert_within n).dropDeficits rfl n) rfl⟩,
    ⟨framed_of_within (parkComplete_within x) rfl, framed_of_within qscTimeout_within rfl,
      framed_of_within (hallResetComplete_within x) rfl⟩,
    framed_of_within quiescedEvt_within rfl,
    framed_of_within (streamGateBoundary_within x) rfl,
    ⟨framed_of_within sbSclTimeout_within rfl, framed_of_within safeTrip_within rfl⟩,
    ⟨framed_of_within electSettle_within rfl, framed_of_within orphanReelect_within rfl⟩,
    framed_of_within counterReaderPass_within rfl,
    framed_of_within (rsqReturn_within n) rfl,
    framed_of_within (rsqTimeout_within x) rfl,
    framed_of_within (rxFrameStart_within n data) rfl,
    framed_of_within (txCopyEnd_within n) rfl,
    framed_of_within (eventSlotFire_within x) rfl,
    framed_of_within (capInEdge_within x b y) rfl,
    ⟨framed_of_within ppsInEdge_within rfl, framed_of_within (thermThreshold_within x z) rfl⟩,
    framed_of_within clk10mLost_within rfl,
    framed_of_within cycRefLoss_within rfl,
    framed_of_within (collectorOutvoted_within x) rfl,
    framed_of_within (entropyWindow_within w) rfl,
    framed_of_within keCmdComplete_within rfl,
    ⟨framed_of_within (stairLinkLost_within x) rfl, framed_of_within (reportExpire_within x) rfl⟩,
    framed_of_within epochBuild_within rfl,
    framed_of_within epochAckTimeout_within rfl,
    framed_of_within dupSweepPass_within rfl,
    framed_of_within agerPass_within rfl,
    framed_of_within (tblCmdComplete_within x) rfl,
    framed_of_within (tcamCmdComplete_within x) rfl,
    ⟨framed_of_within boot_within rfl, framed_of_within (imageHeaderCheck_within b) rfl,
      framed_of_within (imageBodyCheck_within b b2) rfl⟩,
    framed_of_within (resetComplete_within b) rfl,
    framed_of_within (fenceCmdComplete_within b) rfl,
    framed_of_within (ringIrqTimer_within x y) rfl,
    framed_of_within (snapComplete_within x) rfl,
    ⟨fuseBurnComplete f s, rfl, State.eq_outside (fuseBurnComplete_keep f s).1 (fuseBurnComplete_keep f s).2⟩,
    ⟨ceOpComplete s, rfl, State.eq_outside (ceOpComplete_keep s).1 (ceOpComplete_keep s).2⟩,
    ⟨s.onChip (flushCmdComplete x), rfl, fun g i j h => flushCmdComplete_get x s.chip h⟩,
    ⟨s.onChip (fun c => (holdAssert n c).dropDeficits n), rfl, fun g i j h =>
      (Chip.dropDeficits_get _ n g i j).trans (holdAssert_get n s.chip h)⟩,
    ⟨s.onChip (portRemap n), rfl, fun g i j h => portRemap_get n s.chip h⟩,
    ⟨s.onChip (streamGateBoundary x), rfl, fun g i j h => streamGateBoundary_get x s.chip h⟩,
    ⟨s.onChip (parkComplete x), rfl, fun g i j h => parkComplete_get x s.chip h⟩,
    ⟨s.onChip (snapComplete x), rfl, fun g i j h => snapComplete_get x s.chip h⟩⟩

end Sys2Proof.Machine
end

section
/-! OBLIGATION O4: what reset leaves. -/

namespace Sys2Proof.Machine

/-- No field is listed at reset: each reads its reset value. -/
theorem get_reset (f : F) (i j : Nat) :
    State.reset.chip.get f i j = fdefault Chip.reset f i j % 2 ^ f.width := by
  show vote (fdefault Chip.reset f i j) (fdefault Chip.reset f i j) (fdefault Chip.reset f i j) % 2 ^ f.width = _
  rw [vote_self]

/-- Settles O4: the parts of the state stand in `Chip.reset`, and each field sampled reads its reset value. -/
theorem resetState : Obligations.ResetState := by
  unfold Obligations.ResetState
  refine ⟨rfl, rfl, rfl, rfl, rfl, rfl, rfl, rfl, rfl, ?_⟩
  simp only [get_reset]
  decide

end Sys2Proof.Machine
end

section
/-! SUPPORT. A write of GLB_QSC_CMD that reaches its register, for domains whose containing domain is stopped (R22, R23). -/

namespace Sys2Proof.Machine

/-- A write that reaches its register: its effect, with the KG lock armed, logged under the address it went by. -/
theorem State.regWrite_serves {s : State} {m : Nat} {r : R} {i j : Nat} (h : s.chip.serves m (viaOf m) r i j = true)
    (k : Bool → Chip → Chip) : s.regWrite m r i j k =
      .next { s with chip := s.chip.rearm.logAs (s.chip.accAddr (viaOf m) r i j) (k (s.chip.bus.kgOpen && r.guarded)) } := by
  unfold State.regWrite State.onChip; dsimp only; rw [Chip.withWrite_serves h]

theorem Chip.ctl_blind : Chip.Blind Chip.ctl := fun _ _ _ => rfl
theorem Chip.img_blind : Chip.Blind Chip.img := fun _ _ _ => rfl
theorem Chip.stopped_blind (d i : Nat) : Chip.Blind (Chip.stopped · d i) := fun _ _ _ => rfl

/-- The command's operands, as its register then holds them. -/
def Chip.qscOperands (c : Chip) (d x : Nat) : Chip := (c.set Fd.GLB_QSC_CMD_INDEX 0 0 x).set Fd.GLB_QSC_CMD_DOMAIN 0 0 d

/-- Domain `d` of index `i` is stopped because its containing domain is (R21). -/
def Chip.containerStopped (c : Chip) (d i : Nat) : Prop := (6, 0) ∈ c.ctl.stopped ∨ (d = 2 ∧ (0, i) ∈ c.ctl.stopped)

theorem Chip.stopped_of_container {c : Chip} {d i : Nat} (h : c.containerStopped d i) : c.stopped d i = true := by
  unfold Chip.stopped
  rcases h with h | ⟨hd, h⟩ <;> simp [*]

theorem Chip.stopped_of_mem {c : Chip} {d i : Nat} (h : (d, i) ∈ c.ctl.stopped) : c.stopped d i = true := by
  unfold Chip.stopped; simp [h]

theorem mem_insNew {α : Type} [DecidableEq α] (x : α) (l : List α) : x ∈ insNew x l := by
  unfold insNew; split
  · assumption
  · simp

/-- What a domain's stop marks: the domain among those stopped, and nothing else of the control state. -/
theorem Chip.markStopped_ctl (c : Chip) (d i : Nat) :
    (c.markStopped d i).ctl = { c.ctl with stopped := insNew (d, i) c.ctl.stopped } := by
  have h : (c.markStopped d i).core = Chip.core { c with ctl := { c.ctl with stopped := insNew (d, i) c.ctl.stopped } } := by
    unfold Chip.markStopped; dsimp only; split
    case h_4 => rw [foldl_keep Chip.core _ (by intros; simp), Chip.timeQuiesced_core]
    all_goals simp only [Chip.gateQuiesced_core, Chip.timeQuiesced_core]
  exact ((Chip.core_iff _ _).mp h).2.1

theorem firstFail_skip {k : Bool} {code : Nat} {l : List (Bool × Nat)} (h : k = false) :
    firstFail ((k, code) :: l) = firstFail l := by simp [firstFail, h]

theorem firstFail_hit {k : Bool} {code : Nat} {l : List (Bool × Nat)} (h : k = true) :
    firstFail ((k, code) :: l) = some code := by simp [firstFail, h]

/-- A command that finds its STATUS not BUSY and passes its checks starts (R17). -/
theorem Chip.command_starts {c : Chip} {st : F} {i j m a : Nat} {args go : Chip → Chip} {checks : List (Bool × Nat)}
    (hb : c.get st i j ≠ sBUSY) (hc : firstFail checks = none) : c.command st i j m a args checks go = go (args c) := by
  unfold Chip.command; rw [if_neg hb, hc]

/-- One that fails a check reports the first that it fails (R18). -/
theorem Chip.command_rejects {c : Chip} {st : F} {i j m a code : Nat} {args go : Chip → Chip} {checks : List (Bool × Nat)}
    (hb : c.get st i j ≠ sBUSY) (hc : firstFail checks = some code) :
    c.command st i j m a args checks go = (args c).outcome st i j code := by
  unfold Chip.command; rw [if_neg hb, hc]

section
variable {c : Chip} {m d x : Nat} (hb : c.get Fd.GLB_QSC_CMD_STATUS 0 0 ≠ sBUSY) (hr : qscInRange d (qscIndex d x) = true)
include hb hr

/-- STOP of a domain that is stopped already: DONE at once, and the domain is marked unless it was stopped directly. -/
theorem qscCmd_stop_of_stopped (hs : c.stopped d (qscIndex d x) = true) :
    qscCmd m 1 d x c = (if (d, qscIndex d x) ∈ c.ctl.stopped then c.qscOperands d x
      else (c.qscOperands d x).markStopped d (qscIndex d x)).set Fd.GLB_QSC_CMD_STATUS 0 0 sDONE := by
  unfold qscCmd; dsimp only
  rw [Chip.command_starts hb (by simp [firstFail, hr]), if_neg (by decide)]
  change (if decide _ = true then _ else if (c.stopped d (qscIndex d x) || _) = true then _ else _) = _
  simp only [hs, Bool.true_or, if_true, decide_eq_true_eq, apply_ite (fun c : Chip => c.set Fd.GLB_QSC_CMD_STATUS 0 0 sDONE)]
  rfl

/-- RELEASE of a domain whose containing domain is stopped: STATE_ERR, unless the unit is fenced. -/
theorem qscCmd_release_of_container (hf : ¬((d = 0 ∨ d = 1) ∧ c.isFenced d (qscIndex d x) = true))
    (hs : ((6, 0) ∈ c.ctl.stopped ∧ d ≠ 6) ∨ (d = 2 ∧ (0, qscIndex d x) ∈ c.ctl.stopped)) :
    qscCmd m 2 d x c = (c.qscOperands d x).outcome Fd.GLB_QSC_CMD_STATUS 0 0 sSTATE := by
  unfold qscCmd; dsimp only
  rw [Chip.command_rejects (code := sSTATE) hb]
  · rfl
  · rw [firstFail_skip, firstFail_hit]
    · rcases hs with ⟨h6, hd⟩ | ⟨rfl, h0⟩
      · simp [hr, hd, Chip.stopped_of_mem h6]
      · simp [hr, h0]
    · refine Bool.eq_false_iff.mpr fun hfenced => hf ?_
      simp only [Bool.and_eq_true, Bool.or_eq_true, decide_eq_true_eq] at hfenced
      obtain ⟨-, ⟨rfl, h⟩ | ⟨rfl, h⟩⟩ := hfenced
      · exact ⟨.inl rfl, h⟩
      · exact ⟨.inr rfl, h⟩

end

/-- What a STOP of a domain stopped already leaves: DONE, the domain stopped, and no STOP of its own (R22). -/
theorem qscCmd_stop_effect {c : Chip} {m d x : Nat} (hb : c.get Fd.GLB_QSC_CMD_STATUS 0 0 ≠ sBUSY)
    (hr : qscInRange d (qscIndex d x) = true) (hs : c.stopped d (qscIndex d x) = true) :
    (qscCmd m 1 d x c).get Fd.GLB_QSC_CMD_STATUS 0 0 = sDONE ∧ (qscCmd m 1 d x c).stopped d (qscIndex d x) = true ∧
      (qscCmd m 1 d x c).ctl.qsc = c.ctl.qsc := by
  rw [qscCmd_stop_of_stopped hb hr hs]
  refine ⟨Chip.get_set_same .., ?_⟩
  split
  · exact ⟨hs, rfl⟩
  · have h := Chip.markStopped_ctl (c.qscOperands d x) d (qscIndex d x)
    exact ⟨Chip.stopped_of_mem (by rw [Chip.set_ctl, h]; exact mem_insNew ..), by rw [Chip.set_ctl, h]; rfl⟩

end Sys2Proof.Machine
end

section
/-! OBLIGATION O18: containing domains. -/

namespace Sys2Proof.Machine

/-- Settles O18: the write reaches its register, and the command finds the containing domain stopped. -/
theorem containedDomains : Obligations.ContainedDomains := by
  unfold Obligations.ContainedDomains
  refine ⟨fun s m d x h hb hr hs => ?_, fun s m d x h hb hr hf hs => ?_⟩
  · obtain ⟨hdone, hstop, hqsc⟩ :=
      qscCmd_stop_effect (c := s.chip.rearm) (m := m) hb hr (Chip.stopped_of_container hs)
    refine ⟨_, State.regWrite_serves h _, ?_, ?_, ?_⟩
    · exact (Chip.logAs_get _ _ _ _ _ _ (by decide)).trans hdone
    · exact ((Chip.stopped_blind d (qscIndex d x)).logAs ..).trans hstop
    · exact (congrArg Ctl.qsc (Chip.ctl_blind.logAs ..)).trans hqsc
  · have he := qscCmd_release_of_container (c := s.chip.rearm) (m := m) hb hr hf hs
    refine ⟨_, State.regWrite_serves h _, ?_, ?_, ?_⟩
    · exact (Chip.logAs_get _ _ _ _ _ _ (by decide)).trans (by rw [he]; exact Chip.outcome_status ..)
    · exact (Chip.ctl_blind.logAs ..).trans (by rw [he]; exact Chip.ctl_blind.outcome ..)
    · exact (Chip.img_blind.logAs ..).trans (by rw [he]; exact Chip.img_blind.outcome ..)

end Sys2Proof.Machine
end

section
/-! SUPPORT. GLB_PORT_PIPE_n: what a write of it and a remap of the port leave (R33 to R35). -/

namespace Sys2Proof.Machine

/-- Port `n` placed at pipeline `p`. -/
def Chip.placePort (c : Chip) (n p : Nat) : Chip :=
  (c.set Fd.GLB_PORT_PIPE_PIPE n 0 p).setPort n { c.port n with remapping := false }

/-- Port `n` placed at pipeline `p` by a live move, which the port counts. -/
def Chip.movePort (c : Chip) (n p : Nat) : Chip :=
  (c.placePort n p).setPort n { (c.placePort n p).port n with moves := ((c.placePort n p).port n).moves + 1 }

/-- The resequencer context of a first live move of port `n`, from its present pipeline. -/
def Chip.moveContext (c : Chip) (n : Nat) : Rsq :=
  { id := 0, move := some n, src := c.portPipe n, flow := 0, port := n, expect := 0, held := [], last := c.tim.clk }

theorem Chip.setPort_port (c : Chip) (n : Nat) (r : PortRt) : (c.setPort n r).port n = r := by
  unfold Chip.port Chip.setPort; simp

theorem Chip.atr_blind : Chip.Blind Chip.atr := fun _ _ _ => rfl
theorem Chip.ports_blind : Chip.Blind Chip.ports := fun _ _ _ => rfl
theorem Chip.port_blind (n : Nat) : Chip.Blind (Chip.port · n) := fun _ _ _ => rfl

theorem Chip.logAs_portPipe (c : Chip) (a : Nat) (f : Chip → Chip) (x : Nat) : (c.logAs a f).portPipe x = (f c).portPipe x :=
  c.logAs_get a f _ x 0 (by decide)

theorem Chip.set_portPipe {c : Chip} {f : F} {i j v x : Nat} (h : f ≠ Fd.GLB_PORT_PIPE_PIPE) :
    (c.set f i j v).portPipe x = c.portPipe x := Chip.get_set_ne h.symm

/-- A write of PIPE gives port `n` its pipeline, and leaves every other port at its own. -/
theorem Chip.set_portPipe_pipe {c : Chip} {n p : Nat} (hp : p < 4) (x : Nat) :
    (c.set Fd.GLB_PORT_PIPE_PIPE n 0 p).portPipe x = if x = n then p else c.portPipe x := by
  unfold Chip.portPipe
  split
  · next h => rw [h, Chip.get_set_same]; exact Nat.mod_eq_of_lt hp
  · next h => rw [Chip.get_set_other]; rintro ⟨-, hx, -⟩; exact h hx

theorem Chip.placePort_portPipe {c : Chip} {n p : Nat} (hp : p < 4) (x : Nat) :
    (c.placePort n p).portPipe x = if x = n then p else c.portPipe x := Chip.set_portPipe_pipe hp x

theorem Chip.movePort_portPipe {c : Chip} {n p : Nat} (hp : p < 4) (x : Nat) :
    (c.movePort n p).portPipe x = if x = n then p else c.portPipe x := Chip.placePort_portPipe hp x

theorem Chip.movePort_get {c : Chip} {n p i j : Nat} {g : F} (h : g ≠ Fd.GLB_PORT_PIPE_PIPE) :
    (c.movePort n p).get g i j = c.get g i j := Chip.get_set_ne h

theorem Chip.placePort_port (c : Chip) (n p : Nat) : (c.placePort n p).port n = { c.port n with remapping := false } :=
  Chip.setPort_port ..

theorem Chip.movePort_moves (c : Chip) (n p : Nat) : ((c.movePort n p).port n).moves = (c.port n).moves + 1 := by
  unfold Chip.movePort; rw [Chip.setPort_port, Chip.placePort_port]

theorem Chip.atrCnt_count (c : Chip) (i n : Nat) :
    (c.atrCnt i n).get Fd.ATR_CNT_COUNT i 0 = min (c.get Fd.ATR_CNT_COUNT i 0 + n) (2 ^ 32 - 1) := by
  unfold Chip.atrCnt Chip.cntSat
  rw [Chip.get_set_same]
  exact Nat.mod_eq_of_lt (Nat.lt_of_le_of_lt (Nat.min_le_right ..) (by decide))

/-! ## The branches of the write -/

section
variable {c : Chip} {m n p : Nat} (hp : p < 4)
include hp

/-- Towards a pipeline out of service it is refused (R34). -/
theorem portPipeWrite_refused (hout : c.pipeOut p = true) : portPipeWrite m n p c = c.refuse m .GLB_PORT_PIPE n 0 := by
  unfold portPipeWrite; dsimp only
  rw [Nat.mod_eq_of_lt hp, if_pos hout]

variable (hne : p ≠ c.portPipe n) (hin : c.pipeOut p = false)
include hne hin

/-- From a pipeline out of service the port is placed. -/
theorem portPipeWrite_places (hold : c.pipeOut (c.portPipe n) = true) : portPipeWrite m n p c = c.placePort n p := by
  unfold portPipeWrite; dsimp only
  rw [Nat.mod_eq_of_lt hp, if_neg (by simp [hin]), if_neg hne, if_pos hold]; rfl

variable (hold : c.pipeOut (c.portPipe n) = false)
include hold

/-- Between two pipelines in service the move is live (R33). -/
theorem portPipeWrite_live : portPipeWrite m n p c = match c.moveOf n with
    | some r => (c.movePort n p).putRsq { r with src := c.portPipe n }
    | none =>
      if 1024 ≤ c.atr.rsq.length then (c.movePort n p).atrCnt xNOCTX 1
      else ((c.movePort n p).newRsq (c.moveContext n)).set Fd.GLB_PORT_PIPE_MOVE_PENDING n 0 1 := by
  unfold portPipeWrite; dsimp only
  rw [Nat.mod_eq_of_lt hp, if_neg (by simp [hin]), if_neg hne, if_neg (by simp [hold])]; rfl

/-- A second live move shares the context of the first. -/
theorem portPipeWrite_shares {r : Rsq} (hr : c.moveOf n = some r) :
    portPipeWrite m n p c = (c.movePort n p).putRsq { r with src := c.portPipe n } := by
  rw [portPipeWrite_live hp hne hin hold, hr]

variable (hr : c.moveOf n = none)
include hr

/-- A first live move takes a context of its own. -/
theorem portPipeWrite_takesContext (hfree : c.atr.rsq.length < 1024) :
    portPipeWrite m n p c = ((c.movePort n p).newRsq (c.moveContext n)).set Fd.GLB_PORT_PIPE_MOVE_PENDING n 0 1 := by
  rw [portPipeWrite_live hp hne hin hold, hr]; exact if_neg (Nat.not_le.mpr hfree)

/-- With no context free it goes without one, counted. -/
theorem portPipeWrite_withoutContext (hfull : 1024 ≤ c.atr.rsq.length) :
    portPipeWrite m n p c = (c.movePort n p).atrCnt xNOCTX 1 := by
  rw [portPipeWrite_live hp hne hin hold, hr]; exact if_pos hfull

end

end Sys2Proof.Machine
end

section
/-! SUPPORT. The first record of the access log (R372, R373). -/

namespace Sys2Proof.Machine

theorem Chip.logErr_valid (c : Chip) (m a k : Nat) (w : Bool) : (c.logErr m a w k).flag Fd.GLB_ACCESS_ERR_VALID 0 0 = true := by
  unfold Chip.flag Chip.logErr; dsimp only
  rw [Chip.cntOvf_get (by decide) (by decide)]
  split
  · next h => rw [Chip.get_set_ne (by decide)]; exact h
  · rw [Chip.get_set_ne (by decide), Chip.get_set_ne (by decide), Chip.get_set_ne (by decide), Chip.get_set_ne (by decide),
      Chip.get_set_same]
    decide

/-- What is captured when nothing was held. -/
theorem Chip.logErr_first {c : Chip} {m a k : Nat} {w : Bool} (h : c.flag Fd.GLB_ACCESS_ERR_VALID 0 0 = false) :
    (c.logErr m a w k).get Fd.GLB_ACCESS_ERR_KIND 0 0 = k % 2 ^ Fd.GLB_ACCESS_ERR_KIND.width ∧
      (c.logErr m a w k).get Fd.GLB_ACCESS_ERR_WRITE 0 0 = b2n w % 2 ^ Fd.GLB_ACCESS_ERR_WRITE.width := by
  unfold Chip.logErr; dsimp only
  rw [Chip.cntOvf_get (by decide) (by decide), Chip.cntOvf_get (by decide) (by decide), if_neg (by simp [h])]
  simp [Chip.get_set, Fd.GLB_ACCESS_ERR_KIND, Fd.GLB_ACCESS_ERR_WRITE]

/-- What records nothing is as it is by whatever address it went. -/
theorem Chip.logAs_unrecorded {c : Chip} {f : Chip → Chip}
    (h : (f c).get Fd.GLB_ACCESS_ERR_VALID 0 0 = c.get Fd.GLB_ACCESS_ERR_VALID 0 0) (a : Nat) : c.logAs a f = f c := by
  unfold Chip.logAs Chip.flag; dsimp only
  rw [h, if_neg (by simp)]

/-- The record that an access makes first is captured under the address it went by. -/
theorem Chip.logAs_addr {c : Chip} {a : Nat} {f : Chip → Chip} (h : c.flag Fd.GLB_ACCESS_ERR_VALID 0 0 = false)
    (hf : (f c).flag Fd.GLB_ACCESS_ERR_VALID 0 0 = true) :
    (c.logAs a f).get Fd.GLB_ACCESS_ERR_ADDR_ADDR 0 0 = a % 2 ^ Fd.GLB_ACCESS_ERR_ADDR_ADDR.width := by
  unfold Chip.logAs; dsimp only
  rw [if_pos (by simp [h, hf]), Chip.get_set_same]

end Sys2Proof.Machine
end

section
/-! OBLIGATION O34: a port is not moved to a pipeline that is fenced or parked. -/

namespace Sys2Proof.Machine

theorem Chip.pipeOut_of_fenced_or_parked {c : Chip} {p : Nat} (h : c.isFenced 1 p = true ∨ c.parked p = true) :
    c.pipeOut p = true := by
  unfold Chip.pipeOut; rcases h with h | h <;> simp [h]

/-- Settles O34: the write is a record of the access log, which keeps every port at its pipeline. -/
theorem portPipeRefused : Obligations.PortPipeRefused := by
  unfold Obligations.PortPipeRefused
  intro s m n p hs hp hout
  have he : portPipeWrite m n p s.chip.rearm = s.chip.rearm.refuse m .GLB_PORT_PIPE n 0 :=
    portPipeWrite_refused hp (Chip.pipeOut_of_fenced_or_parked hout)
  have hv : (portPipeWrite m n p s.chip.rearm).flag Fd.GLB_ACCESS_ERR_VALID 0 0 = true := by rw [he]; exact Chip.logErr_valid ..
  refine ⟨_, State.regWrite_serves hs _, fun x => ?_, ?_, fun hfree => ?_, ?_, ?_⟩
  · exact (Chip.logAs_portPipe ..).trans (by rw [he]; exact Chip.logErr_get rfl)
  · rw [← hv]; unfold Chip.flag; rw [Chip.logAs_get _ _ _ _ _ _ (by decide)]
  · obtain ⟨hkind, hwrite⟩ :=
      Chip.logErr_first (c := s.chip.rearm) (m := m) (a := addrOf .GLB_PORT_PIPE n 0) (k := kREFUSED) (w := true) hfree
    refine ⟨?_, ?_, Chip.logAs_addr hfree hv⟩
    · exact (Chip.logAs_get _ _ _ _ _ _ (by decide)).trans (by rw [he]; exact hkind)
    · exact (Chip.logAs_get _ _ _ _ _ _ (by decide)).trans (by rw [he]; exact hwrite)
  · exact (Chip.ports_blind.logAs ..).trans (by rw [he]; exact Chip.ports_blind.refuse ..)
  · exact (Chip.atr_blind.logAs ..).trans (by rw [he]; exact Chip.atr_blind.refuse ..)

end Sys2Proof.Machine
end

section
/-! OBLIGATION O35: live moves of a port between pipelines, and the remap of a fenced pipeline's port. -/

namespace Sys2Proof.Machine

/-- A live move leaves a port at its new pipeline, counts the move, and leaves every other port. -/
def Chip.moved (c d : Chip) (n p : Nat) : Prop :=
  d.portPipe n = p ∧ (d.port n).moves = (c.port n).moves + 1 ∧ ∀ x, x ≠ n → d.portPipe x = c.portPipe x

/-- Whatever the move does about its context keeps that, if it keeps the ports and their pipelines. -/
theorem Chip.moved_of_movePort {c d : Chip} {n p : Nat} (hp : p < 4) (hpipe : ∀ x, d.portPipe x = (c.movePort n p).portPipe x)
    (hports : d.ports = (c.movePort n p).ports) : c.moved d n p := by
  refine ⟨?_, ?_, fun x hx => ?_⟩
  · rw [hpipe, Chip.movePort_portPipe hp, if_pos rfl]
  · rw [← Chip.movePort_moves (p := p)]; unfold Chip.port; rw [hports]
  · rw [hpipe, Chip.movePort_portPipe hp, if_neg hx]

theorem Chip.pipesUp_getD_lt (c : Chip) (i : Nat) : c.pipesUp.getD i 0 < 4 := by
  rw [List.getD_eq_getElem?_getD]
  cases h : c.pipesUp[i]? with
  | none => decide
  | some p => exact List.mem_range.mp (List.mem_filter.mp (List.mem_of_getElem? h)).1

/-- The remap of a port that waits for it, with a pipeline in service (R35). -/
theorem portRemap_waiting {c : Chip} {n : Nat} (hr : (c.port n).remapping = true) (hup : c.pipesUp ≠ []) :
    portRemap n c = ((c.setPort n { c.port n with remapping := false }).set Fd.GLB_PORT_PIPE_PIPE n 0
      (c.pipesUp.getD (n % c.pipesUp.length) 0)).set Fd.GLB_PORT_PIPE_REMAPPED n 0 1 := by
  unfold portRemap; dsimp only; rw [if_neg (by simp [hr, hup])]

/-- A write that reaches the register, where it records nothing. -/
theorem exec_portPipeWrite {s : State} {m n p : Nat} {e : Chip} (hs : s.chip.serves m (viaOf m) .GLB_PORT_PIPE n 0 = true)
    (he : portPipeWrite m n p s.chip.rearm = e) (hv : e.get Fd.GLB_ACCESS_ERR_VALID 0 0 = s.chip.get Fd.GLB_ACCESS_ERR_VALID 0 0) :
    exec (.portPipeWrite m n p) s = .next { s with chip := e } := by
  have hlog := Chip.logAs_unrecorded (c := s.chip.rearm) (f := portPipeWrite m n p) (by rw [he, hv]; rfl)
    (s.chip.accAddr (viaOf m) .GLB_PORT_PIPE n 0)
  exact (State.regWrite_serves hs _).trans (by rw [hlog, he])

/-- Settles O35: each branch of the write by its own equation, then what the move and its context leave. -/
theorem portsMoveBetweenPipelines : Obligations.PortsMoveBetweenPipelines := by
  unfold Obligations.PortsMoveBetweenPipelines
  intro s m n p
  refine ⟨fun hs hp hne hin => ⟨fun hold hr hfree => ?_, fun r hold hr => ?_, fun hold hr hfull => ?_, fun hold => ?_⟩,
    fun hr hup => ?_⟩
  · have he := portPipeWrite_takesContext (c := s.chip.rearm) (m := m) hp hne hin hold hr hfree
    obtain ⟨hn, hmoves, hx⟩ := Chip.moved_of_movePort (c := s.chip.rearm)
      (d := ((s.chip.rearm.movePort n p).newRsq (s.chip.rearm.moveContext n)).set Fd.GLB_PORT_PIPE_MOVE_PENDING n 0 1) hp
      (fun x => Chip.set_portPipe (by decide)) rfl
    refine ⟨_, exec_portPipeWrite hs he ?_, hn, Chip.get_set_same .., rfl, rfl, hmoves, ⟨_, rfl, rfl, rfl, rfl⟩, hx⟩
    exact (Chip.get_set_ne (by decide)).trans (Chip.movePort_get (by decide))
  · have he := portPipeWrite_shares (c := s.chip.rearm) (m := m) hp hne hin hold hr
    obtain ⟨hn, hmoves, hx⟩ := Chip.moved_of_movePort hp (fun _ => rfl) rfl
    exact ⟨_, exec_portPipeWrite hs he (Chip.movePort_get (by decide)), hn, Chip.movePort_get (by decide), hmoves, rfl, hx⟩
  · have he := portPipeWrite_withoutContext (c := s.chip.rearm) (m := m) hp hne hin hold hr hfull
    obtain ⟨hn, hmoves, hx⟩ := Chip.moved_of_movePort (c := s.chip.rearm)
      (d := (s.chip.rearm.movePort n p).atrCnt xNOCTX 1) hp (fun x => Chip.set_portPipe (by decide)) rfl
    refine ⟨_, exec_portPipeWrite hs he ?_, hn, rfl, hmoves, ?_, hx⟩
    · exact (Chip.get_set_ne (by decide)).trans (Chip.movePort_get (by decide))
    · rw [Chip.atrCnt_count, Chip.movePort_get (by decide)]; rfl
  · have he := portPipeWrite_places (c := s.chip.rearm) (m := m) hp hne hin hold
    have hpipe := Chip.placePort_portPipe (c := s.chip.rearm) (n := n) hp
    have hport := s.chip.rearm.placePort_port n p
    exact ⟨_, exec_portPipeWrite hs he (Chip.get_set_ne (by decide)), (hpipe n).trans (if_pos rfl), rfl,
      congrArg PortRt.remapping hport, (congrArg PortRt.moves hport :), fun x hx => (hpipe x).trans (if_neg hx)⟩
  · have he := portRemap_waiting hr hup
    have hpipe : ∀ x, (portRemap n s.chip).portPipe x =
        if x = n then s.chip.pipesUp.getD (n % s.chip.pipesUp.length) 0 else s.chip.portPipe x := fun x => by
      rw [he, Chip.set_portPipe (by decide), Chip.set_portPipe_pipe (Chip.pipesUp_getD_lt ..)]; rfl
    refine ⟨s.onChip (portRemap n), rfl, (hpipe n).trans (if_pos rfl), ?_, ?_, fun x hx => (hpipe x).trans (if_neg hx), ?_⟩
    · rw [State.onChip_chip, he]; exact Chip.get_set_same ..
    · rw [State.onChip_chip, he]; exact congrArg PortRt.remapping (Chip.setPort_port ..)
    · rw [State.onChip_chip, he]; rfl

end Sys2Proof.Machine
end

section
/-! SUPPORT. The footprints of stage 6: the lookups, the stream gates and the flow meters, the counts of a header's slot. -/

namespace Sys2Proof.Machine

section
variable {c : Chip} {w : Footprint} {o : Chip}

@[simp ↓] theorem Chip.vestPeak_outside (hfld : w.fld = true) (n : Nat) : (c.vestPeak n).outside w o = c.outside w o := by
  simp [Chip.vestPeak, hfld]

/-! ## TCAM -/

section
variable (hfld : w.fld = true) (hbus : w.bus = true) (hfenced : w.fenced = true) (hflt : w.flt = true)
include hfld hbus hfenced hflt

@[simp ↓] theorem Chip.markFenced_outside (k i : Nat) (f : Option Nat) : (c.markFenced k i f).outside w o = c.outside w o := by
  unfold Chip.markFenced; dsimp only; cases f <;> simp [*]
@[simp ↓] theorem Chip.fenceTcam_outside (b : Nat) : (c.fenceTcam b).outside w o = c.outside w o := by
  simp [Chip.fenceTcam, *]
@[simp ↓] theorem Chip.tcamError_outside (b : Nat) : (c.tcamError b).outside w o = c.outside w o := by
  unfold Chip.tcamError; dsimp only; simp [*]

variable (htcam : w.tcam = true)
include htcam

@[simp ↓] theorem Chip.tcamParity_outside (b row : Nat) : (c.tcamParity b row).outside w o = c.outside w o := by
  unfold Chip.tcamParity; dsimp only; split <;> simp [*]
@[simp ↓] theorem tcamScan_outside (p layout key : Nat) (hall : Option Nat) (rows : List (Nat × TcamRow)) :
    (tcamScan p layout key hall rows c).2.outside w o = c.outside w o := by
  induction rows generalizing c with
  | nil => rfl
  | cons e rest ih => unfold tcamScan; dsimp only; (repeat' split) <;> simp [*]

end

/-! ## Streams -/

@[simp ↓] theorem Chip.streamCnt_outside (hresidue : w.residue = true) (handle i n : Nat) :
    (c.streamCnt handle i n).outside w o = c.outside w o := Chip.stat_outside hresidue ..

@[simp ↓] theorem Chip.gateFilter_outside (hfld : w.fld = true) (hsgate : w.sgate = true) (hresidue : w.residue = true)
    (g handle dlen t : Nat) (whole : Bool) : (c.gateFilter g handle dlen t whole).2.2.outside w o = c.outside w o := by
  unfold Chip.gateFilter; dsimp only; (repeat' split) <;> simp [*]

section
variable (hfld : w.fld = true) (hbus : w.bus = true) (htbl : w.tbl = true) (htblEcc : w.tblEcc = true) (htblHall : w.tblHall = true)
  (hflt : w.flt = true) (hresidue : w.residue = true)
include hfld hbus htbl htblEcc htblHall hflt hresidue

@[simp ↓] theorem Chip.streamFind_outside (method : Nat) (key : List Nat) :
    (c.streamFind method key).2.outside w o = c.outside w o := by simp [Chip.streamFind, *]
@[simp ↓] theorem sidScan_outside (h : Hdr) (ms : List Nat) : (sidScan h ms c).2.outside w o = c.outside w o := by
  induction ms generalizing c with
  | nil => rfl
  | cons m ms ih => unfold sidScan; dsimp only; (repeat' split) <;> simp [*]
@[simp ↓] theorem Chip.meterFilter_outside (pol handle dlen colour t : Nat) :
    (c.meterFilter pol handle dlen colour t).2.2.outside w o = c.outside w o := by
  unfold Chip.meterFilter; dsimp only; (repeat' split) <;> simp [*]

end

/-! ## The counts of a pipeline -/

section
variable (hfld : w.fld = true) (hpipes : w.pipes = true)
include hfld hpipes

@[simp ↓] theorem Chip.slotAdd_outside (p x n : Nat) : (c.slotAdd p x n).outside w o = c.outside w o := by
  unfold Chip.slotAdd; dsimp only; (repeat' split) <;> simp [*]
omit hfld in
@[simp ↓] theorem Chip.slotSeen_outside (p : Nat) : (c.slotSeen p).outside w o = c.outside w o := Chip.setPipe_outside hpipes ..
@[simp ↓] theorem Chip.slotUsed_outside (p x : Nat) : (c.slotUsed p x).outside w o = c.outside w o := by
  unfold Chip.slotUsed; dsimp only; split <;> simp [*]

end

/-! ## Frames that leave their vestibule -/

@[simp ↓] theorem Chip.leaveVest_outside (hports : w.ports = true) (fid : Nat) : (c.leaveVest fid).outside w o = c.outside w o := by
  unfold Chip.leaveVest; (repeat' split) <;> simp [*]
@[simp ↓] theorem Chip.settleVest_outside (hports : w.ports = true) (hatr : w.atr = true) (fid : Nat) :
    (c.settleVest fid).outside w o = c.outside w o := by unfold Chip.settleVest; (repeat' split) <;> simp [*]

end

/-! ## Components outside a footprint -/

section
variable {w : Footprint} {c d : Chip} (h : ∀ o, d.outside w o = c.outside w o)
include h

theorem Chip.pipes_of_outside (hw : w.pipes = false) : d.pipes = c.pipes := by
  simpa [Chip.outside, hw] using congrArg Chip.pipes (h d)
theorem Chip.atr_of_outside (hw : w.atr = false) : d.atr = c.atr := by
  simpa [Chip.outside, hw] using congrArg Chip.atr (h d)
theorem Chip.ports_of_outside (hw : w.ports = false) : d.ports = c.ports := by
  simpa [Chip.outside, hw] using congrArg Chip.ports (h d)
theorem Chip.cnt_of_outside (hw : w.cnt = false) : d.cnt = c.cnt := by
  simpa [Chip.outside, hw] using congrArg Chip.cnt (h d)
theorem Chip.tbl_of_outside (hw : w.tbl = false) : d.tbl = c.tbl := by
  simpa [Chip.outside, hw] using congrArg Chip.tbl (h d)
theorem Chip.sec_of_outside (hw : w.sec = false) : d.sec = c.sec := by
  simpa [Chip.outside, hw] using congrArg Chip.sec (h d)

end

end Sys2Proof.Machine
end

section
/-! SUPPORT. The completion buffers (R29): what counts on a pipeline and what stage 6 does keep them. -/

namespace Sys2Proof.Machine

section
variable {c : Chip}

theorem Chip.setPipe_pipe (p : Nat) (r : PipeRt) (q : Nat) : (c.setPipe p r).pipe q = if q = p then r else c.pipe q := by
  unfold Chip.pipe Chip.setPipe; simp

/-- An update of a pipeline that leaves its buffer leaves every buffer. -/
theorem Chip.setPipe_keepsBuf {p : Nat} {r : PipeRt} (h : r.buf = (c.pipe p).buf) (q : Nat) :
    ((c.setPipe p r).pipe q).buf = (c.pipe q).buf := by
  rw [Chip.setPipe_pipe]; split
  · next hq => rw [hq, h]
  · rfl

theorem Chip.buf_of_outside {w : Footprint} {c d : Chip} (h : ∀ o, d.outside w o = c.outside w o) (hw : w.pipes = false) (q : Nat) :
    (d.pipe q).buf = (c.pipe q).buf := by unfold Chip.pipe; rw [Chip.pipes_of_outside h hw]

@[simp] theorem Chip.set_buf (f : F) (i j v q : Nat) : ((c.set f i j v).pipe q).buf = (c.pipe q).buf := rfl

theorem Chip.ite_buf {b : Prop} [Decidable b] (d e : Chip) (q : Nat) :
    ((if b then d else e).pipe q).buf = if b then (d.pipe q).buf else (e.pipe q).buf := apply_ite (fun c : Chip => (c.pipe q).buf) ..

theorem Chip.evcRecord_buf (p k ev : Nat) (h : Option Hdr) (q : Nat) : ((c.evcRecord p k ev h).pipe q).buf = (c.pipe q).buf := by
  unfold Chip.evcRecord; dsimp only; split
  · rfl
  · exact Chip.setPipe_keepsBuf (by rfl) q

theorem Chip.evcIncr_buf (p k ev : Nat) (h : Option Hdr) (q : Nat) : ((c.evcIncr p k ev h).pipe q).buf = (c.pipe q).buf := by
  unfold Chip.evcIncr; dsimp only
  rw [Chip.ite_buf, Chip.evcRecord_buf, ite_self, Chip.ite_buf, Chip.set_buf, ite_self]
  exact Chip.setPipe_keepsBuf (by rfl) q

theorem Chip.evcIncrs_buf (p k ev : Nat) (h : Option Hdr) (n q : Nat) :
    ((Chip.evcIncrs p k ev h n c).pipe q).buf = (c.pipe q).buf := by
  induction n generalizing c with
  | zero => rfl
  | succ n ih => exact ih.trans (Chip.evcIncr_buf ..)

@[simp] theorem Chip.evcPulse_buf (p ev n : Nat) (h : Option Hdr) (q : Nat) :
    ((c.evcPulse p ev n h).pipe q).buf = (c.pipe q).buf := by
  unfold Chip.evcPulse; split
  · rfl
  · refine foldl_keep (fun c => (c.pipe q).buf) _ (fun c k => ?_) _ c
    split
    · exact Chip.evcIncrs_buf ..
    · rfl

theorem Chip.slotAdd_buf (p x n q : Nat) : ((c.slotAdd p x n).pipe q).buf = (c.pipe q).buf := by
  unfold Chip.slotAdd; dsimp only; (repeat' split)
  · rfl
  · exact Chip.setPipe_keepsBuf (by rfl) q
  · exact Chip.setPipe_keepsBuf (by rfl) q

theorem Chip.slotUsed_buf (p x q : Nat) : ((c.slotUsed p x).pipe q).buf = (c.pipe q).buf := by
  have hseen : ((c.slotSeen p).pipe q).buf = (c.pipe q).buf := Chip.setPipe_keepsBuf (by rfl) q
  unfold Chip.slotUsed; dsimp only; split
  · exact hseen
  · rw [Chip.setPipe_keepsBuf (by rfl), Chip.slotAdd_buf, Chip.slotAdd_buf, hseen]

theorem Chip.tcamLookup_buf (p l : Nat) (h : Hdr) (hall : Option Nat) (q : Nat) :
    ((c.tcamLookup p l h hall).2.pipe q).buf = (c.pipe q).buf := by
  have hscan : ∀ (layout key : Nat) (rows : List (Nat × TcamRow)),
      ((tcamScan p layout key hall rows c).2.pipe q).buf = (c.pipe q).buf := fun layout key rows =>
    Chip.buf_of_outside (w := { fld := true, bus := true, fenced := true, tcam := true, flt := true })
      (fun _ => tcamScan_outside rfl rfl rfl rfl rfl ..) rfl q
  unfold Chip.tcamLookup; dsimp only; (repeat' split)
  · rfl
  · rfl
  · exact hscan ..
  · rw [Chip.evcPulse_buf]; exact hscan ..

theorem Chip.stat_buf (pool e x n q : Nat) : ((c.stat pool e x n).pipe q).buf = (c.pipe q).buf :=
  Chip.buf_of_outside (w := { residue := true }) (fun _ => Chip.stat_outside rfl ..) rfl q

theorem sidScan_buf (h : Hdr) (ms : List Nat) (q : Nat) : ((sidScan h ms c).2.pipe q).buf = (c.pipe q).buf :=
  Chip.buf_of_outside (w := { fld := true, bus := true, tbl := true, tblEcc := true, tblHall := true, flt := true, residue := true })
    (fun _ => sidScan_outside rfl rfl rfl rfl rfl rfl rfl ..) rfl q

theorem Chip.gateFilter_buf (g handle dlen t : Nat) (whole : Bool) (q : Nat) :
    ((c.gateFilter g handle dlen t whole).2.2.pipe q).buf = (c.pipe q).buf :=
  Chip.buf_of_outside (w := { fld := true, sgate := true, residue := true })
    (fun _ => Chip.gateFilter_outside rfl rfl rfl ..) rfl q

theorem Chip.meterFilter_buf (pol handle dlen colour t q : Nat) :
    ((c.meterFilter pol handle dlen colour t).2.2.pipe q).buf = (c.pipe q).buf :=
  Chip.buf_of_outside (w := { fld := true, bus := true, tbl := true, tblEcc := true, tblHall := true, flt := true, residue := true })
    (fun _ => Chip.meterFilter_outside rfl rfl rfl rfl rfl rfl rfl ..) rfl q

/-- Stage 6 leaves every completion buffer. -/
theorem Chip.classify_buf (p n : Nat) (d : List Nat) (t : Nat) (h : Hdr) (q : Nat) :
    ((c.classify p n d t h).2.pipe q).buf = (c.pipe q).buf := by
  unfold Chip.classify
  lift_lets
  extract_lets _ _ _ _ _ _ l0 l1 a c1 _ _ c2 _ handle
  have hl0 : (l0.2.pipe q).buf = (c.pipe q).buf := by unfold l0; split <;> simp only [Chip.tcamLookup_buf]
  have hl1 : (l1.2.pipe q).buf = (c.pipe q).buf := by unfold l1; split <;> simp only [Chip.tcamLookup_buf, hl0]
  have hc1 : (c1.pipe q).buf = (c.pipe q).buf :=
    (foldl_keep (fun c => (c.pipe q).buf) _ (fun c i => by simp only [Chip.ite_buf, Chip.stat_buf, ite_self]) a.hits l1.2).trans hl1
  have hc2 : (c2.pipe q).buf = (c.pipe q).buf := (sidScan_buf ..).trans hc1
  split
  · (repeat' split) <;> rfl
  · clear_value handle
    cases handle with
    | none => dsimp only; (repeat' split) <;> exact hc2
    | some x =>
      dsimp -zeta only
      extract_lets c3 g _ m
      have hc3 : (c3.pipe q).buf = (c.pipe q).buf := (Chip.stat_buf ..).trans ((Chip.stat_buf ..).trans hc2)
      have hg : (g.2.2.pipe q).buf = (c.pipe q).buf := by unfold g; split <;> simp only [Chip.gateFilter_buf, hc3]
      have hm : (m.2.2.pipe q).buf = (c.pipe q).buf := (Chip.meterFilter_buf ..).trans hg
      split
      · exact (Chip.stat_buf ..).trans hc3
      split
      · exact hc3
      split
      · exact hg
      · exact hm

end

end Sys2Proof.Machine
end

section
/-! SUPPORT. What the updates of frames and vestibules, of slots and of the device's counters leave. -/

namespace Sys2Proof.Machine

/-! ## Frames and vestibules -/

theorem Chip.setFrame_frame (c : Chip) (i : Nat) (f : Frame) (k : Nat) :
    (c.setFrame i f).frame k = if k = i then some f else c.frame k := by
  unfold Chip.frame Chip.setFrame; simp

theorem Chip.vestPeak_get {c : Chip} {n i j : Nat} {g : F} (h : g ≠ Fd.PRT_VEST_STATUS_PEAK) :
    (c.vestPeak n).get g i j = c.get g i j := Chip.get_ite_set (by rintro ⟨⟩; exact h rfl)

theorem Chip.vestPeak_frame (c : Chip) (n i : Nat) : (c.vestPeak n).frame i = c.frame i :=
  (apply_ite (Chip.frame · i) ..).trans (ite_self _)

theorem Chip.vestPeak_buf (c : Chip) (n q : Nat) : ((c.vestPeak n).pipe q).buf = (c.pipe q).buf :=
  Chip.buf_of_outside (w := { fld := true }) (fun _ => Chip.vestPeak_outside rfl n) rfl q

theorem Chip.leaveVest_atr (c : Chip) (fid : Nat) : (c.leaveVest fid).atr = c.atr :=
  Chip.atr_of_outside (w := { ports := true }) (fun _ => Chip.leaveVest_outside rfl fid) rfl

theorem Chip.leaveVest_buf (c : Chip) (fid q : Nat) : ((c.leaveVest fid).pipe q).buf = (c.pipe q).buf :=
  Chip.buf_of_outside (w := { ports := true }) (fun _ => Chip.leaveVest_outside rfl fid) rfl q

theorem Chip.gc_queues (c : Chip) (fid : Nat) : (c.gc fid).atr.queues = c.atr.queues := by
  unfold Chip.gc; (repeat' split) <;> rfl

theorem Chip.settleVest_queues (c : Chip) (fid : Nat) : (c.settleVest fid).atr.queues = c.atr.queues := by
  unfold Chip.settleVest; (repeat' split)
  · rfl
  · rw [Chip.gc_queues, Chip.leaveVest_atr]
  · rfl

theorem Chip.settleVest_within (fid : Nat) : Within { ports := true, atr := true } (Chip.settleVest · fid) :=
  fun _ _ => Chip.settleVest_outside rfl rfl fid

/-! ## Slots -/

theorem Chip.slotAdd_get {c : Chip} {p x n i j : Nat} {g : F} (h : g ≠ Fd.PIP_SLOT_HI_OVF) :
    (c.slotAdd p x n).get g i j = c.get g i j := by
  unfold Chip.slotAdd; dsimp only; (repeat' split)
  · rfl
  · rw [Chip.get_set_ne h, Chip.setPipe_get]
  · rw [Chip.setPipe_get]

theorem Chip.slotUsed_get {c : Chip} {p x i j : Nat} {g : F} (h : g ≠ Fd.PIP_SLOT_HI_OVF) :
    (c.slotUsed p x).get g i j = c.get g i j := by
  unfold Chip.slotUsed; dsimp only; split
  · exact Chip.setPipe_get ..
  · rw [Chip.setPipe_get, Chip.slotAdd_get h, Chip.slotAdd_get h]; exact Chip.setPipe_get ..

/-! ## Counters -/

theorem Chip.discard1_count (c : Chip) : c.discard1.cnt.get 0 8 4 = (c.cnt.get 0 8 4 + 1) % 2 ^ 64 := by
  unfold Chip.discard1 Chip.devCnt; simp

theorem Chip.stat_cnt (c : Chip) (pool x i n : Nat) : (c.stat pool x i n).cnt = c.cnt :=
  Chip.cnt_of_outside (w := { residue := true }) (fun _ => Chip.stat_outside rfl ..) rfl

end Sys2Proof.Machine
end

section
/-! OBLIGATION O22: the handoff of a header. -/

namespace Sys2Proof.Machine

/-! ## Stages 5 and 6 -/

theorem Chip.takeHeader_buf (c : Chip) (p n fid : Nat) (f : Frame) :
    ((c.takeHeader p n fid f).pipe p).buf = (c.pipe p).buf ++ [fid] := by
  unfold Chip.takeHeader; dsimp only
  rw [Chip.setPipe_pipe, if_pos rfl]
  refine congrArg (· ++ [fid]) ((Chip.classify_buf ..).trans ?_)
  split
  · exact Chip.evcPulse_buf ..
  · exact (Chip.evcPulse_buf ..).trans (Chip.evcPulse_buf ..)

/-- The frame keeps what it was received as, and has its header and its pipeline. -/
theorem Chip.takeHeader_frame (c : Chip) (p n fid : Nat) (f : Frame) : ∃ h, (c.takeHeader p n fid f).frame fid =
    some { f with handed := true, pipe := p, gen := (c.port n).moves, hdr := some h } :=
  ⟨_, (Chip.setFrame_frame ..).trans (if_pos rfl)⟩

/-! ## The handoff -/

/-- The bytes of a frame in its vestibule once `a` of them have arrived. -/
def Frame.got (f : Frame) (a : Nat) : Nat := if f.ended then f.wireLen else max f.arrived (min a f.wireLen)

/-- The chip with these bytes of frame `fid` in the vestibule of port `n`. -/
def Chip.arrive (c : Chip) (n fid : Nat) (f : Frame) (a : Nat) : Chip := (c.setFrame fid { f with arrived := f.got a }).vestPeak n

theorem Chip.arrive_frame (c : Chip) (n fid : Nat) (f : Frame) (a : Nat) :
    (c.arrive n fid f a).frame fid = some { f with arrived := f.got a } :=
  (Chip.vestPeak_frame ..).trans ((Chip.setFrame_frame ..).trans (if_pos rfl))

theorem Chip.arrive_buf (c : Chip) (n fid : Nat) (f : Frame) (a q : Nat) :
    ((c.arrive n fid f a).pipe q).buf = (c.pipe q).buf := Chip.vestPeak_buf ..

/-- A frame is ready once it has ended, or cuts through with 256 bytes arrived (R29). -/
theorem Chip.arrive_ready {c : Chip} {n fid a : Nat} {f : Frame} (hnew : f.handed = false)
    (h : f.ended = true ∨ (c.flag Fd.PRT_MAC_CTRL_CUT_THRU f.port 0 = true ∧ 256 ≤ f.wireLen ∧ 256 ≤ a)) :
    (c.arrive n fid f a).readyFrame fid = true := by
  unfold Chip.readyFrame
  rw [Chip.arrive_frame]; dsimp only
  rcases h with h | ⟨hcut, hlen, ha⟩
  · simp [hnew, h]
  · have hflag : (c.arrive n fid f a).flag Fd.PRT_MAC_CTRL_CUT_THRU f.port 0 = true := by
      rw [← hcut]; unfold Chip.flag Chip.arrive; rw [Chip.vestPeak_get (by decide), Chip.setFrame_get]
    have hgot : 256 ≤ f.got a := by unfold Frame.got; split <;> omega
    simp [hnew, hflag, hgot]

/-- The handoff of a frame that is ready, to a pipeline that takes it. -/
theorem headerHandoff_takes {c : Chip} {p n a fid : Nat} {f : Frame}
    (hfind : (c.port n).vest.find? (fun i => ((c.frame i).map (fun f => !f.handed)).getD false) = some fid)
    (hf : c.frame fid = some f) (hrun : c.running = true) (hup : c.pipeUp p = true) (hport : c.portPipe n = p)
    (hstay : (c.port n).remapping = false) (hgo : c.stopping 1 p = false) (hroom : (c.pipe p).buf.length < 64)
    (hready : (c.arrive n fid f a).readyFrame fid = true) :
    headerHandoff p n a c = (c.arrive n fid f a).takeHeader p n fid { f with arrived := f.got a } := by
  unfold headerHandoff
  rw [hfind]; dsimp only
  rw [hf]; dsimp only
  refine if_neg ?_
  change ¬((_ || _ || _ || _ || _ || _ || !(c.arrive n fid f a).readyFrame fid) = true)
  simp [hrun, hup, hport, hstay, hgo, hroom, hready]

/-- Settles O22: the frame is ready, and what stages 5 and 6 do keeps the buffers. -/
theorem headerIsHandedOff : Obligations.HeaderIsHandedOff := by
  unfold Obligations.HeaderIsHandedOff
  intro s p n a fid f hfind hf hrun hup hport hstay hgo hroom hwhole
  have hnew : f.handed = false := by simpa [hf] using List.find?_some hfind
  have he := headerHandoff_takes hfind hf hrun hup hport hstay hgo hroom (Chip.arrive_ready (n := n) hnew hwhole)
  obtain ⟨h, hframe⟩ := (s.chip.arrive n fid f a).takeHeader_frame p n fid { f with arrived := f.got a }
  refine ⟨s.onChip (headerHandoff p n a), rfl, ?_, _, (congrArg (Chip.frame · fid) he).trans hframe, rfl, rfl, rfl, rfl, rfl, rfl,
    rfl, rfl⟩
  rw [State.onChip_chip, he, Chip.takeHeader_buf, Chip.arrive_buf]

end Sys2Proof.Machine
end

section
/-! OBLIGATION O24: the header at the head of a completion buffer. -/

namespace Sys2Proof.Machine

/-! ## The hall of a header -/

section
variable {c d : Chip} (h : ∀ (g : F) (i j : Nat), g ≠ Fd.PIP_SLOT_HI_OVF → d.get g i j = c.get g i j)
include h

/-- No overflow of a slot counter has a part in a frame's hall. -/
theorem Chip.frameHall_congr (n vid : Nat) : d.frameHall n vid = c.frameHall n vid := by
  simp (disch := decide) only [Chip.frameHall, Chip.shared, Chip.owner, Chip.sliceHall, Chip.localOf, Chip.hport, Chip.flag, h]
  rfl

theorem Chip.hallState_congr (hs : d.sec = c.sec) (hall : Nat) : d.hallState hall = c.hallState hall := by
  simp (disch := decide) only [Chip.hallState, Chip.hallPresent, Chip.hallLimit, Chip.fuse, Chip.flag, h, hs]
  rfl

end

/-! ## The slot of a header -/

/-- The chip without the head of a buffer, whose slot falls into class `x` (R447). -/
def Chip.popHeader (c : Chip) (p x : Nat) (rest : List Nat) : Chip := (c.setPipe p { c.pipe p with buf := rest }).slotUsed p x

theorem Chip.popHeader_buf (c : Chip) (p x : Nat) (rest : List Nat) : ((c.popHeader p x rest).pipe p).buf = rest := by
  unfold Chip.popHeader; rw [Chip.slotUsed_buf, Chip.setPipe_pipe, if_pos rfl]

theorem Chip.popHeader_outside {c : Chip} {w : Footprint} {o : Chip} (hfld : w.fld = true) (hpipes : w.pipes = true) (p x : Nat)
    (rest : List Nat) : (c.popHeader p x rest).outside w o = c.outside w o := by simp [Chip.popHeader, *]

theorem Chip.popHeader_atr (c : Chip) (p x : Nat) (rest : List Nat) : (c.popHeader p x rest).atr = c.atr :=
  Chip.atr_of_outside (w := { fld := true, pipes := true }) (fun _ => Chip.popHeader_outside rfl rfl p x rest) rfl

theorem Chip.popHeader_get {c : Chip} {p x i j : Nat} {rest : List Nat} {g : F} (h : g ≠ Fd.PIP_SLOT_HI_OVF) :
    (c.popHeader p x rest).get g i j = c.get g i j := (Chip.slotUsed_get h).trans (Chip.setPipe_get ..)

/-! ## A header that enters stage 7 -/

/-- The chip on which stage 7 of the header `h` of frame `fid` works: the header has left its buffer, the frame has passed
stage 8, and the class is counted (R437). -/
def Chip.enterStage7 (c : Chip) (p fid : Nat) (rest : List Nat) (f : Frame) (h : Hdr) : Chip :=
  let c1 := (c.popHeader p 1 rest).setFrame fid { f with staged := true }
  if h.cls < 8 then c1.stat 0 f.port (24 + h.cls) 1 else c1

section
variable (c : Chip) (p fid : Nat) (rest : List Nat) (f : Frame) (h : Hdr)

/-- Counting the class changes the counters' residue alone. -/
theorem Chip.enterStage7_residue {o : Chip} : (c.enterStage7 p fid rest f h).outside { residue := true } o =
    ((c.popHeader p 1 rest).setFrame fid { f with staged := true }).outside { residue := true } o := by
  unfold Chip.enterStage7; dsimp only; split
  · exact Chip.stat_outside rfl ..
  · rfl

theorem Chip.enterStage7_within : Within { fld := true, pipes := true, atr := true, residue := true }
    (fun c => c.enterStage7 p fid rest f h) := fun c o => by simp [Chip.enterStage7, Chip.popHeader]

theorem Chip.enterStage7_buf : ((c.enterStage7 p fid rest f h).pipe p).buf = rest :=
  (Chip.buf_of_outside (fun _ => Chip.enterStage7_residue ..) rfl p).trans (Chip.popHeader_buf c p 1 rest)

theorem Chip.enterStage7_atr :
    (c.enterStage7 p fid rest f h).atr = { c.atr with frames := c.atr.frames.ins fid { f with staged := true } } := by
  refine (Chip.atr_of_outside (fun _ => Chip.enterStage7_residue ..) rfl).trans ?_
  unfold Chip.setFrame; dsimp only; rw [Chip.popHeader_atr]

theorem Chip.enterStage7_queues : (c.enterStage7 p fid rest f h).atr.queues = c.atr.queues := by rw [Chip.enterStage7_atr]

theorem Chip.enterStage7_frame : (c.enterStage7 p fid rest f h).frame fid = some { f with staged := true } := by
  unfold Chip.frame; rw [Chip.enterStage7_atr]; simp

theorem Chip.enterStage7_get {g : F} {i j : Nat} (hg : g ≠ Fd.PIP_SLOT_HI_OVF) :
    (c.enterStage7 p fid rest f h).get g i j = c.get g i j :=
  (Chip.get_of_outside (fun _ => Chip.enterStage7_residue ..) rfl rfl rfl g i j).trans (Chip.popHeader_get hg)

end

/-! ## The discard of a header -/

/-- A frame without a hall, or of a frozen hall. -/
def Chip.discardsHeader (c : Chip) (n vid : Nat) : Prop :=
  c.frameHall n vid = none ∨ ∃ hall, c.frameHall n vid = some hall ∧ c.hallState hall = 3

theorem Chip.discardsHeader_congr {c d : Chip} {n vid : Nat}
    (h : ∀ (g : F) (i j : Nat), g ≠ Fd.PIP_SLOT_HI_OVF → d.get g i j = c.get g i j) (hs : d.sec = c.sec) :
    d.discardsHeader n vid ↔ c.discardsHeader n vid := by
  unfold Chip.discardsHeader; simp only [Chip.frameHall_congr h, Chip.hallState_congr h hs]

/-- Stage 7 discards it once: beside the statistics it changes DISCARDS alone. -/
theorem Chip.stage7_discards {c : Chip} {p fid n : Nat} {f : Frame} {h : Hdr} (hd : c.discardsHeader n h.vid) :
    (∀ o, (c.stage7 p fid n f h).outside { cnt := true, residue := true } o = c.outside { cnt := true, residue := true } o) ∧
      (c.stage7 p fid n f h).cnt.get 0 8 4 = (c.cnt.get 0 8 4 + 1) % 2 ^ 64 := by
  unfold Chip.stage7
  rcases hd with hnone | ⟨hall, hhall, hfrozen⟩
  · rw [hnone]; dsimp only
    split
    · exact ⟨fun o => by simp, by rw [Chip.stat_cnt, Chip.discard1_count, Chip.stat_cnt]⟩
    · exact ⟨fun o => by simp, by rw [Chip.discard1_count, Chip.stat_cnt]⟩
  · rw [hhall]; dsimp only; rw [if_pos hfrozen]
    exact ⟨fun o => by simp, by rw [Chip.discard1_count, Chip.stat_cnt, Chip.stat_cnt]⟩

/-! ## STAGE8_COMPLETE -/

section
variable {c : Chip} {p fid : Nat} {rest : List Nat} {f : Frame} (hbuf : (c.pipe p).buf = fid :: rest) (hf : c.frame fid = some f)
  (hrun : c.running = true)
include hbuf hf hrun

/-- The header of a frame found bad meanwhile is dropped. -/
theorem stage8Complete_bad (hbad : f.bad = true) :
    stage8Complete p c = ((c.popHeader p 2 rest).leaveVest fid).delFrame fid := by
  unfold stage8Complete
  rw [hbuf]; dsimp only
  rw [hf]; dsimp only
  rw [if_neg (by simp [hrun]), if_pos hbad]; rfl

/-- Every other goes through stages 7 and 8, once the trailer is known where its port looks for one. -/
theorem stage8Complete_enters {h : Hdr} (hbad : f.bad = false) (hh : f.hdr = some h)
    (hw : f.ended = true ∨ c.flag Fd.PRT_PARSE_CTRL_TRAILER f.port 0 = false) :
    stage8Complete p c =
      ((c.enterStage7 p fid rest f h).stage7 p fid f.port { f with staged := true } h).settleVest fid := by
  unfold stage8Complete
  rw [hbuf]; dsimp only
  rw [hf]; dsimp only
  rw [if_neg (by simp [hrun]), if_neg (by simp [hbad]), if_neg (by rcases hw with hw | hw <;> simp [hw])]
  split
  · next hn => cases hh.symm.trans hn
  · next h' hh' => cases hh.symm.trans hh'; rfl

end

/-- Settles O24: the equations of STAGE8_COMPLETE, and what each of its ways leaves. -/
theorem headersLeaveInOrder : Obligations.HeadersLeaveInOrder := by
  unfold Obligations.HeadersLeaveInOrder
  intro s p fid rest f h hbuf hf hrun
  refine ⟨fun hbad => ?_, fun hbad hend hh hd => ?_, fun hbad hh hw => ?_⟩
  · have he := stage8Complete_bad hbuf hf hrun hbad
    refine ⟨s.onChip (stage8Complete p), rfl, ?_, ?_, ?_⟩ <;> rw [State.onChip_chip, he]
    · exact (Chip.leaveVest_buf ..).trans (Chip.popHeader_buf ..)
    · unfold Chip.frame Chip.delFrame; simp
    · change ((s.chip.popHeader p 2 rest).leaveVest fid).atr.queues = _
      rw [Chip.leaveVest_atr, Chip.popHeader_atr]
  · have he := stage8Complete_enters hbuf hf hrun hbad hh (.inl hend)
    have henter := Chip.enterStage7_within p fid rest f h s.chip
    obtain ⟨hout, hcnt⟩ := Chip.stage7_discards (p := p) (fid := fid) (f := { f with staged := true })
      ((Chip.discardsHeader_congr (fun _ _ _ hg => Chip.enterStage7_get _ _ _ _ _ _ hg) (Chip.sec_of_outside henter rfl)).mpr hd)
    have hsettle := Chip.settleVest_within fid
    refine ⟨s.onChip (stage8Complete p), rfl, ?_, ?_, ?_, ?_⟩ <;> rw [State.onChip_chip, he]
    · rw [Chip.buf_of_outside (hsettle _) rfl, Chip.buf_of_outside hout rfl, Chip.enterStage7_buf]
    · rw [Chip.cnt_of_outside (hsettle _) rfl, hcnt, Chip.cnt_of_outside henter rfl]
    · rw [Chip.settleVest_queues, Chip.atr_of_outside hout rfl, Chip.enterStage7_queues]
    · rw [Chip.tbl_of_outside (hsettle _) rfl, Chip.tbl_of_outside hout rfl, Chip.tbl_of_outside henter rfl]
  · exact ⟨s.onChip (stage8Complete p), s.chip.enterStage7 p fid rest f h, rfl, Chip.enterStage7_buf .., Chip.enterStage7_frame ..,
      Chip.ports_of_outside (Chip.enterStage7_within p fid rest f h s.chip) rfl, Chip.enterStage7_queues ..,
      stage8Complete_enters hbuf hf hrun hbad hh hw⟩

end Sys2Proof.Machine
end

section
/-! SUPPORT. A write through the slot of a hall that reaches its register, what it keeps, and the words of a field. -/

namespace Sys2Proof.Machine

/-- A slot write that reaches its register: its effect, with the KG lock armed, logged under the address it went by. -/
theorem State.slotWrite_serves {s : State} {m h : Nat} {r : R} {i j : Nat} (hs : s.chip.serves m (slotVia m h) r i j = true)
    (k : Bool → Chip → Chip) : s.slotWrite m h r i j k =
      .next { s with chip := s.chip.rearm.logAs (s.chip.accAddr (slotVia m h) r i j) (k (s.chip.bus.kgOpen && r.guarded)) } := by
  unfold State.slotWrite State.onChip; dsimp only; rw [Chip.withWrite_serves hs]

/-- No virtual function is privileged, so it never uses the native slot; in any other slot a current generation is not stale. -/
theorem Chip.issueStale_slotVia {c : Chip} {m h : Nat} (hm : h ≠ 0 ∨ c.priv m = true) (hg : h = 0 ∨ c.genCurrent h = true) :
    c.issueStale (slotVia m h) = false := by
  unfold slotVia
  split
  · rfl
  · next hn =>
    have h0 : h ≠ 0 := by
      rintro rfl
      have hvf : c.priv m = false := by
        unfold Chip.priv; rw [if_neg (by omega), if_neg (by unfold mSB; omega), if_neg (by unfold mJTAG; omega)]
      simp [hvf] at hm
    simp [Chip.issueStale, hg.resolve_left h0]

theorem Chip.logAs_bus (c : Chip) (a : Nat) (f : Chip → Chip) : (c.logAs a f).bus = (f c).bus := by
  obtain ⟨x, hx⟩ := c.logAs_fld a f; rw [hx]

theorem Chip.sgate_blind : Chip.Blind Chip.sgate := fun _ _ _ => rfl
theorem Chip.tcam_blind : Chip.Blind Chip.tcam := fun _ _ _ => rfl
theorem Chip.pipe_blind (p : Nat) : Chip.Blind (Chip.pipe · p) := fun _ _ _ => rfl

/-- The words of a field written one after the other. -/
theorem Chip.foldl_set_get (c : Chip) (f : F) (i : Nat) (v : Nat → Nat) (n w : Nat) :
    ((List.range n).foldl (fun c w => c.set f i w (v w)) c).get f i w = if w < n then v w % 2 ^ f.width else c.get f i w := by
  induction n with
  | zero => rfl
  | succ n ih =>
    rw [List.range_succ, List.foldl_append, List.foldl_cons, List.foldl_nil]
    by_cases hw : w = n
    · rw [hw, Chip.get_set_same, if_pos (Nat.lt_succ_self n)]
    · rw [Chip.get_set_other _ _ _ _ _ _ _ _ (by simp [hw]), ih]
      simp only [show w < n + 1 ↔ w < n by omega]

end Sys2Proof.Machine
end

section
/-! OBLIGATION O31: the first entry of a stream gate, and REOPEN (R183). -/

namespace Sys2Proof.Machine

theorem setSgate_sgate (c : Chip) (g : Nat) (r : SGateRt) (x : Nat) :
    sgate (setSgate c g r) x = if x = g then r else sgate c x := NMap.get_put ..

section
variable (c : Chip) (g : Nat) (p : GclP) (ps es k : Nat)

/-- The gate takes its state from the list entry. -/
theorem Chip.sgEnter_open : (c.sgEnter g p ps es k).get Fd.TBL_SGATE_STATUS_OPEN g 0 =
    c.get Fd.TBL_SGLIST_W0_OPEN ((p.start + k) % 4096) 0 :=
  (Chip.get_set_same ..).trans (Chip.get_mod ..)

theorem Chip.sgEnter_entry : (c.sgEnter g p ps es k).get Fd.TBL_SGATE_STATUS_CUR_ENTRY g 0 =
    k % 2 ^ Fd.TBL_SGATE_STATUS_CUR_ENTRY.width :=
  (Chip.get_set_ne (by decide)).trans (Chip.get_set_same ..)

/-- It sets that gate alone, until the end of the entry. -/
theorem sgEnter_sgate : ∃ e, ∀ x, sgate (c.sgEnter g p ps es k) x =
    if x = g then { waiting := false, start := ps, until_ := e, octets := 0 } else sgate c x :=
  ⟨_, setSgate_sgate _ g _⟩

end

/-- A gate in ns that waits for its cycle enters the first entry when the cycle starts. -/
theorem streamGateBoundary_starts {c : Chip} {g : Nat} (hen : c.flag Fd.TBL_SGATE_CTRL_ENABLE g 0 = true)
    (hns : (sgP c g).cu = false) (hwait : (sgate c g).waiting = true) (hnow : c.reached false (sgate c g).until_ = true) :
    streamGateBoundary g c = c.sgEnter g (sgP c g) (sgate c g).until_ (sgate c g).until_ 0 := by
  unfold streamGateBoundary; dsimp only
  rw [if_neg (by simp [hen, hns, hnow]), if_pos (by simp [hwait])]

/-- REOPEN by a master that may. -/
theorem sgateReopen_priv {c : Chip} {m : Nat} (h : c.priv m = true) (g : Nat) :
    sgateReopen m g c = c.set Fd.TBL_SGATE_STATUS_CLOSED_INV g 0 0 := if_neg (by simp [h])

/-- Settles O31: the boundary enters the first entry of the list, and REOPEN sets its one field. -/
theorem streamGatesAdvance : Obligations.StreamGatesAdvance := by
  unfold Obligations.StreamGatesAdvance
  refine fun s m g => ⟨fun hen hns hwait hnow => ?_, fun hs hpriv => ?_⟩
  · have he := streamGateBoundary_starts hen hns hwait hnow
    obtain ⟨e, hgate⟩ := sgEnter_sgate s.chip g (sgP s.chip g) (sgate s.chip g).until_ (sgate s.chip g).until_ 0
    have hg := (hgate g).trans (if_pos rfl)
    refine ⟨s.onChip (streamGateBoundary g), rfl, ?_⟩
    rw [State.onChip_chip, he]
    exact ⟨Chip.sgEnter_open .., Chip.sgEnter_entry .., congrArg SGateRt.waiting hg, congrArg SGateRt.start hg,
      congrArg SGateRt.octets hg, fun x hx => (hgate x).trans (if_neg hx)⟩
  · have he := sgateReopen_priv (c := s.chip.rearm) hpriv g
    refine ⟨_, State.regWrite_serves hs _, ?_, ?_, ?_⟩
    · exact (Chip.logAs_get _ _ _ _ _ _ (by decide)).trans (by rw [he]; exact Chip.get_set_same ..)
    · exact (Chip.sgate_blind.logAs ..).trans (by rw [he]; rfl)
    · rw [Chip.logAs_bus, he]; rfl

end Sys2Proof.Machine
end

section
/-! OBLIGATION O38: the TCAM commands (R171, R172). -/

namespace Sys2Proof.Machine

/-! ## The start of a command -/

/-- The operands of a command, as its register then holds them. -/
def Chip.tcamOperands (c : Chip) (p layout own row : Nat) : Chip :=
  ((c.set Fd.PIP_TCAM_CMD_LAYOUT p 0 layout).set Fd.PIP_TCAM_CMD_OWNER p 0 own).set Fd.PIP_TCAM_CMD_ROW p 0 row

theorem Chip.tcamOperands_get {c : Chip} {p layout own row i j : Nat} {g : F} (h : g.r ≠ .PIP_TCAM_CMD) :
    (c.tcamOperands p layout own row).get g i j = c.get g i j := by
  unfold Chip.tcamOperands; rw [Chip.get_set_reg (.inl h), Chip.get_set_reg (.inl h), Chip.get_set_reg (.inl h)]

theorem Chip.tcamOperands_tcam (c : Chip) (p layout own row : Nat) : (c.tcamOperands p layout own row).tcam = c.tcam := rfl

/-- The chip with row `row` of bank `p` out of the search. -/
def Chip.tcamHide (c : Chip) (p row : Nat) : Chip :=
  match c.tcam.find p row with
  | some r => { c with tcam := c.tcam.ins p row { r with valid := false } }
  | none => c

/-- The chip with operation `op` running in bank `p`. -/
def Chip.tcamBusy (c : Chip) (p op layout ho row : Nat) : Chip :=
  (c.setPipe p { c.pipe p with tcamOp := some (op, layout, ho, row) }).set Fd.PIP_TCAM_CMD_STATUS p 0 sBUSY

theorem Chip.tcamHide_find (c : Chip) (p row : Nat) :
    (c.tcamHide p row).tcam.find p row = (c.tcam.find p row).map (fun r => { r with valid := false }) := by
  unfold Chip.tcamHide; split <;> next hr => simp [hr]

theorem Chip.tcamBusy_status (c : Chip) (p op layout ho row : Nat) :
    (c.tcamBusy p op layout ho row).get Fd.PIP_TCAM_CMD_STATUS p 0 = sBUSY := Chip.get_set_same ..

theorem Chip.tcamBusy_op (c : Chip) (p op layout ho row : Nat) :
    ((c.tcamBusy p op layout ho row).pipe p).tcamOp = some (op, layout, ho, row) :=
  congrArg PipeRt.tcamOp ((Chip.setPipe_pipe ..).trans (if_pos rfl))

/-- A command from hall `h` may not write TCAM at all, or names a row of another hall (R171). -/
def Chip.tcamForeign (c : Chip) (h p row : Nat) : Bool :=
  decide (h ≠ 0) && (decide (c.get Fd.GLB_QUOTA_W3_TCAM h 0 = 0) ||
    ((c.tcam.find p row).map (fun r => r.valid && decide (r.owner ≠ h))).getD false)

theorem Chip.tcamForeign_eq_false {c : Chip} {h p row : Nat} (hh : h = 0 ∨ (c.get Fd.GLB_QUOTA_W3_TCAM h 0 ≠ 0 ∧
    (c.tcam.find p row).all (fun r => !r.valid || decide (r.owner = h)) = true)) : c.tcamForeign h p row = false := by
  unfold Chip.tcamForeign
  rcases hh with h0 | ⟨hquota, hrow⟩
  · simp [h0]
  · cases hr : c.tcam.find p row with
    | none => simp [hquota]
    | some r =>
      rw [hr, Option.all_some, Bool.or_eq_true, Bool.not_eq_true', decide_eq_true_eq] at hrow
      rcases hrow with hrow | hrow <;> simp [hquota, hrow]

section
variable {c : Chip} {m h p layout owner own row : Nat} (ht : c.tcamTakes m h p layout row = true)
  (hown : own = if h = 0 then owner else h)
include ht hown

/-- A command that its slot takes, where a WRITE names only what its owner holds (R177) and keeps to its owner's quota, starts. -/
theorem tcamCmd_starts {op : Nat} (hop : op ≠ 0 ∧ op ≤ 3)
    (hact : op = 1 → own = 0 ∨ c.actOwned p own (c.stagedAction h p) = true)
    (hquota : op = 1 → c.rowsOwned p own < c.get Fd.GLB_QUOTA_W3_TCAM own 0) :
    tcamCmd m (slotVia m h) h p op layout owner row c =
      (if op = 1 then (c.tcamOperands p layout own row).tcamHide p row else c.tcamOperands p layout own row).tcamBusy p op layout
        (own + 32 * h) row := by
  unfold Chip.tcamTakes at ht
  simp only [Bool.and_eq_true, Bool.or_eq_true, Bool.not_eq_true', decide_eq_true_eq] at ht
  obtain ⟨⟨⟨⟨⟨⟨⟨⟨hb, hm⟩, hh⟩, hg⟩, hf1⟩, hf2⟩, hq⟩, hrow⟩, hdef⟩ := ht
  have hpriv : (decide (h = 0) && !c.priv m || c.tcamForeign h p row) = false := by
    rw [Chip.tcamForeign_eq_false hh, Bool.or_false]
    rcases hm with hne | hm
    · rw [decide_eq_false hne, Bool.false_and]
    · rw [hm, Bool.not_true, Bool.and_false]
  have hargs : (decide (6143 < row ∨ op = 0 ∨ 3 < op) || !(c.img.inForce.bind (fun im => im.layouts.find p layout)).isSome ||
      (decide (op = 1 ∧ own ≠ 0) && !c.actOwned p own (c.stagedAction h p))) = false := by
    have hrange : ¬(6143 < row ∨ op = 0 ∨ 3 < op) := by omega
    have hwrite : (decide (op = 1 ∧ own ≠ 0) && !c.actOwned p own (c.stagedAction h p)) = false := by
      by_cases h1 : op = 1 ∧ own ≠ 0
      · rw [(hact h1.1).resolve_left h1.2]; exact Bool.and_false _
      · rw [decide_eq_false h1]; exact Bool.false_and _
    rw [hwrite, hdef, decide_eq_false hrange]; rfl
  unfold tcamCmd; dsimp only
  rw [← hown, Chip.command_starts hb]
  · have hspace : ∀ b : Bool, ¬(op = 1 ∧ (!b) = true ∧
        (c.tcamOperands p layout own row).get Fd.GLB_QUOTA_W3_TCAM own 0 ≤ c.rowsOwned p own) := by
      rintro b ⟨h1, -, hle⟩
      rw [Chip.tcamOperands_get (by decide)] at hle
      exact Nat.not_le.mpr (hquota h1) hle
    refine (if_neg (hspace _)).trans (congrArg (fun d : Chip => d.tcamBusy p op layout (own + 32 * h) row) ?_)
    unfold Chip.tcamHide; rw [Chip.tcamOperands_tcam]
    cases c.tcam.find p row with
    | none => exact (ite_self _).symm
    | some r => rfl
  · refine (firstFail_skip hpriv).trans ?_
    rw [firstFail_skip (Chip.issueStale_slotVia hm hg), firstFail_skip (by simp [hf1, hf2]), firstFail_skip hq,
      firstFail_skip hargs, firstFail]

end

/-- What the write of a command that starts leaves. -/
theorem State.slotWrite_tcamBusy {s : State} {m h p op layout ho row : Nat} {k : Chip → Chip} {d : Chip}
    (hs : s.chip.serves m (slotVia m h) .PIP_TCAM_CMD p 0 = true) (he : k s.chip.rearm = d.tcamBusy p op layout ho row) :
    ∃ t, s.slotWrite m h .PIP_TCAM_CMD p 0 (fun _ => k) = .next t ∧ t.chip.get Fd.PIP_TCAM_CMD_STATUS p 0 = sBUSY ∧
      (t.chip.pipe p).tcamOp = some (op, layout, ho, row) ∧ t.chip.tcam = d.tcam := by
  refine ⟨_, State.slotWrite_serves hs _, ?_, ?_, ?_⟩
  · exact (Chip.logAs_get _ _ _ _ _ _ (by decide)).trans (by rw [he]; exact Chip.tcamBusy_status ..)
  · exact (congrArg PipeRt.tcamOp ((Chip.pipe_blind p).logAs ..)).trans (by rw [he]; exact Chip.tcamBusy_op ..)
  · exact (Chip.tcam_blind.logAs ..).trans (by rw [he]; rfl)

/-! ## The end of a command -/

/-- The chip with no operation in bank `p`. -/
def Chip.tcamIdle (c : Chip) (p : Nat) : Chip := c.setPipe p { c.pipe p with tcamOp := none }

theorem Chip.tcamIdle_op (c : Chip) (p : Nat) : ((c.tcamIdle p).pipe p).tcamOp = none :=
  congrArg PipeRt.tcamOp ((Chip.setPipe_pipe ..).trans (if_pos rfl))

/-- The twenty staging words of bank `p` from word `a` up, as a number. -/
def Chip.stagedNum (c : Chip) (p a : Nat) : Nat :=
  num640 ((List.range 20).map (fun w => c.get Fd.PIP_TCAM_STAGE_DATA p (a + w)))

/-- The staging words of bank `p` with the words `ws` in them. -/
def Chip.unloadTcam (c : Chip) (p : Nat) (ws : List Nat) : Chip :=
  (List.range 48).foldl (fun c w => c.set Fd.PIP_TCAM_STAGE_DATA p w (ws.getD w 0)) c

theorem Chip.unloadTcam_tcam (c : Chip) (p : Nat) (ws : List Nat) : (c.unloadTcam p ws).tcam = c.tcam := by
  unfold Chip.unloadTcam; rw [foldl_keep Chip.tcam _ (by intros; rfl)]

theorem words20_length (v : Nat) : (words20 v).length = 20 := by simp [words20]

theorem words20_getD_mod (v w : Nat) : (words20 v).getD w 0 % 2 ^ 32 = (words20 v).getD w 0 := by
  by_cases hw : w < 20 <;> simp [words20, hw]

/-- The first twenty staging words are those of VALUE. -/
theorem Chip.unloadTcam_value (c : Chip) (p v : Nat) (ws : List Nat) {w : Nat} (hw : w < 20) :
    (c.unloadTcam p (words20 v ++ ws)).get Fd.PIP_TCAM_STAGE_DATA p w = (words20 v).getD w 0 := by
  unfold Chip.unloadTcam
  rw [Chip.foldl_set_get, if_pos (by omega), List.getD_eq_getElem?_getD,
    List.getElem?_append_left (by rw [words20_length]; exact hw), ← List.getD_eq_getElem?_getD]
  exact words20_getD_mod v w

section
variable {c : Chip} {p layout ho row : Nat}

/-- WRITE leaves the staged row. -/
theorem tcamCmdComplete_write (hop : (c.pipe p).tcamOp = some (1, layout, ho, row)) : ∃ (r : TcamRow) (x : Flt),
    tcamCmdComplete p c =
      Chip.set { c.tcamIdle p with tcam := c.tcam.ins p row r, flt := x } Fd.PIP_TCAM_CMD_STATUS p 0 sDONE ∧
    r.valid = true ∧ r.layout = layout ∧ r.owner = ho % 32 ∧ r.value = c.stagedNum p 0 ∧ r.mask = c.stagedNum p 20 := by
  unfold tcamCmdComplete; rw [hop]
  exact ⟨_, _, rfl, rfl, rfl, rfl, rfl, rfl⟩

variable {r : TcamRow} (hr : c.tcam.find p row = some r)
include hr

theorem tcamCmdComplete_invalidate (hop : (c.pipe p).tcamOp = some (2, layout, ho, row)) : tcamCmdComplete p c =
    Chip.set { c.tcamIdle p with tcam := c.tcam.ins p row { r with valid := false } } Fd.PIP_TCAM_CMD_STATUS p 0 sDONE := by
  have hheld : (c.setPipe p { c.pipe p with tcamOp := none }).tcam.find p row = some r := hr
  unfold tcamCmdComplete; rw [hop]; dsimp only
  rw [hheld]; rfl

/-- READ of a row without a parity error copies it into the staging words. -/
theorem tcamCmdComplete_read (hop : (c.pipe p).tcamOp = some (3, layout, ho, row)) (herr : r.err = 0) : ∃ ws,
    tcamCmdComplete p c =
      ((c.tcamIdle p).unloadTcam p (words20 r.value ++ ws)).set Fd.PIP_TCAM_CMD_STATUS p 0 sDONE := by
  refine ⟨words20 r.mask ++ (c.tcamIdle p).actionOut (ho / 32) r.action, ?_⟩
  have hheld : (c.setPipe p { c.pipe p with tcamOp := none }).tcam.find p row = some r := hr
  unfold tcamCmdComplete; rw [hop]; dsimp only
  rw [hheld]; dsimp only
  rw [if_neg (by simp [herr]), List.append_assoc]; rfl

end

theorem exec_tcamCmdComplete {s : State} {p : Nat} {d : Chip} (he : tcamCmdComplete p s.chip = d) :
    exec (.tcamCmdComplete p) s = .next { s with chip := d } := by
  rw [← he]; rfl

/-- Settles O38: the equation of each start and each end, then what it leaves. -/
theorem tcamCommands : Obligations.TcamCommands := by
  unfold Obligations.TcamCommands
  intro s m h p layout owner row own
  refine ⟨fun hs ht => ?_, fun hlt => ?_⟩
  · have hstart := @tcamCmd_starts s.chip.rearm m h p layout owner own row ht rfl
    refine ⟨fun hquota hact => ?_, ?_, ?_⟩
    · obtain ⟨t, hx, hbusy, hrun, htcam⟩ :=
        State.slotWrite_tcamBusy hs (hstart (op := 1) (by decide) (fun _ => hact) (fun _ => hquota))
      refine ⟨t, hx, hbusy, hrun, ?_⟩
      rw [htcam, if_pos rfl, Chip.tcamHide_find, Option.all_map]
      cases (s.chip.rearm.tcamOperands p layout own row).tcam.find p row <;> rfl
    · exact State.slotWrite_tcamBusy (d := s.chip.rearm.tcamOperands p layout own row) hs
        (hstart (op := 2) (by decide) nofun nofun)
    · exact State.slotWrite_tcamBusy (d := s.chip.rearm.tcamOperands p layout own row) hs
        (hstart (op := 3) (by decide) nofun nofun)
  · refine ⟨fun hop => ?_, fun r hop hr => ?_, fun r hop hr herr => ?_⟩
    · obtain ⟨r, x, he, hvalid, hlayout, howner, hvalue, hmask⟩ := tcamCmdComplete_write hop
      refine ⟨_, exec_tcamCmdComplete he, Chip.get_set_same .., Chip.tcamIdle_op .., r, ?_, hvalid, hlayout,
        howner.trans (by omega), ?_, hmask⟩
      · simp
      · rw [hvalue]; unfold Chip.stagedNum; simp only [Nat.zero_add]
    · exact ⟨_, exec_tcamCmdComplete (tcamCmdComplete_invalidate hr hop), Chip.get_set_same .., by simp⟩
    · obtain ⟨ws, he⟩ := tcamCmdComplete_read hr hop herr
      refine ⟨_, exec_tcamCmdComplete he, Chip.get_set_same .., ?_, fun w hw => ?_⟩
      · dsimp only; rw [Chip.set_tcam, Chip.unloadTcam_tcam]; rfl
      · dsimp only; rw [Chip.get_set_ne (by decide), Chip.unloadTcam_value _ _ _ _ hw]

end Sys2Proof.Machine
end

section
/-! SUPPORT. A write that records nothing in the access log, the registers of a fault's event, and the bits of a number. -/

namespace Sys2Proof.Machine

/-! ## Writes that record nothing -/

/-- A write that reaches its register and records nothing leaves its effect, and nothing else. -/
theorem Chip.withWrite_unrecorded {c e : Chip} {m : Nat} {via : Option Nat} {r : R} {i j : Nat} {k : Bool → Chip → Chip}
    (hs : c.serves m via r i j = true) (he : k (c.bus.kgOpen && r.guarded) c.rearm = e)
    (hv : e.get Fd.GLB_ACCESS_ERR_VALID 0 0 = c.get Fd.GLB_ACCESS_ERR_VALID 0 0) : c.withWrite m via r i j k = e := by
  rw [Chip.withWrite_serves hs, Chip.logAs_unrecorded (c := c.rearm) (by rw [he, hv]; rfl), he]

section
variable {s : State} {e : Chip} {m h : Nat} {r : R} {i j : Nat} {k : Bool → Chip → Chip}
  (he : k (s.chip.bus.kgOpen && r.guarded) s.chip.rearm = e)
  (hv : e.get Fd.GLB_ACCESS_ERR_VALID 0 0 = s.chip.get Fd.GLB_ACCESS_ERR_VALID 0 0)
include he hv

theorem State.regWrite_unrecorded (hs : s.chip.serves m (viaOf m) r i j = true) :
    s.regWrite m r i j k = .next { s with chip := e } := by
  unfold State.regWrite State.onChip; dsimp only; rw [Chip.withWrite_unrecorded hs he hv]

theorem State.slotWrite_unrecorded (hs : s.chip.serves m (slotVia m h) r i j = true) :
    s.slotWrite m h r i j k = .next { s with chip := e } := by
  unfold State.slotWrite State.onChip; dsimp only; rw [Chip.withWrite_unrecorded hs he hv]

end

/-! ## The registers of a fault's event -/

/-- The registers that a fault's event may write (R420, R421, R425). -/
def R.isFaultLog (r : R) : Bool := decide (r = .FLT_STATUS ∨ r = .FLT_EVT_CNT ∨ r = .FLT_HIST_STATUS)

section
variable {c : Chip} {f i j : Nat} {g : F} (h : g.r.isFaultLog = false)
include h

theorem Chip.set_get_of_isFaultLog (q : F) (hq : q.r.isFaultLog = true) (x y v : Nat) : (c.set q x y v).get g i j = c.get g i j :=
  Chip.get_set_ne (by rintro rfl; simp [hq] at h)

theorem Chip.histEntry_get (u d : Nat) : (c.histEntry f u d).get g i j = c.get g i j := by
  have hcount : (c.cntSat Fd.FLT_HIST_STATUS_OVERWRITTEN 0 0 1).get g i j = c.get g i j := Chip.set_get_of_isFaultLog h _ rfl ..
  unfold Chip.histEntry; split
  · rfl
  · dsimp only
    rw [Chip.set_get_of_isFaultLog h Fd.FLT_HIST_STATUS_NEWEST rfl]
    exact (apply_ite (Chip.get · g i j) ..).trans (by rw [hcount, ite_self])

theorem Chip.latchFault_get : (c.latchFault f).get g i j = c.get g i j := by
  have hlatch : ((c.cntSat Fd.FLT_EVT_CNT_COUNT f 0 1).set Fd.FLT_STATUS_STATUS 0 0
      (setBit (c.get Fd.FLT_STATUS_STATUS 0 0) f true)).get g i j = c.get g i j := by
    rw [Chip.set_get_of_isFaultLog h Fd.FLT_STATUS_STATUS rfl]; exact Chip.set_get_of_isFaultLog h _ rfl ..
  unfold Chip.latchFault; dsimp only
  (repeat' split)
  · rfl
  all_goals exact hlatch

theorem Chip.raise_get (u : Nat) : (c.raise f u).get g i j = c.get g i j := by
  unfold Chip.raise Chip.raiseD; dsimp only; split
  · rfl
  · rw [Chip.latchFault_get h]; split
    · exact Chip.histEntry_get h u 0
    · rfl

end

/-! ## Bits -/

theorem bitOf_eq_testBit (v k : Nat) : bitOf v k = v.testBit k := (Nat.testBit_eq_decide_div_mod_eq ..).symm

/-- A power of two added where its bit is clear carries nowhere. -/
theorem testBit_add_two_pow {v q p : Nat} (hq : v.testBit q = false) (hp : p ≠ q) : (v + 2 ^ q).testBit p = v.testBit p := by
  rcases Nat.lt_or_gt_of_ne hp with hlt | hgt
  · rw [Nat.add_comm, Nat.testBit_two_pow_add_gt hlt]
  · obtain ⟨d, rfl⟩ := Nat.exists_eq_add_of_lt hgt
    have hhigh : (v + 2 ^ q) / 2 ^ (q + 1) = v / 2 ^ (q + 1) := by
      have heven : v / 2 ^ q % 2 ≠ 1 := by simpa [Nat.testBit_eq_decide_div_mod_eq] using hq
      rw [Nat.pow_succ, ← Nat.div_div_eq_div_mul, ← Nat.div_div_eq_div_mul, Nat.add_div_right _ (Nat.two_pow_pos q)]
      omega
    rw [show q + d + 1 = d + (q + 1) by omega, ← Nat.testBit_div_two_pow, hhigh, Nat.testBit_div_two_pow]

/-- A bit that is set, read back with the others. -/
theorem bitOf_setBit (v q p : Nat) : bitOf (setBit v q true) p = (decide (p = q) || bitOf v p) := by
  simp only [bitOf_eq_testBit, setBit, if_true]
  by_cases hq : v.testBit q = true
  · rw [if_pos hq, Nat.sub_add_cancel (Nat.ge_two_pow_of_testBit hq)]
    by_cases hp : p = q <;> simp [hp, hq]
  · rw [if_neg hq]
    have hq : v.testBit q = false := Bool.eq_false_iff.mpr hq
    by_cases hp : p = q
    · rw [hp, Nat.add_comm, Nat.testBit_two_pow_add_eq]; simp [hq]
    · rw [testBit_add_two_pow hq hp]; simp [hp]

/-- The width of a register drops no bit within it. -/
theorem bitOf_mod_two_pow {w p : Nat} (h : p < w) (v : Nat) : bitOf (v % 2 ^ w) p = bitOf v p := by
  simp [bitOf_eq_testBit, Nat.testBit_mod_two_pow, h]

end Sys2Proof.Machine
end

section
/-! OBLIGATION O49: pair roles, supervision frames, bank retirement and the mirror seed. -/

namespace Sys2Proof.Machine

/-! ## Pair roles (R227) -/

/-- The chip after a SET of pair `k` that passes its checks. -/
def Chip.roleSet (c : Chip) (k : Nat) : Chip :=
  ((c.set Fd.RED_ROLE_CMD_PAIR 0 0 k).pairSet k).set Fd.RED_ROLE_CMD_STATUS 0 0 sDONE

/-- The chip after a CLEAR of pair `k` that passes its checks. -/
def Chip.roleClear (c : Chip) (k : Nat) : Chip :=
  ((c.set Fd.RED_ROLE_CMD_PAIR 0 0 k).pairClear k).set Fd.RED_ROLE_CMD_STATUS 0 0 sDONE

theorem Chip.pairClear_outside {c : Chip} {w : Footprint} {o : Chip} (hfld : w.fld = true) (htbl : w.tbl = true)
    (hecc : w.tblEcc = true) (hhall : w.tblHall = true) (k : Nat) : (c.pairClear k).outside w o = c.outside w o := by
  unfold Chip.pairClear; dsimp only
  rw [Chip.outside_foldl (by simp [hfld]), Chip.outside_foldl]
  · simp [hfld]
  · intro c i; simp [*]

theorem Chip.roleSet_within (k : Nat) : Within { fld := true } (Chip.roleSet · k) := fun c o => by
  simp [Chip.roleSet, Chip.pairSet]

theorem Chip.roleClear_within (k : Nat) :
    Within { fld := true, tbl := true, tblEcc := true, tblHall := true } (Chip.roleClear · k) := fun c o => by
  simp [Chip.roleClear, Chip.pairClear_outside]

/-- A write of one field leaves equal what was equal. -/
theorem Chip.get_set_congr {c d : Chip} {f g : F} {i j v x y : Nat} (h : c.get g x y = d.get g x y) :
    (c.set f i j v).get g x y = (d.set f i j v).get g x y := by
  rw [Chip.get_set, Chip.get_set, h]

section
variable {c : Chip} {k i j : Nat} {g : F} (hcmd : g.r ≠ .RED_ROLE_CMD) (h : g ≠ Fd.PRT_PARSE_CTRL_TRAILER)
include hcmd h

/-- Beside ACTIVE and its own register a SET writes only the trailer fields of the pair's ports. -/
theorem Chip.roleSet_get : (c.roleSet k).get g i j = (c.set Fd.RED_PAIR_CFG_ACTIVE k 0 1).get g i j := by
  have hpair : (c.roleSet k).get g i j = ((c.set Fd.RED_ROLE_CMD_PAIR 0 0 k).set Fd.RED_PAIR_CFG_ACTIVE k 0 1).get g i j := by
    unfold Chip.roleSet Chip.pairSet; dsimp only
    rw [Chip.get_set_reg (.inl hcmd)]; split
    · rw [Chip.get_set_ne h, Chip.get_set_ne h]
    · rfl
  exact hpair.trans (Chip.get_set_congr (Chip.get_set_reg (.inl hcmd)))

/-- A CLEAR writes QUAD_EN of other pairs as well. -/
theorem Chip.roleClear_get (hq : g ≠ Fd.RED_PAIR_CFG_QUAD_EN) :
    (c.roleClear k).get g i j = (c.set Fd.RED_PAIR_CFG_ACTIVE k 0 0).get g i j := by
  have hpair : (c.roleClear k).get g i j = ((c.set Fd.RED_ROLE_CMD_PAIR 0 0 k).set Fd.RED_PAIR_CFG_ACTIVE k 0 0).get g i j := by
    unfold Chip.roleClear Chip.pairClear; dsimp only
    rw [Chip.get_set_reg (.inl hcmd), foldl_keep (Chip.get · g i j) _ (fun _ _ => Chip.get_set_ne hq),
      foldl_keep (Chip.get · g i j) _ (fun _ _ => by split <;> rfl)]
    split
    · rw [Chip.get_set_ne h, Chip.get_set_ne h]
    · rfl
  exact hpair.trans (Chip.get_set_congr (Chip.get_set_reg (.inl hcmd)))

end

theorem Chip.roleSet_active (c : Chip) (k : Nat) : (c.roleSet k).pairActive k = true := by
  unfold Chip.pairActive Chip.flag
  rw [Chip.roleSet_get (by decide) (by decide), Chip.get_set_same]; rfl

theorem Chip.roleClear_active (c : Chip) (k : Nat) : (c.roleClear k).pairActive k = false := by
  unfold Chip.pairActive Chip.flag
  rw [Chip.roleClear_get (by decide) (by decide) (by decide), Chip.get_set_same]; rfl

/-- A PRP pair's ports have their trailers read. -/
theorem Chip.roleSet_trailer {c : Chip} {k : Nat} (h : c.pairRole k = 1) :
    (c.roleSet k).flag Fd.PRT_PARSE_CTRL_TRAILER (c.pairA k) 0 = true ∧
      (c.roleSet k).flag Fd.PRT_PARSE_CTRL_TRAILER (c.pairB k) 0 = true := by
  have hrole : (c.set Fd.RED_ROLE_CMD_PAIR 0 0 k).pairRole k = 1 := (Chip.get_set_ne (by decide)).trans h
  have ha : (c.set Fd.RED_ROLE_CMD_PAIR 0 0 k).pairA k = c.pairA k := Chip.get_set_ne (by decide)
  have hb : (c.set Fd.RED_ROLE_CMD_PAIR 0 0 k).pairB k = c.pairB k := Chip.get_set_ne (by decide)
  unfold Chip.roleSet Chip.pairSet Chip.flag; dsimp only
  rw [if_pos hrole, ha, hb]
  simp [F.width]

section
variable {c : Chip} {m k : Nat} (hbusy : c.get Fd.RED_ROLE_CMD_STATUS 0 0 ≠ sBUSY) (hpriv : c.priv m = true) (hk : k < 48)
  (hfa : c.isFenced 0 (c.pairA k) = false) (hfb : c.isFenced 0 (c.pairB k) = false)
  (hsa : c.stopped 0 (c.pairA k) = true) (hsb : c.stopped 0 (c.pairB k) = true)
include hbusy hpriv hk hfa hfb hsa hsb

/-- SET of an inactive pair whose ports pass. -/
theorem roleCmd_sets (ha : c.pairA k < 96) (hb : c.pairB k < 96) (hoff : c.pairActive k = false)
    (hrole : c.pairRole k = 1 ∨ c.pairRole k = 2) (hne : c.pairA k ≠ c.pairB k)
    (hsplit : c.pairSplit (c.pairA k) (c.pairB k) = false) (hta : c.pairOf (c.pairA k) = none)
    (htb : c.pairOf (c.pairB k) = none) (hquad : c.quadBad k = false) (hga : c.stairOf (c.pairA k) = none)
    (hgb : c.stairOf (c.pairB k) = none) : roleCmd m 1 k c = c.roleSet k := by
  have hargs : ¬(c.pairRole k = 0 ∨ c.pairRole k = 3 ∨ c.pairA k = c.pairB k) := by omega
  unfold roleCmd; dsimp only
  rw [Chip.command_starts hbusy, if_pos rfl]
  · rfl
  · simp [firstFail, hpriv, hk, ha, hb, hfa, hfb, hsa, hsb, hoff, hsplit, hta, htb, hquad, hga, hgb, hargs]

/-- CLEAR of an active pair. -/
theorem roleCmd_clears (hon : c.pairActive k = true) : roleCmd m 2 k c = c.roleClear k := by
  unfold roleCmd; dsimp only
  rw [Chip.command_starts hbusy, if_neg (by decide)]
  · rfl
  · simp [firstFail, hpriv, hk, hfa, hfb, hsa, hsb, hon]

end

/-! ## Bank retirement (R252) -/

/-- The free cells that a retirement of bank `b` takes off the free lists: the donors of its group that no frame holds. -/
def Chip.freeDonors (c : Chip) (b : Nat) : Nat :=
  6144 - (c.cellsHeld.filter (fun x => decide (x % 16 = b / 4 ∧ x / 16 % 4 = 3 - c.retiredIn (b / 4)))).length

/-- Frame `f` has a cell of bank `b`'s group. -/
def Frame.inGroup (b : Nat) (f : Frame) : Bool := f.cells.any (fun x => decide (x % 16 = b / 4))

section
variable {c : Chip} {b : Nat} (h : c.bankRetired b = false)
include h

/-- The registers after a retirement: the bank map and the count of free cells; the event writes those of the fault collector. -/
theorem Chip.retireBank_get {g : F} {i j : Nat} (hg : g.r.isFaultLog = false) :
    (c.retireBank b).get g i j = ((c.set Fd.ATR_BANK_MAP_MAP (b / 32) 0
      (setBit (c.get Fd.ATR_BANK_MAP_MAP (b / 32) 0) (b % 32) true)).set Fd.ATR_STATUS_FREE 0 0
        (c.atrFree - c.freeDonors b)).get g i j := by
  unfold Chip.retireBank; dsimp only
  rw [if_neg (by simp [h]), Chip.raise_get hg]
  unfold Chip.atrFree
  rw [Chip.get_set_ne (c := c) (by decide)]
  rfl

theorem Chip.retireBank_retired : (c.retireBank b).bankRetired b = true := by
  unfold Chip.bankRetired
  rw [Chip.retireBank_get h rfl, Chip.get_set_ne (by decide), Chip.get_set_same]
  exact (bitOf_mod_two_pow (w := 32) (Nat.mod_lt _ (by decide)) _).trans ((bitOf_setBit ..).trans (by simp))

theorem Chip.retireBank_free : (c.retireBank b).atrFree = c.atrFree - c.freeDonors b := by
  refine (Chip.retireBank_get h rfl).trans ((Chip.get_set_same ..).trans (Nat.mod_eq_of_lt ?_))
  exact Nat.lt_of_le_of_lt (Nat.sub_le ..) (Chip.get_lt ..)

theorem Chip.retireBank_frames : (c.retireBank b).atr.frames =
    c.atr.frames.map (fun e => (e.1, if e.2.inGroup b then { e.2 with marked := true } else e.2)) := by
  unfold Chip.retireBank; dsimp only
  rw [if_neg (by simp [h]), Chip.atr_blind.raise (fun _ _ => rfl)]
  rfl

/-- Every frame with a cell of the group is marked. -/
theorem Chip.retireBank_marks : ∀ f ∈ (c.retireBank b).atr.frames, f.2.inGroup b = true → f.2.marked = true := by
  rw [Chip.retireBank_frames h]
  intro f hf hin
  obtain ⟨e, -, rfl⟩ := List.mem_map.mp hf
  dsimp only at hin ⊢
  split at hin
  · next hg => rw [if_pos hg]
  · next hg => exact absurd hin hg

end

section
variable {c : Chip} {m b : Nat} (hbusy : c.get Fd.ATR_BANK_CMD_STATUS 0 0 ≠ sBUSY) (hb : b < 64)
include hbusy hb

/-- RETIRE of a bank in service. -/
theorem bankCmd_retires (h : c.bankRetired b = false) :
    bankCmd m 1 b c = ((c.set Fd.ATR_BANK_CMD_BANK 0 0 b).retireBank b).set Fd.ATR_BANK_CMD_STATUS 0 0 sDONE := by
  unfold bankCmd; dsimp only
  rw [Nat.mod_eq_of_lt hb, Chip.command_starts hbusy (by simp [firstFail, h])]
  rfl

/-- RETIRE of a bank that is retired already. -/
theorem bankCmd_refuses (h : c.bankRetired b = true) :
    bankCmd m 1 b c = (c.set Fd.ATR_BANK_CMD_BANK 0 0 b).outcome Fd.ATR_BANK_CMD_STATUS 0 0 sSTATE := by
  unfold bankCmd; dsimp only
  rw [Nat.mod_eq_of_lt hb, Chip.command_rejects hbusy (firstFail_hit h)]

end

/-- The operand of the command leaves the bank map. -/
theorem Chip.set_bankRetired {c : Chip} {f : F} {i j v : Nat} (h : Fd.ATR_BANK_MAP_MAP ≠ f) (b : Nat) :
    (c.set f i j v).bankRetired b = c.bankRetired b := by
  unfold Chip.bankRetired; rw [Chip.get_set_ne h]

theorem Chip.set_freeDonors {c : Chip} {f : F} {i j v : Nat} (h : Fd.ATR_BANK_MAP_MAP ≠ f) (b : Nat) :
    (c.set f i j v).freeDonors b = c.freeDonors b := by
  unfold Chip.freeDonors Chip.retiredIn; simp only [Chip.set_bankRetired h]; rfl

/-! ## The mirror seed (R270) -/

/-- The sessions 1 to `n` with the seed in their LFSRs. -/
def Chip.seedSessions (c : Chip) (n x : Nat) : Chip :=
  (List.range n).foldl (fun (c : Chip) s => c.setMir (s + 1) { c.mirRt (s + 1) with lfsr := x }) c

theorem Chip.setMir_mirRt (c : Chip) (s : Nat) (r : MirRt) (k : Nat) : (c.setMir s r).mirRt k = if k = s then r else c.mirRt k :=
  NMap.get_put ..

theorem Chip.seedSessions_lfsr (c : Chip) (x : Nat) {n k : Nat} (h1 : 1 ≤ k) (hn : k ≤ n) :
    ((c.seedSessions n x).mirRt k).lfsr = x := by
  induction n with
  | zero => omega
  | succ n ih =>
    unfold Chip.seedSessions at ih ⊢
    rw [List.range_succ, List.foldl_append, List.foldl_cons, List.foldl_nil, Chip.setMir_mirRt]
    split
    · rfl
    · exact ih (by omega)

theorem Chip.seedSessions_frames (c : Chip) (n x : Nat) : (c.seedSessions n x).atr.frames = c.atr.frames :=
  foldl_keep (fun c : Chip => c.atr.frames) (fun (c : Chip) s => c.setMir (s + 1) { c.mirRt (s + 1) with lfsr := x })
    (fun _ _ => rfl) (List.range n) c

theorem Chip.seedSessions_get (c : Chip) (n x : Nat) (g : F) (i j : Nat) : (c.seedSessions n x).get g i j = c.get g i j :=
  foldl_keep (Chip.get · g i j) (fun (c : Chip) s => c.setMir (s + 1) { c.mirRt (s + 1) with lfsr := x })
    (fun _ _ => rfl) (List.range n) c

/-- A write of the seed by a master that may. -/
theorem mirSeedWrite_priv {c : Chip} {m v : Nat} (h : c.priv m = true) (kg : Bool) (hv : v < 2 ^ 32) :
    mirSeedWrite m kg v c = (c.set Fd.ATR_MIR_SEED_SEED 0 0 v).seedSessions 15 v := by
  have hbits : bits 31 0 v = v := by unfold bits; rw [Nat.pow_zero, Nat.div_one]; exact Nat.mod_eq_of_lt hv
  have hplain : c.plainWrite m kg .ATR_MIR_SEED 0 0 v = c.set Fd.ATR_MIR_SEED_SEED 0 0 v := by
    simp [Chip.plainWrite, R.rows, writeField, refusedValue, h, hbits]
  unfold mirSeedWrite; dsimp only
  rw [hplain, if_pos h, Nat.mod_eq_of_lt hv]; rfl

/-! ## The commands -/

/-- Settles O49: the equation of each command, then what it leaves. -/
theorem redundancyAndBankCommands : Obligations.RedundancyAndBankCommands := by
  unfold Obligations.RedundancyAndBankCommands
  refine ⟨fun s m k hs hbusy hpriv hk ha hb hfa hfb hsa hsb =>
      ⟨fun hoff hrole hne hsplit hta htb hquad hga hgb => ?_, fun hon => ?_⟩,
    fun s k i ws hon => ⟨?_, fun hproxy hent hvalid hkind hpair => ?_⟩,
    fun s m b hs hkg hbusy hb => ⟨fun hin => ?_, fun hout => ?_⟩, fun s m k v hs hpriv h1 h15 => ?_⟩
  · have he := roleCmd_sets (c := s.chip.rearm) (m := m) hbusy hpriv hk hfa hfb hsa hsb ha hb hoff hrole hne hsplit hta htb hquad
      hga hgb
    have hw := Chip.roleSet_within k s.chip.rearm
    refine ⟨_, State.regWrite_unrecorded (k := fun _ => roleCmd m 1 k) he ?_ hs, Chip.roleSet_active .., Chip.get_set_same ..,
      (Chip.tbl_of_outside hw rfl :), (Chip.atr_of_outside hw rfl :), (Chip.ports_of_outside hw rfl :),
      Chip.roleSet_trailer (c := s.chip.rearm)⟩
    exact (Chip.roleSet_get (by decide) (by decide)).trans (Chip.get_set_ne (by decide))
  · have he := roleCmd_clears (c := s.chip.rearm) (m := m) hbusy hpriv hk hfa hfb hsa hsb hon
    have hw := Chip.roleClear_within k s.chip.rearm
    refine ⟨_, State.regWrite_unrecorded (k := fun _ => roleCmd m 2 k) he ?_ hs, Chip.roleClear_active .., Chip.get_set_same ..,
      (Chip.atr_of_outside hw rfl :), (Chip.ports_of_outside hw rfl :)⟩
    exact (Chip.roleClear_get (by decide) (by decide) (by decide)).trans (Chip.get_set_ne (by decide))
  · exact ⟨_, rfl, if_neg (by simp [hon])⟩
  · refine ⟨_, rfl, ?_⟩
    rw [State.onChip_chip]; unfold proxySupTx
    rw [if_neg (by simp [hon, hproxy]), hent]
    exact if_pos ⟨hvalid, hkind, hpair⟩
  · have he := bankCmd_retires (c := s.chip.rearm) (m := m) hbusy hb hin
    have hin' : (s.chip.rearm.set Fd.ATR_BANK_CMD_BANK 0 0 b).bankRetired b = false := (Chip.set_bankRetired (by decide) b).trans hin
    refine ⟨_, State.regWrite_unrecorded (k := fun kg c => if kg then bankCmd m 1 b c else c.kgRefuse m .ATR_BANK_CMD 0 0)
      ((if_pos (by rw [hkg]; rfl)).trans he) ?_ hs, ?_, Chip.get_set_same .., ?_, Chip.retireBank_marks hin'⟩
    · rw [Chip.get_set_ne (by decide), Chip.retireBank_get hin' rfl, Chip.get_set_ne (by decide), Chip.get_set_ne (by decide),
        Chip.get_set_ne (by decide)]; rfl
    · exact (Chip.set_bankRetired (by decide) b).trans (Chip.retireBank_retired hin')
    · refine (Chip.get_set_ne (by decide)).trans ((Chip.retireBank_free hin').trans ?_)
      rw [Chip.set_freeDonors (by decide)]
      exact congrArg (· - s.chip.freeDonors b) (Chip.get_set_ne (by decide))
  · have he := bankCmd_refuses (c := s.chip.rearm) (m := m) hbusy hb hout
    refine ⟨_, State.regWrite_unrecorded (k := fun kg c => if kg then bankCmd m 1 b c else c.kgRefuse m .ATR_BANK_CMD 0 0)
      ((if_pos (by rw [hkg]; rfl)).trans he) ?_ hs, Chip.outcome_status .., Chip.atr_blind.outcome .., ?_⟩
    · rw [Chip.outcome_get (by decide) (by decide), Chip.get_set_ne (by decide)]; rfl
    · exact (Chip.outcome_get (by decide) (by decide)).trans (Chip.get_set_ne (by decide))
  · have he := mirSeedWrite_priv (c := s.chip.rearm) hpriv (s.chip.bus.kgOpen && R.guarded .ATR_MIR_SEED) v.isLt
    refine ⟨_, State.regWrite_unrecorded (k := fun kg => mirSeedWrite m kg v.toNat) he ?_ hs, Chip.seedSessions_lfsr _ _ h1 h15, ?_,
      Chip.seedSessions_frames ..⟩
    · rw [Chip.seedSessions_get, Chip.get_set_ne (by decide)]; rfl
    · rw [Chip.seedSessions_get, Chip.get_set_same]; exact Nat.mod_eq_of_lt v.isLt

end Sys2Proof.Machine
end

section
/-! SUPPORT. The entries of a sparse map one by one, and what the operations of the table engine leave of other entries. -/

namespace Sys2Proof.Machine

/-! ## Entries of a map -/

section
variable {K V : Type} [DecidableEq K]

theorem alErase_eq_filter (k : K) (m : List (K × V)) : alErase k m = m.filter (fun e => decide (e.1 ≠ k)) := by
  induction m with
  | nil => rfl
  | cons e m ih => by_cases he : e.1 = k <;> simp [alErase, he, ih]

omit [DecidableEq K] in
theorem mem_alInsert_of_mem {lt : K → K → Bool} {k : K} {v : V} {m : List (K × V)} {e : K × V} (h : e ∈ m) :
    e ∈ alInsert lt k v m := by
  induction m with
  | nil => cases h
  | cons b m ih =>
    unfold alInsert; split
    · exact List.mem_cons_of_mem _ h
    · rcases List.mem_cons.mp h with rfl | h
      · exact List.mem_cons_self
      · exact List.mem_cons_of_mem _ (ih h)

theorem mem_of_alFind {k : K} {v : V} {m : List (K × V)} (h : alFind k m = some v) : (k, v) ∈ m := by
  induction m with
  | nil => cases h
  | cons e m ih =>
    unfold alFind at h; split at h
    · next he => cases h; rw [← he]; exact List.mem_cons_self
    · exact List.mem_cons_of_mem _ (ih h)

theorem alFind_eq_none_of_not_mem {k : K} {m : List (K × V)} (h : k ∉ m.map (fun e => e.1)) : alFind k m = none := by
  cases hf : alFind k m with
  | none => rfl
  | some v => exact absurd (List.mem_map.mpr ⟨_, mem_of_alFind hf, rfl⟩) h

end

/-! ## Entries of a table -/

theorem Chip.mem_entries {c : Chip} {t i : Nat} {ws : List Nat} (h : c.entry t i = some ws) : i ∈ c.entries t := by
  unfold Chip.entries
  exact List.mem_map.mpr ⟨((t, i), ws), List.mem_filter.mpr ⟨mem_of_alFind h, by simp⟩, rfl⟩

theorem Chip.entry_of_tbl {c d : Chip} (h : d.tbl = c.tbl) (t i : Nat) : d.entry t i = c.entry t i := by
  unfold Chip.entry; rw [h]

theorem Chip.delEntry_entry (c : Chip) (t i x y : Nat) :
    (c.delEntry t i).entry x y = if x = t ∧ y = i then none else c.entry x y := PMap.find_del ..

theorem Chip.fdbEvt_entry (c : Chip) (k h t i : Nat) : (c.fdbEvt k h).entry t i = c.entry t i :=
  Chip.entry_of_tbl (Chip.tbl_of_outside (w := { fld := true, residue := true }) (fun _ => Chip.fdbEvt_outside rfl rfl k h) rfl) t i

theorem Chip.eccDiscard_entry (c : Chip) (t i x y : Nat) :
    (c.eccDiscard t i).entry x y = if x = t ∧ y = i then none else c.entry x y := by
  have hlog := Chip.tbl_of_outside (w := { fld := true, bus := true, flt := true })
    (c := (c.fdbEvt eINVAL (c.entryHall t i)).delEntry t i) (fun _ => Chip.raiseLogged_outside rfl rfl rfl fTABLE t) rfl
  refine (Chip.entry_of_tbl hlog x y).trans ?_
  rw [Chip.delEntry_entry, Chip.fdbEvt_entry]

/-- An update of one entry leaves the others. -/
theorem Chip.update_entry_other {c : Chip} {t i x y : Nat} (f : List Nat → List Nat) (h : ¬(x = t ∧ y = i)) :
    (c.update t i f).entry x y = c.entry x y := by
  have hins : ∀ ws, Chip.entry { c with tbl := c.tbl.ins t i ws } x y = c.entry x y := fun ws => by
    unfold Chip.entry; rw [PMap.find_ins, if_neg h]
  unfold Chip.update Chip.modify
  (repeat' split)
  · rfl
  · exact hins _
  · exact (Chip.fdbEvt_entry ..).trans (hins _)
  · exact (Chip.eccDiscard_entry ..).trans (if_neg h)

end Sys2Proof.Machine
end

section
/-! SUPPORT. The duplicate sweeper (R232). -/

namespace Sys2Proof.Machine

/-- How long the entry `ws` has been idle, in ms. -/
def Chip.dupIdle (c : Chip) (ws : List Nat) : Nat := (c.dupMs + 65536 - wb ws 2 15 0) % 65536

/-- A SOURCE or GENERATOR entry has been idle for longer than its time. -/
def Chip.dupExpired (c : Chip) (ws : List Nat) : Bool :=
  if dupKind ws = kSOURCE then decide (c.forgetMs < c.dupIdle ws)
  else decide (dupKind ws = kGENERATOR) && decide (c.genAgeMs < c.dupIdle ws)

/-- The sweeper visits entry `i` of DUP. -/
def Chip.sweepEntry (c : Chip) (i : Nat) : Chip :=
  let ws := (c.entry tDUP i).getD []
  if dupKind ws = kSOURCE then
    if c.forgetMs < c.dupIdle ws then (c.delEntry tDUP i).pairCnt (dupPair ws) rcFORGOTTEN else c
  else if dupKind ws = kGENERATOR then if c.genAgeMs < c.dupIdle ws then c.delEntry tDUP i else c
  else c

/-- The sweeper visits the window that entry `fi` of RECOVERY names. -/
def Chip.sweepWindow (c : Chip) (fi : Nat) : Chip :=
  let fn := (c.entry tRECOVERY fi).getD []
  let di := wb fn 1 16 0
  match (if c.srcRegion ≤ di then c.entry tDUP di else none) with
  | none => c
  | some ws =>
    if dupKind ws = kCBWINDOW ∧ !bitOf (ws.getD 5 0) 31 ∧ max 1 (min 60000 (wb fn 2 15 0)) < c.dupIdle ws then
      (c.update tDUP di (fun ws => wset ws 5 31 31 1)).update tRECOVERY fi (fun ws => wadd ws 10 1)
    else c

theorem dupSweepPass_sweeps {c : Chip} (hen : c.flag Fd.RED_DUP_CTRL_SWEEP_EN 0 0 = true) (hrun : c.running = true) :
    dupSweepPass c = (((c.entries tDUP).foldl Chip.sweepEntry c).entries tRECOVERY).foldl Chip.sweepWindow
      ((c.entries tDUP).foldl Chip.sweepEntry c) := by
  unfold dupSweepPass
  rw [if_neg (by simp [hen, hrun])]; rfl

/-- A visit deletes an entry that has expired, and counts one of the source region; any other it leaves. -/
theorem Chip.sweepEntry_cases (c : Chip) (i : Nat) :
    (c.dupExpired ((c.entry tDUP i).getD []) = true ∧
      (c.sweepEntry i = c.delEntry tDUP i ∨ ∃ k, c.sweepEntry i = (c.delEntry tDUP i).pairCnt k rcFORGOTTEN)) ∨
    (c.dupExpired ((c.entry tDUP i).getD []) = false ∧ c.sweepEntry i = c) := by
  unfold Chip.sweepEntry Chip.dupExpired; dsimp only
  generalize (c.entry tDUP i).getD [] = ws
  by_cases hs : dupKind ws = kSOURCE
  · simp only [if_pos hs]
    by_cases hx : c.forgetMs < c.dupIdle ws
    · exact .inl ⟨decide_eq_true hx, .inr ⟨_, if_pos hx⟩⟩
    · exact .inr ⟨decide_eq_false hx, if_neg hx⟩
  · simp only [if_neg hs]
    by_cases hg : dupKind ws = kGENERATOR
    · simp only [if_pos hg, decide_eq_true hg, Bool.true_and]
      by_cases hx : c.genAgeMs < c.dupIdle ws
      · exact .inl ⟨decide_eq_true hx, .inl (if_pos hx)⟩
      · exact .inr ⟨decide_eq_false hx, if_neg hx⟩
    · exact .inr ⟨by rw [decide_eq_false hg, Bool.false_and], if_neg hg⟩

/-- A visit leaves the times by which the entries are judged. -/
theorem Chip.sweepEntry_expired (c : Chip) (i : Nat) : (c.sweepEntry i).dupExpired = c.dupExpired := by
  rcases c.sweepEntry_cases i with ⟨-, he | ⟨k, he⟩⟩ | ⟨-, he⟩ <;> rw [he]
  · rfl
  · unfold Chip.pairCnt Chip.cntSat Chip.dupExpired Chip.forgetMs Chip.genAgeMs
    rw [Chip.get_set_ne (by decide), Chip.get_set_ne (by decide)]; rfl

/-- A visit deletes its own entry if that has expired, and leaves the others. -/
theorem Chip.sweepEntry_entry (c : Chip) (j i : Nat) :
    (c.sweepEntry j).entry tDUP i = if i = j then (c.entry tDUP i).filter (fun ws => !c.dupExpired ws) else c.entry tDUP i := by
  have hdel : (c.sweepEntry j).entry tDUP i =
      if i = j ∧ c.dupExpired ((c.entry tDUP j).getD []) = true then none else c.entry tDUP i := by
    rcases c.sweepEntry_cases j with ⟨hx, he | ⟨k, he⟩⟩ | ⟨hx, he⟩ <;> rw [he, hx]
    · simp [Chip.delEntry_entry]
    · exact (Chip.delEntry_entry ..).trans (by simp)
    · simp
  rw [hdel]
  by_cases hij : i = j
  · subst hij
    cases h : c.entry tDUP i with
    | none => simp
    | some ws => cases hx : c.dupExpired ws <;> simp [Option.filter_some, hx]
  · simp [hij]

/-- The visits of a list of entries, however often it names one. -/
theorem Chip.foldl_sweepEntry_entry (i : Nat) (l : List Nat) (c : Chip) :
    (l.foldl Chip.sweepEntry c).entry tDUP i =
      if i ∈ l then (c.entry tDUP i).filter (fun ws => !c.dupExpired ws) else c.entry tDUP i := by
  induction l generalizing c with
  | nil => simp
  | cons j l ih =>
    rw [List.foldl_cons, ih, Chip.sweepEntry_expired, Chip.sweepEntry_entry]
    by_cases hij : i = j
    · simp only [hij, List.mem_cons, true_or, if_true, Option.filter_filter, Bool.and_self, ite_self]
    · simp only [if_neg hij, List.mem_cons, or_iff_right hij]

/-- The visit of a window leaves an entry that is no window. -/
theorem Chip.sweepWindow_entry {c : Chip} {i : Nat} (h : ∀ ws, c.entry tDUP i = some ws → dupKind ws ≠ kCBWINDOW) (fi : Nat) :
    (c.sweepWindow fi).entry tDUP i = c.entry tDUP i := by
  unfold Chip.sweepWindow; dsimp only
  split
  · rfl
  · next ws hws =>
    split
    · next hwin =>
      have hdup : c.entry tDUP (wb ((c.entry tRECOVERY fi).getD []) 1 16 0) = some ws := by
        split at hws
        · exact hws
        · cases hws
      have hne : i ≠ wb ((c.entry tRECOVERY fi).getD []) 1 16 0 := by
        rintro rfl; exact h ws hdup hwin.1
      rw [Chip.update_entry_other _ (fun h => absurd h.1 (by decide)), Chip.update_entry_other _ (by simp [hne])]
    · rfl

/-- What the pass leaves of a SOURCE or GENERATOR entry. -/
theorem dupSweepPass_entry {c : Chip} {i : Nat} {ws : List Nat} (hen : c.flag Fd.RED_DUP_CTRL_SWEEP_EN 0 0 = true)
    (hrun : c.running = true) (h : c.entry tDUP i = some ws) (hkind : dupKind ws ≠ kCBWINDOW) :
    (dupSweepPass c).entry tDUP i = if c.dupExpired ws = true then none else some ws := by
  have hswept : ((c.entries tDUP).foldl Chip.sweepEntry c).entry tDUP i = if c.dupExpired ws = true then none else some ws := by
    rw [Chip.foldl_sweepEntry_entry, if_pos (Chip.mem_entries h), h]
    cases hx : c.dupExpired ws <;> simp [hx]
  rw [dupSweepPass_sweeps hen hrun]
  refine List.foldlRecOn (motive := fun d : Chip => d.entry tDUP i = if c.dupExpired ws = true then none else some ws) _ _ hswept
    (fun d hd fi _ => ?_)
  refine (Chip.sweepWindow_entry (fun ws' hws' => ?_) fi).trans hd
  rw [hd] at hws'
  split at hws'
  · cases hws'
  · cases hws'; exact hkind

end Sys2Proof.Machine
end

section
/-! SUPPORT. The ager (R209). -/

namespace Sys2Proof.Machine

/-- What a visit of the ager leaves of the entry `ws`. -/
def Chip.fdbAged (c : Chip) (ws : List Nat) : Option (List Nat) :=
  if fdbStatic ws = true ∨ c.hallState (fdbHall ws) = 3 then some ws
  else if bitOf (ws.getD 4 0) 31 then some (wset (wset ws 4 31 31 0) 4 2 0 0)
  else if 4 ≤ wb ws 4 2 0 + 1 then none else some (wset ws 4 2 0 (wb ws 4 2 0 + 1))

/-- No entry of FDB has an error. -/
def Chip.fdbClean (c : Chip) : Prop := ∀ k, c.tblEcc.get 0 tFDB k = 0

/-- FDB with the words `ws` in place of entry `j`. -/
def Chip.fdbPut (c : Chip) (j : Nat) (ws : List Nat) : Chip := { c with tbl := c.tbl.ins tFDB j ws }

/-- The chip after the visit of entry `j`. -/
def Chip.ageAt (c : Chip) (j : Nat) : Chip := (c.ageEntry j).2.2

theorem Chip.fdbPut_entry (c : Chip) (j : Nat) (ws : List Nat) (i : Nat) :
    (c.fdbPut j ws).entry tFDB i = if i = j then some ws else c.entry tFDB i := by
  unfold Chip.fdbPut Chip.entry; rw [PMap.find_ins]; simp

theorem Chip.tblEcc_of_outside {w : Footprint} {c d : Chip} (h : ∀ o, d.outside w o = c.outside w o) (hw : w.tblEcc = false) :
    d.tblEcc = c.tblEcc := by
  simpa [Chip.outside, hw] using congrArg Chip.tblEcc (h d)

theorem Chip.fdbEvt_hallState (c : Chip) (k h : Nat) : (c.fdbEvt k h).hallState = c.hallState := by
  have hget : ∀ (g : F) (i j : Nat), g ≠ Fd.TBL_FDB_EVT_COUNT → (c.fdbEvt k h).get g i j = c.get g i j := fun g i j hg => by
    have hstat : ∀ d : Chip, (d.stat 3 h k 1).get g i j = d.get g i j := fun d =>
      Chip.get_of_outside (w := { residue := true }) (fun _ => Chip.stat_outside rfl ..) rfl rfl rfl g i j
    exact (hstat _).trans (Chip.get_set_ne hg)
  have hsec := Chip.sec_of_outside (w := { fld := true, residue := true }) (c := c) (fun _ => Chip.fdbEvt_outside rfl rfl k h) rfl
  funext x
  simp (disch := decide) only [Chip.hallState, Chip.hallPresent, Chip.hallLimit, Chip.fuse, Chip.flag, hget, hsec]
  rfl

section
variable {c : Chip} (hclean : c.fdbClean)
include hclean

/-- An update of an entry without an error. -/
theorem Chip.modify_clean {j : Nat} {ws : List Nat} (h : c.entry tFDB j = some ws) (f : List Nat → List Nat) :
    c.modify tFDB j f = some (c.fdbPut j (f ws)) := by
  unfold Chip.modify; rw [h, hclean j]; rfl

/-- A visit leaves everything, or one entry with its age, or deletes that entry and counts. -/
theorem Chip.ageAt_cases (j : Nat) :
    (c.ageAt j = c ∧ ∀ ws, c.entry tFDB j = some ws → c.fdbAged ws = some ws) ∨
    (∃ ws new, c.entry tFDB j = some ws ∧ c.fdbAged ws = some new ∧ c.ageAt j = c.fdbPut j new) ∨
    (∃ ws gone h, c.entry tFDB j = some ws ∧ c.fdbAged ws = none ∧ c.ageAt j = ((c.fdbPut j gone).delEntry tFDB j).fdbEvt eAGED h) := by
  unfold Chip.ageAt Chip.ageEntry Chip.fdbAged; dsimp only
  cases h : c.entry tFDB j with
  | none => exact .inl ⟨rfl, nofun⟩
  | some ws =>
    dsimp only
    by_cases hstay : fdbStatic ws = true ∨ c.hallState (fdbHall ws) = 3
    · rw [if_pos (by simpa using hstay)]
      exact .inl ⟨rfl, fun ws' hws => by cases hws; exact if_pos hstay⟩
    rw [if_neg (by simpa using hstay)]
    refine .inr ?_
    by_cases hhit : bitOf (ws.getD 4 0) 31 = true
    · rw [if_pos hhit]
      refine .inl ⟨ws, _, rfl, (if_neg hstay).trans (if_pos hhit), ?_⟩
      unfold Chip.updateEcc Chip.update; rw [Chip.modify_clean hclean h]; rfl
    rw [if_neg hhit]
    by_cases hold : 4 ≤ wb ws 4 2 0 + 1
    · rw [if_pos hold]
      refine .inr ⟨ws, tblInvalid tFDB ws, fdbHall ws, rfl, ((if_neg hstay).trans (if_neg hhit)).trans (if_pos hold), ?_⟩
      unfold Chip.clearEntry; rw [Chip.modify_clean hclean h]; rfl
    · rw [if_neg hold]
      refine .inl ⟨ws, _, rfl, ((if_neg hstay).trans (if_neg hhit)).trans (if_neg hold), ?_⟩
      unfold Chip.updateEcc Chip.update; rw [Chip.modify_clean hclean h]; rfl

theorem Chip.ageAt_entry (j i : Nat) :
    (c.ageAt j).entry tFDB i = if i = j then (c.entry tFDB i).bind c.fdbAged else c.entry tFDB i := by
  rcases Chip.ageAt_cases hclean j with ⟨he, hold⟩ | ⟨ws, new, h, ha, he⟩ | ⟨ws, gone, hall, h, ha, he⟩ <;> rw [he]
  · split
    · next hij =>
      subst hij
      cases h : c.entry tFDB i with
      | none => rfl
      | some ws => exact (hold ws h).symm
    · rfl
  · rw [Chip.fdbPut_entry]
    split
    · next hij => subst hij; rw [h]; exact ha.symm
    · rfl
  · rw [Chip.fdbEvt_entry, Chip.delEntry_entry, Chip.fdbPut_entry]
    split
    · next hij => obtain ⟨-, rfl⟩ := hij; rw [if_pos rfl, h]; exact ha.symm
    · next hij => simp at hij; simp [hij]

theorem Chip.ageAt_clean (j : Nat) : (c.ageAt j).fdbClean := by
  rcases Chip.ageAt_cases hclean j with ⟨he, -⟩ | ⟨ws, new, -, -, he⟩ | ⟨ws, gone, hall, -, -, he⟩ <;> rw [he]
  · exact hclean
  · exact hclean
  · intro k
    have hecc := Chip.tblEcc_of_outside (w := { fld := true, residue := true }) (c := (c.fdbPut j gone).delEntry tFDB j)
      (fun _ => Chip.fdbEvt_outside rfl rfl eAGED hall) rfl
    have hdel : (c.tblEcc.del tFDB j).get 0 tFDB k = if tFDB = tFDB ∧ k = j then 0 else c.tblEcc.get 0 tFDB k :=
      (congrArg (Option.getD · 0) (PMap.find_del ..)).trans (apply_ite (Option.getD · 0) ..)
    rw [hecc]
    exact hdel.trans (by rw [hclean k, ite_self])

theorem Chip.ageAt_fdbAged (j : Nat) : (c.ageAt j).fdbAged = c.fdbAged := by
  have hstate : (c.ageAt j).hallState = c.hallState := by
    rcases Chip.ageAt_cases hclean j with ⟨he, -⟩ | ⟨ws, new, -, -, he⟩ | ⟨ws, gone, hall, -, -, he⟩ <;> rw [he]
    · rfl
    · exact Chip.fdbEvt_hallState ..
  unfold Chip.fdbAged; rw [hstate]

/-- The visits of a list of entries that names none twice. -/
theorem Chip.foldl_ageAt_entry (i : Nat) {l : List Nat} (hl : l.Nodup) :
    (l.foldl Chip.ageAt c).entry tFDB i = if i ∈ l then (c.entry tFDB i).bind c.fdbAged else c.entry tFDB i := by
  induction l generalizing c with
  | nil => simp
  | cons j l ih =>
    obtain ⟨hj, hl⟩ := List.nodup_cons.mp hl
    rw [List.foldl_cons, ih (Chip.ageAt_clean hclean j) hl, Chip.ageAt_fdbAged hclean, Chip.ageAt_entry hclean]
    by_cases hij : i = j
    · subst hij; simp [hj]
    · simp [hij]

end

/-- The counts beside a pass have no part in it. -/
theorem Chip.agePass_eq (c : Chip) : c.agePass.2.2 = (c.entries tFDB).foldl Chip.ageAt c :=
  (List.foldl_hom (fun a : Nat × Bool × Chip => a.2.2)
    (g₁ := fun a i => let r := a.2.2.ageEntry i; (a.1 + r.1, a.2.1 || r.2.1, r.2.2)) (g₂ := Chip.ageAt) (fun _ _ => rfl)).symm

section
variable {c : Chip} (hen : c.flag Fd.TBL_AGE_CTRL_ENABLE 0 0 = true) (hrun : c.running = true) (himg : c.imageOff = false)
  (hdue : c.agerNext ≤ c.ns)
include hen hrun himg hdue

/-- A pass that is due visits every entry, and sets when the next one is. -/
theorem agerPass_due : agerPass c = { (c.entries tFDB).foldl Chip.ageAt c with
    agerNext := c.agerAfter (if c.agerNext = 0 then c.ns else c.agerNext) } := by
  unfold agerPass
  rw [if_neg (by simp [hen, hrun, himg, hdue]), Chip.agePass_eq]

theorem agerPass_agerNext : (agerPass c).agerNext = c.agerAfter (if c.agerNext = 0 then c.ns else c.agerNext) := by
  rw [agerPass_due hen hrun himg hdue]

theorem agerPass_entry (hclean : c.fdbClean) (hnodup : (c.entries tFDB).Nodup) {i : Nat} {ws : List Nat}
    (h : c.entry tFDB i = some ws) : (agerPass c).entry tFDB i = c.fdbAged ws := by
  have htbl : (agerPass c).tbl = ((c.entries tFDB).foldl Chip.ageAt c).tbl := by rw [agerPass_due hen hrun himg hdue]
  rw [Chip.entry_of_tbl htbl, Chip.foldl_ageAt_entry hclean i hnodup, if_pos (Chip.mem_entries h), h, Option.bind_some]

end

end Sys2Proof.Machine
end

section
/-! SUPPORT. The counter reader (R438, R439). -/

namespace Sys2Proof.Machine

/-- The reader adds the residue `e` to its counter. -/
def Chip.readCounter (c : Chip) (e : (Nat × Nat) × Nat) : Chip :=
  let v := c.cnt.get 0 e.1.1 e.1.2 + e.2
  let c1 : Chip := { c with cnt := c.cnt.put 0 e.1.1 e.1.2 (v % 2 ^ 64), residue := c.residue.del e.1.1 e.1.2 }
  if 2 ^ 64 ≤ v then c1.set Fd.CNT_OVF_STATUS_POOLS 0 0 (setBit (c1.get Fd.CNT_OVF_STATUS_POOLS 0 0) e.1.1 true) else c1

theorem counterReaderPass_eq (c : Chip) : counterReaderPass c = c.residue.foldl Chip.readCounter c := rfl

section
variable (c : Chip) (e : (Nat × Nat) × Nat)

theorem Chip.readCounter_residue : (c.readCounter e).residue = c.residue.del e.1.1 e.1.2 := by
  unfold Chip.readCounter; dsimp only; split <;> rfl

theorem Chip.readCounter_cnt (p x : Nat) : (c.readCounter e).cnt.get 0 p x =
    if (p, x) = e.1 then (c.cnt.get 0 p x + e.2) % 2 ^ 64 else c.cnt.get 0 p x := by
  have hput : (c.readCounter e).cnt = c.cnt.put 0 e.1.1 e.1.2 ((c.cnt.get 0 e.1.1 e.1.2 + e.2) % 2 ^ 64) := by
    unfold Chip.readCounter; dsimp only; split <;> rfl
  rw [hput, PMap.get_put]
  by_cases h : (p, x) = e.1
  · rw [← h]; simp
  · rw [if_neg h, if_neg (fun hpx => h (Prod.ext hpx.1 hpx.2))]

/-- The bit of a pool, set when the counter wraps, and never cleared. -/
theorem Chip.readCounter_pools {p : Nat} (hp : p < 5) :
    bitOf ((c.readCounter e).get Fd.CNT_OVF_STATUS_POOLS 0 0) p =
      (decide (2 ^ 64 ≤ c.cnt.get 0 e.1.1 e.1.2 + e.2 ∧ p = e.1.1) || bitOf (c.get Fd.CNT_OVF_STATUS_POOLS 0 0) p) := by
  unfold Chip.readCounter; dsimp only
  split
  · next h =>
    rw [Chip.get_set_same]
    refine (bitOf_mod_two_pow (w := 5) hp _).trans ((bitOf_setBit ..).trans ?_)
    simp only [h, true_and]; rfl
  · next h => simp only [h, false_and, decide_false, Bool.false_or]; rfl

end

/-- The residues that the reader has gone over are gone. -/
theorem Chip.foldl_readCounter_residue (l : PMap Nat) (c : Chip) :
    ∀ e ∈ (l.foldl Chip.readCounter c).residue, e ∈ c.residue ∧ e.1 ∉ l.map (fun e => e.1) := by
  induction l generalizing c with
  | nil => simp
  | cons a l ih =>
    intro e he
    obtain ⟨hres, hl⟩ := ih (c.readCounter a) e he
    rw [Chip.readCounter_residue, PMap.del, alErase_eq_filter] at hres
    obtain ⟨hc, ha⟩ := List.mem_filter.mp hres
    exact ⟨hc, by simpa using ⟨of_decide_eq_true ha, by simpa using hl⟩⟩

theorem counterReaderPass_residue (c : Chip) : (counterReaderPass c).residue = [] := by
  rw [counterReaderPass_eq]
  refine List.eq_nil_iff_forall_not_mem.mpr fun e he => ?_
  obtain ⟨hc, hl⟩ := Chip.foldl_readCounter_residue c.residue c e he
  exact hl (List.mem_map.mpr ⟨e, hc, rfl⟩)

theorem PMap.find_cons {V : Type} (e : (Nat × Nat) × V) (l : PMap V) (p x : Nat) :
    PMap.find (e :: l) p x = if e.1 = (p, x) then some e.2 else PMap.find l p x := rfl

/-- A counter after the reader has gone over a list of residues that names none twice. -/
theorem Chip.foldl_readCounter_cnt (p x : Nat) {l : PMap Nat} (hl : (l.map (fun e => e.1)).Nodup) (c : Chip) :
    (l.foldl Chip.readCounter c).cnt.get 0 p x =
      ((l.find p x).map (fun n => (c.cnt.get 0 p x + n) % 2 ^ 64)).getD (c.cnt.get 0 p x) := by
  induction l generalizing c with
  | nil => rfl
  | cons e l ih =>
    obtain ⟨he, hl⟩ := List.nodup_cons.mp hl
    rw [List.foldl_cons, ih hl, Chip.readCounter_cnt, PMap.find_cons]
    by_cases h : (p, x) = e.1
    · have hnone : PMap.find l p x = none := alFind_eq_none_of_not_mem (by rw [h]; exact he)
      rw [if_pos h, if_pos h.symm, hnone]; rfl
    · rw [if_neg h, if_neg (Ne.symm h)]

/-- A counter that wraps sets the bit of its pool. -/
theorem Chip.foldl_readCounter_pools {p x n : Nat} (hp : p < 5) {l : PMap Nat} {c : Chip}
    (h : bitOf (c.get Fd.CNT_OVF_STATUS_POOLS 0 0) p = true ∨ (l.find p x = some n ∧ 2 ^ 64 ≤ c.cnt.get 0 p x + n)) :
    bitOf ((l.foldl Chip.readCounter c).get Fd.CNT_OVF_STATUS_POOLS 0 0) p = true := by
  induction l generalizing c with
  | nil => exact h.resolve_right nofun
  | cons e l ih =>
    refine ih ?_
    rw [Chip.readCounter_pools c e hp]
    rcases h with h | ⟨hf, hwrap⟩
    · exact .inl (by rw [h, Bool.or_true])
    · rw [PMap.find_cons] at hf
      split at hf
      · next he =>
        cases hf
        rw [he, decide_eq_true ⟨hwrap, rfl⟩, Bool.true_or]
        exact .inl rfl
      · next he => exact .inr ⟨hf, by rw [Chip.readCounter_cnt, if_neg (Ne.symm he)]; exact hwrap⟩

end Sys2Proof.Machine
end

section
/-! SUPPORT. Snapshots (R442, R443) and the event counters' control (R445). -/

namespace Sys2Proof.Machine

/-! ## The reader's turn -/

theorem Chip.host_of_outside {w : Footprint} {c d : Chip} (h : ∀ o, d.outside w o = c.outside w o) (hw : w.host = false) :
    d.host = c.host := by
  simpa [Chip.outside, hw] using congrArg Chip.host (h d)

theorem Chip.snapTurn_host (c : Chip) (h : Nat) : (c.snapTurn h).host = c.host :=
  Chip.host_of_outside (w := { snaps := true, cnt := true, residue := true }) (fun _ => Chip.snapTurn_outside rfl rfl rfl h) rfl

/-- A reader that serves a slot goes on with it. -/
theorem Chip.snapTurn_serving {c : Chip} (hs : c.snaps.any (fun e => e.2.bytes.isSome) = true) (h : Nat) : c.snapTurn h = c :=
  if_pos hs

/-- With no snapshot held the turn takes none. -/
theorem Chip.snapTurn_nil {c : Chip} (hs : c.snaps = []) (h : Nat) : c.snapTurn h = c := by
  have hnext : c.snapNext h = none := by
    unfold Chip.snapNext; rw [List.find?_eq_none, hs]; intro k _; simp [NMap.find, alFind]
  unfold Chip.snapTurn; rw [hnext, ite_self]

/-- The only snapshot held is the next, whatever slot the turn goes on from. -/
theorem Chip.snapNext_single {c : Chip} {k : Nat} {w : SnapJob} (hs : c.snaps = [(k, w)]) (hk : k < 32) (h : Nat) :
    c.snapNext h = some k := by
  have hheld : ∀ x, (c.snaps.find x).isSome = true ↔ x = k := fun x => by
    rw [hs]; unfold NMap.find alFind
    by_cases hx : k = x <;> simp [hx, alFind, eq_comm]
  cases hf : c.snapNext h with
  | some x => rw [(hheld x).mp (List.find?_some (p := fun k => (c.snaps.find k).isSome) hf)]
  | none =>
    refine absurd ((hheld k).mpr rfl) (List.find?_eq_none.mp hf k (List.mem_map.mpr ⟨(k + 31 * (h + 1)) % 32, ?_, ?_⟩))
    · exact List.mem_range.mpr (Nat.mod_lt _ (by decide))
    · omega

theorem NMap.find_single {V : Type} (k : Nat) (v : V) : NMap.find [(k, v)] k = some v := by simp [NMap.find, alFind]

theorem NMap.ins_single {V : Type} (k : Nat) (v w : V) : NMap.ins [(k, v)] k w = [(k, w)] := by
  simp [NMap.ins, alErase, alInsert]

/-- A snapshot that waits alone is taken; without CLEAR the counters stay. -/
theorem Chip.snapTurn_single {c : Chip} {k : Nat} {w : SnapJob} (hs : c.snaps = [(k, w)]) (hw : w.bytes = none) (hk : k < 32)
    (h : Nat) : (c.snapTurn h).snaps = [(k, { w with bytes := some (c.snapBytes k w.pool) })] ∧
      (w.clear = false → (c.snapTurn h).cnt = c.cnt ∧ (c.snapTurn h).residue = c.residue) := by
  have hfind : c.snaps.find k = some w := by rw [hs, NMap.find_single]
  have hturn : c.snapTurn h = c.snapStart k := by
    unfold Chip.snapTurn; rw [if_neg (by simp [hs, hw]), Chip.snapNext_single hs hk]
  rw [hturn]
  unfold Chip.snapStart; rw [hfind]; dsimp only
  rw [hs, NMap.ins_single]
  split
  · next hclear => exact ⟨rfl, fun hc => absurd hclear (by simp [hc])⟩
  · exact ⟨rfl, fun _ => ⟨rfl, rfl⟩⟩

/-- The turn leaves of a snapshot everything but its bytes. -/
theorem Chip.snapTurn_find {c : Chip} {k : Nat} {j : SnapJob} (hj : c.snaps.find k = some j) (h : Nat) :
    ∃ b, (c.snapTurn h).snaps.find k = some { j with bytes := b } := by
  have hstart : ∀ x, ∃ b, (c.snapStart x).snaps.find k = some { j with bytes := b } := fun x => by
    unfold Chip.snapStart
    cases hx : c.snaps.find x with
    | none => exact ⟨_, hj⟩
    | some w =>
      dsimp only
      have hins : ∃ b, (c.snaps.ins x { w with bytes := some (c.snapBytes x w.pool) }).find k = some { j with bytes := b } := by
        rw [NMap.find_ins]; split
        · next hk => subst hk; rw [hj] at hx; cases hx; exact ⟨_, rfl⟩
        · exact ⟨_, hj⟩
      split <;> exact hins
  unfold Chip.snapTurn
  split
  · exact ⟨_, hj⟩
  · split
    · exact ⟨_, hj⟩
    · exact hstart _

/-- A snapshot held beside a new one goes on being held. -/
theorem NMap.any_ins {V : Type} {m : NMap V} {k : Nat} {q : V → Bool} (h : m.any (fun e => decide (e.1 ≠ k) && q e.2) = true)
    (v : V) : (m.ins k v).any (fun e => q e.2) = true := by
  obtain ⟨e, he, hq⟩ := List.any_eq_true.mp h
  rw [Bool.and_eq_true] at hq
  refine List.any_eq_true.mpr ⟨e, mem_alInsert_of_mem ?_, hq.2⟩
  rw [alErase_eq_filter]
  exact List.mem_filter.mpr ⟨he, hq.1⟩

/-! ## The command -/

/-- The registers of a snapshot command after its operands. -/
def Chip.snapOperands (c : Chip) (h pool clear : Nat) : Chip :=
  let d := (c.set Fd.CNT_SNAP_CMD_POOL h 0 pool).set Fd.CNT_SNAP_CMD_CLEAR h 0 clear
  d.set Fd.CNT_SNAP_CMD_GEN h 0 (d.gen h)

/-- The snapshot that a command asks for. -/
def Chip.snapJob (c : Chip) (h pool : Nat) (clear : Bool) : SnapJob :=
  { gen := c.gen h, addr := c.snapAddr h, pool := pool, clear := clear, bytes := none }

/-- The chip with the snapshot `j` of slot `h` waiting. -/
def Chip.snapBusy (c : Chip) (h : Nat) (j : SnapJob) : Chip :=
  (({ c with snaps := c.snaps.ins h j }).set Fd.CNT_SNAP_RES_BYTES h 0 0).set Fd.CNT_SNAP_CMD_STATUS h 0 sBUSY

/-- The chip after a snapshot command that has room, before the reader's turn. -/
def Chip.snapHeld (c : Chip) (h pool : Nat) (clear : Bool) : Chip :=
  (c.snapOperands h pool (b2n clear)).snapBusy h (c.snapJob h pool clear)

theorem Chip.snapOperands_get {c : Chip} {h pool clear i j : Nat} {g : F} (hg : g.r ≠ .CNT_SNAP_CMD) :
    (c.snapOperands h pool clear).get g i j = c.get g i j := by
  unfold Chip.snapOperands; dsimp only; rw [Chip.get_set_reg (.inl hg), Chip.get_set_reg (.inl hg), Chip.get_set_reg (.inl hg)]

theorem Chip.snapBusy_snaps (c : Chip) (h : Nat) (j : SnapJob) : (c.snapBusy h j).snaps = c.snaps.ins h j := rfl

theorem Chip.snapOperands_snaps (c : Chip) (h pool clear : Nat) : (c.snapOperands h pool clear).snaps = c.snaps := rfl

theorem Chip.snapBusy_get {c : Chip} {h i j : Nat} {w : SnapJob} {g : F} (hcmd : g.r ≠ .CNT_SNAP_CMD)
    (hres : g ≠ Fd.CNT_SNAP_RES_BYTES) : (c.snapBusy h w).get g i j = c.get g i j := by
  unfold Chip.snapBusy
  rw [Chip.get_set_reg (.inl hcmd), Chip.get_set_ne hres]; rfl

section
variable {c : Chip} {h p : Nat} {clear : Bool}

theorem Chip.snapHeld_get {i j : Nat} {g : F} (hcmd : g.r ≠ .CNT_SNAP_CMD) (hres : g ≠ Fd.CNT_SNAP_RES_BYTES) :
    (c.snapHeld h p clear).get g i j = c.get g i j := by
  unfold Chip.snapHeld; rw [Chip.snapBusy_get hcmd hres, Chip.snapOperands_get hcmd]

theorem Chip.snapHeld_status : (c.snapHeld h p clear).get Fd.CNT_SNAP_CMD_STATUS h 0 = sBUSY := Chip.get_set_same ..

theorem Chip.snapHeld_host : (c.snapHeld h p clear).host = c.host := rfl
theorem Chip.snapHeld_cnt : (c.snapHeld h p clear).cnt = c.cnt := rfl
theorem Chip.snapHeld_residue : (c.snapHeld h p clear).residue = c.residue := rfl

theorem Chip.snapHeld_snaps : (c.snapHeld h p clear).snaps = c.snaps.ins h (c.snapJob h p clear) := by
  unfold Chip.snapHeld; rw [Chip.snapBusy_snaps, Chip.snapOperands_snaps]

theorem Chip.snapHeld_find : (c.snapHeld h p clear).snaps.find h = some (c.snapJob h p clear) := by
  rw [Chip.snapHeld_snaps, NMap.find_ins, if_pos rfl]

/-- With no other snapshot held, it alone is. -/
theorem Chip.snapHeld_alone (hc : c.snaps = []) : (c.snapHeld h p clear).snaps = [(h, c.snapJob h p clear)] := by
  rw [Chip.snapHeld_snaps, hc]; simp [NMap.ins, alErase, alInsert]

end

section
variable {c : Chip} {m h p : Nat} (hbusy : c.get Fd.CNT_SNAP_CMD_STATUS h 0 ≠ sBUSY) (hpriv : h = 0 → c.priv m = true)
  (hgen : c.genCurrent h = true) (hrun : c.stopped 5 h = false) (h5 : p ≠ 5) (h6 : p ≠ 6) (haddr : c.snapAddr h % 64 = 0)
include hbusy hpriv hgen hrun h5 h6 haddr

/-- A command that passes its checks: NO_SPACE, or the snapshot waits and the reader's turn goes on. -/
theorem snapCmd_accepted (clear : Bool) : snapCmd m h 1 p (b2n clear) c =
    if c.get Fd.CNT_SNAP_LEN_LEN h 0 < 64 + 8 * c.snapTotal h p then
      ((c.snapOperands h p (b2n clear)).set Fd.CNT_SNAP_RES_BYTES h 0 (64 + 8 * c.snapTotal h p)).set Fd.CNT_SNAP_CMD_STATUS h 0
        sNOSPACE
    else (c.snapHeld h p clear).snapTurn h := by
  have hnative : (decide (h = 0) && !c.priv m) = false := by
    by_cases h0 : h = 0 <;> simp [h0, hpriv]
  have hclear : decide (b2n clear ≠ 0) = clear := by cases clear <;> rfl
  have hjob : (c.snapOperands h p (b2n clear)).snapJob h p clear = c.snapJob h p clear := by
    unfold Chip.snapJob Chip.gen Chip.snapAddr
    rw [Chip.snapOperands_get (by decide), Chip.snapOperands_get (by decide), Chip.snapOperands_get (by decide)]
  have hlen : (c.snapOperands h p (b2n clear)).get Fd.CNT_SNAP_LEN_LEN h 0 = c.get Fd.CNT_SNAP_LEN_LEN h 0 :=
    Chip.snapOperands_get (by decide)
  unfold snapCmd; dsimp only
  rw [Chip.command_starts hbusy (by simp [firstFail, hnative, hgen, hrun, h5, h6, haddr])]
  change (if (c.snapOperands h p (b2n clear)).get Fd.CNT_SNAP_LEN_LEN h 0 < 64 + 8 * c.snapTotal h p then _
    else ((c.snapOperands h p (b2n clear)).snapBusy h ((c.snapOperands h p (b2n clear)).snapJob h p (decide (b2n clear ≠ 0)))).snapTurn h)
    = _
  rw [hclear, hjob, hlen]; rfl

variable {clear : Bool}

theorem snapCmd_holds (hroom : 64 + 8 * c.snapTotal h p ≤ c.get Fd.CNT_SNAP_LEN_LEN h 0) :
    snapCmd m h 1 p (b2n clear) c = (c.snapHeld h p clear).snapTurn h :=
  (snapCmd_accepted hbusy hpriv hgen hrun h5 h6 haddr clear).trans (if_neg (Nat.not_lt.mpr hroom))

theorem snapCmd_noSpace (hfull : c.get Fd.CNT_SNAP_LEN_LEN h 0 < 64 + 8 * c.snapTotal h p) : snapCmd m h 1 p (b2n clear) c =
    ((c.snapOperands h p (b2n clear)).set Fd.CNT_SNAP_RES_BYTES h 0 (64 + 8 * c.snapTotal h p)).set Fd.CNT_SNAP_CMD_STATUS h 0
      sNOSPACE :=
  (snapCmd_accepted hbusy hpriv hgen hrun h5 h6 haddr clear).trans (if_pos hfull)

end

/-- The end of a snapshot whose bytes the reader holds: they are in host memory, and the reader's turn goes on. -/
theorem snapComplete_ends {c : Chip} {h : Nat} {j : SnapJob} {bs : List Nat} (hj : c.snaps.find h = some j)
    (hb : j.bytes = some bs) (hlink : c.pins.linkUp = true) : snapComplete h c =
      Chip.snapTurn (Chip.set (Chip.set { c with snaps := c.snaps.del h, host := Mem.write hostBlank c.host j.addr bs }
        Fd.CNT_SNAP_RES_BYTES h 0 bs.length) Fd.CNT_SNAP_CMD_STATUS h 0 sDONE) h := by
  unfold snapComplete
  rw [hj, Option.bind_some, hb]
  exact if_neg (by simp [hlink])

/-- One that waits has no end yet. -/
theorem snapComplete_waits {c : Chip} {h : Nat} {j : SnapJob} (hj : c.snaps.find h = some j) (hb : j.bytes = none) :
    snapComplete h c = c := by
  unfold snapComplete
  rw [hj, Option.bind_some, hb]; rfl

/-! ## Event counters -/

theorem Chip.evcFrozen_lt (c : Chip) (b : Nat) : c.evcFrozen b < 2 := by
  unfold Chip.evcFrozen; split <;> exact Chip.get_lt ..

theorem Chip.set_evcFrozen_pipe (c : Chip) {b x : Nat} (hb : b < 4) (hx : x < 2) :
    (c.set Fd.PIP_EVC_CTRL_FREEZE b 0 x).evcFrozen b = x := by
  unfold Chip.evcFrozen; rw [if_pos hb, Chip.get_set_same]; exact Nat.mod_eq_of_lt hx

theorem Chip.set_evcFrozen_atrium (c : Chip) {x : Nat} (hx : x < 2) : (c.set Fd.ATR_EVC_CTRL_FREEZE 0 0 x).evcFrozen 4 = x := by
  unfold Chip.evcFrozen; rw [if_neg (by decide), Chip.get_set_same]; exact Nat.mod_eq_of_lt hx

/-- The value that CLEAR writes: FREEZE as it stands, and the bit that clears. -/
theorem evcClear_bits (c : Chip) (b : Nat) : (2 + c.evcFrozen b) % 2 = c.evcFrozen b ∧ bitOf (2 + c.evcFrozen b) 1 = true := by
  have hlt := c.evcFrozen_lt b
  refine ⟨by omega, decide_eq_true ?_⟩
  omega

theorem evcCtrlWrite_clears_pipe {c : Chip} {b : Nat} (hb : b < 4) : evcCtrlWrite b (2 + c.evcFrozen b) c =
    (c.set Fd.PIP_EVC_CTRL_FREEZE b 0 (c.evcFrozen b)).setPipe b { c.pipe b with evc := [], evcSince := [], slots := [] } := by
  obtain ⟨hfreeze, hclear⟩ := evcClear_bits c b
  unfold evcCtrlWrite
  rw [if_pos hb, hfreeze, if_pos hclear]; rfl

theorem evcCtrlWrite_clears_atrium (c : Chip) :
    evcCtrlWrite 4 (2 + c.evcFrozen 4) c = { c.set Fd.ATR_EVC_CTRL_FREEZE 0 0 (c.evcFrozen 4) with aevc := [] } := by
  obtain ⟨hfreeze, hclear⟩ := evcClear_bits c 4
  unfold evcCtrlWrite
  rw [if_neg (by decide), hfreeze, if_pos hclear]

theorem evcCtrlWrite_freezes_pipe {c : Chip} {b : Nat} (hb : b < 4) :
    evcCtrlWrite b 1 c = c.set Fd.PIP_EVC_CTRL_FREEZE b 0 1 := if_pos hb

end Sys2Proof.Machine
end

section
/-! OBLIGATION O33: the passes, snapshots, and the event counters' control. -/

namespace Sys2Proof.Machine

/-- A snapshot command that records nothing in the access log. -/
theorem exec_snap {s : State} {m h p : Nat} {clear : Bool} {d : Chip} (hp : p < 8)
    (hs : s.chip.serves m (slotVia m h) .CNT_SNAP_CMD h 0 = true) (he : snapCmd m h 1 p (b2n clear) s.chip.rearm = d)
    (hv : d.get Fd.GLB_ACCESS_ERR_VALID 0 0 = s.chip.get Fd.GLB_ACCESS_ERR_VALID 0 0) :
    exec (.snap m h p clear) s = .next { s with chip := d } := by
  refine State.slotWrite_unrecorded (k := fun _ => snapCmd m h 1 (p % 8) (b2n clear)) ?_ hv hs
  rw [Nat.mod_eq_of_lt hp, he]

/-- Settles O33: the equation of each event and command, then what it leaves. -/
theorem passesSnapshotsAndCounters : Obligations.PassesSnapshotsAndCounters := by
  unfold Obligations.PassesSnapshotsAndCounters
  refine ⟨fun s i ws => ⟨fun hen hrun hent hkind => ?_, fun hen hrun himg hdue hnodup hecc hent => ?_, fun hnodup => ?_⟩,
    fun s m h p clear hs hbusy hpriv hgen hrun hp h5 h6 haddr => ⟨fun hroom => ?_, fun hfull => ?_⟩,
    fun s h j bs hj hlink => ⟨fun hwait => ?_, fun hb hsnaps => ?_, fun k w hb hlt hk hw hsnaps => ?_⟩,
    fun s m b => ⟨fun hb hs => ⟨?_, ?_⟩, fun hs => ⟨?_, ?_⟩⟩⟩
  · have hwin : dupKind ws ≠ kCBWINDOW := by rcases hkind with h | h <;> rw [h] <;> decide
    refine ⟨_, rfl, (dupSweepPass_entry hen hrun hent hwin).trans ?_, (Chip.atr_of_outside (dupSweepPass_within s.chip) rfl :)⟩
    unfold Chip.dupExpired Chip.dupIdle
    rcases hkind with h | h <;> simp [h, kSOURCE, kGENERATOR]
  · exact ⟨_, rfl, agerPass_agerNext hen hrun himg hdue, agerPass_entry hen hrun himg hdue hecc hnodup hent⟩
  · refine ⟨_, rfl, counterReaderPass_residue s.chip, ?_⟩
    rw [State.onChip_chip, counterReaderPass_eq]
    refine ⟨fun p x => ?_, fun p x n hp hf hwrap => ?_⟩
    · refine (Chip.foldl_readCounter_cnt p x hnodup s.chip).trans ?_
      cases s.chip.residue.find p x <;> rfl
    · exact Chip.foldl_readCounter_pools (c := s.chip) hp (.inr ⟨hf, hwrap⟩)
  · have he := snapCmd_holds (c := s.chip.rearm) hbusy hpriv hgen hrun h5 h6 haddr (clear := clear) hroom
    have hv : ((s.chip.rearm.snapHeld h p clear).snapTurn h).get Fd.GLB_ACCESS_ERR_VALID 0 0 =
        s.chip.get Fd.GLB_ACCESS_ERR_VALID 0 0 :=
      (Chip.snapTurn_get ..).trans (Chip.snapHeld_get (by decide) (by decide))
    obtain ⟨b, hfind⟩ := Chip.snapTurn_find (Chip.snapHeld_find (c := s.chip.rearm) (h := h) (p := p) (clear := clear)) h
    refine ⟨_, _, exec_snap hp hs he hv, (Chip.snapTurn_get ..).trans Chip.snapHeld_status, hfind, rfl, rfl, rfl, rfl,
      (Chip.snapTurn_host ..).trans Chip.snapHeld_host, fun h32 halone => ?_, fun hother => ?_⟩
    · obtain ⟨hsnaps, hkeep⟩ := Chip.snapTurn_single
        (Chip.snapHeld_alone (c := s.chip.rearm) (h := h) (p := p) (clear := clear) halone) rfl h32 h
      rw [hsnaps, NMap.find_single] at hfind
      rw [← Option.some.inj hfind]
      exact ⟨rfl, hkeep⟩
    · have hserving : (s.chip.rearm.snapHeld h p clear).snaps.any (fun e => e.2.bytes.isSome) = true := by
        rw [Chip.snapHeld_snaps]; exact NMap.any_ins (q := fun j : SnapJob => j.bytes.isSome) hother _
      rw [Chip.snapTurn_serving hserving] at hfind ⊢
      rw [Chip.snapHeld_find] at hfind
      rw [← Option.some.inj hfind]
      exact ⟨rfl, Chip.snapHeld_cnt, Chip.snapHeld_residue⟩
  · have he := snapCmd_noSpace (c := s.chip.rearm) hbusy hpriv hgen hrun h5 h6 haddr (clear := clear) hfull
    refine ⟨_, exec_snap hp hs he ?_, Chip.get_set_same .., rfl, rfl⟩
    rw [Chip.get_set_ne (by decide), Chip.get_set_ne (by decide)]
    exact Chip.snapOperands_get (by decide)
  · exact ⟨_, rfl, congrArg (fun c => { s with chip := c }) (snapComplete_waits hj hwait)⟩
  · have he := snapComplete_ends hj hb hlink
    have hdel : s.chip.snaps.del h = [] := by rw [hsnaps]; simp [NMap.del, alErase]
    refine ⟨_, rfl, ?_⟩
    rw [State.onChip_chip, he, Chip.snapTurn_nil hdel]
    exact ⟨hdel, rfl, Chip.get_set_same .., rfl⟩
  · have he := snapComplete_ends hj hb hlink
    have hdel : s.chip.snaps.del h = [(k, w)] := by rw [hsnaps]; simp [NMap.del, alErase, Nat.ne_of_gt hlt]
    refine ⟨_, rfl, ?_⟩
    rw [State.onChip_chip, he]
    refine ⟨Chip.snapTurn_host .., (Chip.snapTurn_get ..).trans (Chip.get_set_same ..), _, (Chip.snapTurn_single hdel hw hk h).1, rfl⟩
  · have hpipe := (Chip.setPipe_pipe (c := s.chip.rearm.set Fd.PIP_EVC_CTRL_FREEZE b 0 (s.chip.evcFrozen b)) b
      { s.chip.pipe b with evc := [], evcSince := [], slots := [] } b).trans (if_pos rfl)
    exact ⟨_, (if_pos hb).trans (State.regWrite_unrecorded (k := fun _ c => evcCtrlWrite b (2 + c.evcFrozen b) c)
        (evcCtrlWrite_clears_pipe hb) (Chip.get_set_ne (by decide)) hs), congrArg PipeRt.evc hpipe, congrArg PipeRt.slots hpipe,
      Chip.set_evcFrozen_pipe s.chip.rearm hb (s.chip.evcFrozen_lt b), rfl⟩
  · exact ⟨_, (if_pos hb).trans (State.regWrite_unrecorded (k := fun _ c => evcCtrlWrite b 1 c) (evcCtrlWrite_freezes_pipe hb)
        (Chip.get_set_ne (by decide)) hs), Chip.set_evcFrozen_pipe s.chip.rearm hb (by decide), rfl⟩
  · exact ⟨_, State.regWrite_unrecorded (k := fun _ c => evcCtrlWrite 4 (2 + c.evcFrozen 4) c)
        (evcCtrlWrite_clears_atrium s.chip.rearm) (Chip.get_set_ne (by decide)) hs, rfl,
      Chip.set_evcFrozen_atrium s.chip.rearm (s.chip.evcFrozen_lt 4), rfl⟩
  · exact ⟨_, State.regWrite_unrecorded (k := fun _ c => evcCtrlWrite 4 1 c) rfl (Chip.get_set_ne (by decide)) hs,
      Chip.set_evcFrozen_atrium s.chip.rearm (by decide), rfl⟩

end Sys2Proof.Machine
end

section
/-! SUPPORT. The reference that a copy gives up (R258), and the counters of a copy that ends. -/

namespace Sys2Proof.Machine

/-! ## References -/

theorem Chip.gc_frame (c : Chip) (fid : Nat) : (c.gc fid).frame fid = none ∨ (c.gc fid).frame fid = c.frame fid := by
  unfold Chip.gc; (repeat' split)
  · exact .inr rfl
  · exact .inr rfl
  · exact .inl (by unfold Chip.frame Chip.delFrame; simp)

theorem Chip.gc_get (c : Chip) (fid : Nat) (g : F) (i j : Nat) : (c.gc fid).get g i j = c.get g i j :=
  Chip.get_of_outside (w := { atr := true }) (fun _ => Chip.gc_outside rfl fid) rfl rfl rfl g i j

theorem Chip.release_queues (c : Chip) (fid : Nat) : (c.release fid).atr.queues = c.atr.queues := by
  unfold Chip.release; (repeat' split)
  · rfl
  · exact Chip.gc_queues ..
  · rfl

theorem Chip.release_port (c : Chip) (fid n : Nat) : (c.release fid).port n = c.port n :=
  congrArg (NMap.get PortRt.init · n)
    (Chip.ports_of_outside (w := { fld := true, atr := true }) (fun _ => Chip.release_outside rfl rfl fid) rfl)

theorem Chip.release_cnt (c : Chip) (fid : Nat) : (c.release fid).cnt = c.cnt :=
  Chip.cnt_of_outside (w := { fld := true, atr := true }) (fun _ => Chip.release_outside rfl rfl fid) rfl

section
variable {c : Chip} {fid : Nat} {f : Frame} (hf : c.frame fid = some f)
include hf

theorem Chip.release_shared (h : 2 ≤ f.refs) : c.release fid = c.setFrame fid { f with refs := f.refs - 1 } := by
  unfold Chip.release; rw [hf]
  exact if_neg (Nat.not_le.mpr h)

theorem Chip.release_shared_frame (h : 2 ≤ f.refs) : (c.release fid).frame fid = some { f with refs := f.refs - 1 } := by
  rw [Chip.release_shared hf h]
  exact (Chip.setFrame_frame ..).trans (if_pos rfl)

theorem Chip.release_last (h : f.refs ≤ 1) : c.release fid = (c.freeFrameCells fid f).gc fid := by
  unfold Chip.release; rw [hf]
  exact if_pos h

/-- The last reference gives the cells back; a donor's is not counted as free (R252). -/
theorem Chip.release_last_atrFree (h : f.refs ≤ 1) :
    (c.release fid).atrFree = (c.atrFree + (f.cells.filter (fun a => !c.donor a)).length) % 2 ^ 19 := by
  rw [Chip.release_last hf h]
  unfold Chip.atrFree Chip.freeFrameCells Chip.uncharge Chip.giveCells; dsimp only
  rw [Chip.gc_get, Chip.setFrame_get, Chip.get_set_ne (by decide), Chip.get_set_ne (by decide), Chip.get_set_same]
  rfl

theorem Chip.release_last_frame (h : f.refs ≤ 1) : (c.release fid).frame fid = none ∨
    (c.release fid).frame fid = some { f with cells := [], charged := 0, refs := 0 } := by
  rw [Chip.release_last hf h]
  exact (Chip.gc_frame ..).imp_right (·.trans ((Chip.setFrame_frame ..).trans (if_pos rfl)))

end

/-- What the retired banks are said by alone: the bank map. -/
theorem Chip.donor_congr {c d : Chip} (h : ∀ i j, d.get Fd.ATR_BANK_MAP_MAP i j = c.get Fd.ATR_BANK_MAP_MAP i j) :
    d.donor = c.donor := by
  funext a; unfold Chip.donor Chip.retiredIn Chip.bankRetired; simp only [h]

/-! ## Counters -/

theorem Chip.rxCnt_count (c : Chip) (n i k : Nat) :
    (c.rxCnt n i k).get Fd.PRT_RX_CNT_COUNT n i = min (c.get Fd.PRT_RX_CNT_COUNT n i + k) (2 ^ 32 - 1) := by
  unfold Chip.rxCnt Chip.cntSat
  rw [Chip.get_set_same]
  exact Nat.mod_eq_of_lt (Nat.lt_of_le_of_lt (Nat.min_le_right ..) (by decide))

theorem Chip.rxCnt_get {c : Chip} {n k a i j : Nat} {g : F} (h : g ≠ Fd.PRT_RX_CNT_COUNT) :
    (c.rxCnt n k a).get g i j = c.get g i j := by
  unfold Chip.rxCnt Chip.cntSat; exact Chip.get_set_ne h

/-- A statistics counter changes the residue alone. -/
theorem Chip.stat_eq (c : Chip) (pool e x n : Nat) : ∃ r, c.stat pool e x n = { c with residue := r } :=
  ⟨(c.stat pool e x n).residue, Chip.eq_outside (w := { residue := true }) fun _ => Chip.stat_outside rfl ..⟩

theorem Chip.tsqPush_get {c : Chip} {n hall src k t ep i j : Nat} {g : F} (h : g.r ≠ .TIM_TSQ_STATUS) :
    (c.tsqPush n hall src k t ep).get g i j = c.get g i j := by
  unfold Chip.tsqPush; dsimp only; split
  · refine Eq.trans (b := ((c.cntWrap Fd.TIM_TSQ_STATUS_LOST_CNT n 0 1).set Fd.TIM_TSQ_STATUS_LOST n 0 1).get g i j) rfl ?_
    unfold Chip.cntWrap
    rw [Chip.get_set_reg (.inl h), Chip.get_set_reg (.inl h)]
  · exact Chip.irq_get ..

end Sys2Proof.Machine
end

section
/-! OBLIGATION O27: the end of a copy and of a fragment. -/

namespace Sys2Proof.Machine

/-! ## TX_COPY_END -/

/-- The copy `x` that ends whole is counted. -/
def Chip.countWhole (c : Chip) (n : Nat) (x : Tx) : Chip := (c.countTx n x.copy.cls x).stat 0 n 11 (if x.sent = 0 then 0 else 1)

/-- It leaves its timestamp where one is wanted (R97). -/
def Chip.stamp (c : Chip) (n : Nat) (x : Tx) (f : Frame) : Chip :=
  match c.tsWanted n x.copy f with
  | none => c
  | some w => c.tsqPush n w.1 w.2.1 w.2.2 x.ts x.epoch

/-- The chip when the copy `x` has left the wire of port `n`, before its reference goes: a stomped copy counts as aborted. -/
def Chip.offWire (c : Chip) (n : Nat) (x : Tx) (f : Frame) : Chip :=
  let c1 := c.setPort n { c.port n with tx := none }
  if x.stomp then c1.txAbort n else (c1.countWhole n x).stamp n x f

section
variable {c : Chip} {n : Nat} {x : Tx} {f : Frame} (htx : (c.port n).tx = some x) (hf : c.frame x.copy.fid = some f)
include htx hf

theorem txCopyEnd_ends (hend : x.stomp = true ∨ f.ended = true) : txCopyEnd n c = (c.offWire n x f).release x.copy.fid := by
  unfold txCopyEnd
  rw [htx]; dsimp only
  rw [hf, if_neg (by rcases hend with h | h <;> simp [h])]
  rfl

theorem txCopyEnd_waits (hwhole : x.stomp = false) (hend : f.ended = false) : txCopyEnd n c = c := by
  unfold txCopyEnd
  rw [htx]; dsimp only
  rw [hf, if_pos (by simp [hwhole, hend])]

end

section
variable (c : Chip) (n : Nat) (x : Tx) (f : Frame)

theorem Chip.countWhole_outside {w : Footprint} {o : Chip} (hcnt : w.cnt = true) (hresidue : w.residue = true) :
    (c.countWhole n x).outside w o = c.outside w o := (Chip.stat_outside hresidue ..).trans (Chip.countTx_outside hcnt hresidue ..)

theorem Chip.countWhole_get (g : F) (i j : Nat) : (c.countWhole n x).get g i j = c.get g i j :=
  Chip.get_of_outside (w := { cnt := true, residue := true }) (fun _ => c.countWhole_outside n x rfl rfl) rfl rfl rfl g i j

/-- It counts once among the frames that the device has sent. -/
theorem Chip.countWhole_count : (c.countWhole n x).cnt.get 0 8 1 = (c.cnt.get 0 8 1 + 1) % 2 ^ 64 := by
  unfold Chip.countWhole Chip.countTx Chip.devCnt; simp [Chip.stat_cnt]

theorem Chip.stamp_outside {w : Footprint} {o : Chip} (hfld : w.fld = true) (hbus : w.bus = true) (htsq : w.tsq = true)
    (htsqLost : w.tsqLost = true) : (c.stamp n x f).outside w o = c.outside w o := by
  unfold Chip.stamp; split
  · rfl
  · exact Chip.tsqPush_outside hfld hbus htsq htsqLost ..

theorem Chip.stamp_cnt : (c.stamp n x f).cnt = c.cnt :=
  Chip.cnt_of_outside (w := { fld := true, bus := true, tsq := true, tsqLost := true })
    (fun _ => c.stamp_outside n x f rfl rfl rfl rfl) rfl

variable {c n x f} in
/-- Of the registers it writes those of the timestamp queue alone. -/
theorem Chip.stamp_get {g : F} {i j : Nat} (h : g.r ≠ .TIM_TSQ_STATUS) : (c.stamp n x f).get g i j = c.get g i j := by
  unfold Chip.stamp; split
  · rfl
  · exact Chip.tsqPush_get h

theorem Chip.offWire_outside (o : Chip) :
    (c.offWire n x f).outside { fld := true, bus := true, tsq := true, tsqLost := true, cnt := true, residue := true } o =
      (c.setPort n { c.port n with tx := none }).outside
        { fld := true, bus := true, tsq := true, tsqLost := true, cnt := true, residue := true } o := by
  unfold Chip.offWire; dsimp only; split
  · exact Chip.txAbort_outside rfl n
  · exact (Chip.stamp_outside _ n x f rfl rfl rfl rfl).trans (Chip.countWhole_outside _ n x rfl rfl)

theorem Chip.offWire_atr : (c.offWire n x f).atr = c.atr := (Chip.atr_of_outside (c.offWire_outside n x f) rfl :)

theorem Chip.offWire_frame (i : Nat) : (c.offWire n x f).frame i = c.frame i := by unfold Chip.frame; rw [Chip.offWire_atr]

theorem Chip.offWire_tx : ((c.offWire n x f).port n).tx = none := by
  have hport : (c.offWire n x f).port n = { c.port n with tx := none } := by
    unfold Chip.port; rw [Chip.ports_of_outside (c.offWire_outside n x f) rfl]; exact c.setPort_port n _
  rw [hport]

variable {c n x f} in
/-- Beside the abort counter it writes no register but those of the timestamp queue. -/
theorem Chip.offWire_get {g : F} {i j : Nat} (hq : g.r ≠ .TIM_TSQ_STATUS) (hrx : g ≠ Fd.PRT_RX_CNT_COUNT) :
    (c.offWire n x f).get g i j = c.get g i j := by
  unfold Chip.offWire; dsimp only; split
  · exact (Chip.rxCnt_get hrx).trans (Chip.setPort_get ..)
  · exact (Chip.stamp_get hq).trans ((Chip.countWhole_get ..).trans (Chip.setPort_get ..))

theorem Chip.offWire_aborts (h : x.stomp = true) : (c.offWire n x f).cnt = c.cnt ∧
    (c.offWire n x f).get Fd.PRT_RX_CNT_COUNT n 11 = min (c.get Fd.PRT_RX_CNT_COUNT n 11 + 1) (2 ^ 32 - 1) := by
  unfold Chip.offWire; dsimp only; rw [if_pos h]
  exact ⟨rfl, Chip.rxCnt_count ..⟩

theorem Chip.offWire_counts (h : x.stomp = false) : (c.offWire n x f).cnt.get 0 8 1 = (c.cnt.get 0 8 1 + 1) % 2 ^ 64 := by
  unfold Chip.offWire; dsimp only; rw [if_neg (by simp [h])]
  rw [Chip.stamp_cnt, Chip.countWhole_count]; rfl

end

/-! ## PREEMPT_FRAGMENT_END -/

/-- What ends the fragment of the copy `x` before the copy (R299): a hold, a closed gate, or an express copy that waits. -/
def Chip.fragmentCause (c : Chip) (n : Nat) (x : Tx) : Bool :=
  c.held n || !bitOf (c.gatesNow n) x.svc || (c.svcPaths n).any (fun p => c.express n (7 - p.child.num))

section
variable {c : Chip} {n sent : Nat} {x : Tx} (htx : (c.port n).tx = some x)
include htx

theorem preemptFragmentEnd_sets_aside (hexp : x.express = false) (hpmac : c.pmacActive n = true)
    (hcause : c.fragmentCause n x = true) (hlo : x.sent + 64 * (1 + c.get Fd.PRT_PMAC_CTRL_ADD_FRAG n 0) ≤ sent)
    (hhi : sent < x.len) : preemptFragmentEnd n sent c =
      (c.setPort n { c.port n with tx := none, held := some { x with sent := sent } }).stat 0 n 11 1 := by
  unfold preemptFragmentEnd; dsimp only
  rw [htx]; dsimp only
  refine if_neg ?_
  change ¬(x.express || !c.pmacActive n || !c.fragmentCause n x || _) = true
  simp [hexp, hpmac, hcause, hlo, hhi]

theorem preemptFragmentEnd_goes_on (h : x.express = true ∨ c.pmacActive n = false ∨ x.len ≤ sent ∨ c.fragmentCause n x = false) :
    preemptFragmentEnd n sent c = c := by
  unfold preemptFragmentEnd; dsimp only
  rw [htx]; dsimp only
  refine if_pos ?_
  change (x.express || !c.pmacActive n || !c.fragmentCause n x || _) = true
  rcases h with h | h | h | h <;> simp [h]

end

/-- Settles O27: the equation of each end, then what it leaves. That a fragment ends for these causes alone is log 99, and that the
frames sent are counted at the copy's end is log 98. -/
theorem transmissionsEnd : Obligations.TransmissionsEnd := by
  unfold Obligations.TransmissionsEnd
  intro s n sent x f htx
  have hleaves : (((s.chip.offWire n x f).release x.copy.fid).port n).tx = none ∧
      ((s.chip.offWire n x f).release x.copy.fid).atr.queues = s.chip.atr.queues := by
    rw [Chip.release_port, Chip.release_queues, Chip.offWire_atr]
    exact ⟨Chip.offWire_tx .., rfl⟩
  obtain ⟨hoff, hqueues⟩ := hleaves
  refine ⟨fun hf hrefs => ?_, fun hf hrefs hend => ?_, fun hf hwhole hend => ?_, fun hexp hpmac hcause hlo hhi => ?_, fun h => ?_⟩
  · have hframe : ((s.chip.offWire n x f).release x.copy.fid).frame x.copy.fid = some { f with refs := f.refs - 1 } :=
      Chip.release_shared_frame ((Chip.offWire_frame ..).trans hf) hrefs
    refine ⟨fun hwhole hend => ⟨s.onChip (txCopyEnd n), rfl, ?_⟩, fun hstomp => ⟨s.onChip (txCopyEnd n), rfl, ?_⟩⟩
    · rw [State.onChip_chip, txCopyEnd_ends htx hf (.inr hend)]
      exact ⟨hoff, hframe, by rw [Chip.release_cnt, Chip.offWire_counts _ _ _ _ hwhole], hqueues⟩
    · rw [State.onChip_chip, txCopyEnd_ends htx hf (.inl hstomp)]
      obtain ⟨hcnt, haborts⟩ := s.chip.offWire_aborts n x f hstomp
      refine ⟨hoff, hframe, ?_, (Chip.release_cnt ..).trans hcnt, hqueues⟩
      rw [Chip.release_shared ((Chip.offWire_frame ..).trans hf) hrefs, Chip.setFrame_get, haborts]
  · have hf' := (Chip.offWire_frame s.chip n x f x.copy.fid).trans hf
    refine ⟨s.onChip (txCopyEnd n), rfl, ?_⟩
    rw [State.onChip_chip, txCopyEnd_ends htx hf hend]
    refine ⟨hoff, ?_, Chip.release_last_frame hf' hrefs, hqueues⟩
    rw [Chip.release_last_atrFree hf' hrefs, Chip.donor_congr (c := s.chip) fun i j => Chip.offWire_get (by decide) (by decide)]
    unfold Chip.atrFree; rw [Chip.offWire_get (by decide) (by decide)]
  · exact ⟨_, rfl, congrArg (fun c => { s with chip := c }) (txCopyEnd_waits htx hf hwhole hend)⟩
  · have hcause' : s.chip.fragmentCause n x = true := by
      unfold Chip.fragmentCause
      rcases hcause with h | h | h <;> simp [h]
    refine ⟨s.onChip (preemptFragmentEnd n sent), rfl, ?_⟩
    rw [State.onChip_chip, preemptFragmentEnd_sets_aside htx hexp hpmac hcause' hlo hhi]
    obtain ⟨r, hr⟩ := Chip.stat_eq (s.chip.setPort n { s.chip.port n with tx := none, held := some { x with sent := sent } }) 0 n 11 1
    rw [hr]
    have hport := s.chip.setPort_port n { s.chip.port n with tx := none, held := some { x with sent := sent } }
    exact ⟨congrArg PortRt.tx hport, congrArg PortRt.held hport, rfl, rfl⟩
  · refine ⟨_, rfl, congrArg (fun c => { s with chip := c }) (preemptFragmentEnd_goes_on htx ?_)⟩
    refine h.imp_right (.imp_right (.imp_right fun ⟨hheld, hgate, hexpress⟩ => ?_))
    unfold Chip.fragmentCause
    simp [hheld, hgate, hexpress]

end Sys2Proof.Machine
end

section
/-! OBLIGATION O32, refuted: a sweep pass that falls into a running one leaves the atrium as it is, but the deficits are looked at
after it all the same (log 97), and a port may lose some then. -/

namespace Sys2Proof.Machine

/-- A pass that falls into a running one is skipped (R267). -/
theorem atriumSweepPass_skipped {c : Chip} (h : c.atr.sweeping = true) : atriumSweepPass c = c :=
  if_pos (by simp [h])

section
variable {c : Chip} {n : Nat} (hidle : c.busyQueues n = [])
include hidle

theorem Chip.bayPaths_idle : c.bayPaths n = [] := by
  unfold Chip.bayPaths; rw [hidle]; simp

theorem Chip.svcPaths_idle : c.svcPaths n = [] := by
  unfold Chip.svcPaths; rw [Chip.bayPaths_idle hidle]; simp

/-- A port whose leaf queues hold no copy keeps no deficit (R287): no child of a landing is eligible. -/
theorem Chip.dropDeficits_idle : ((c.dropDeficits n).port n).defi = [] := by
  unfold Chip.dropDeficits
  rw [Chip.bayPaths_idle hidle, Chip.svcPaths_idle hidle, hidle]
  dsimp only
  split
  · next hall =>
    refine List.eq_nil_iff_forall_not_mem.mpr fun e he => ?_
    have hlive := List.all_eq_true.mp hall e he
    split at hlive <;> simp at hlive
  · rw [Chip.setPort_port]
    refine List.filter_eq_nil_iff.mpr fun e _ hlive => ?_
    split at hlive <;> simp at hlive

end

/-- The module after reset, but for a sweep pass that runs and a deficit that port 0 keeps for leaf queue 0, as it does when the
queue's copies go with a frame that fails (R40, `Chip.killFrame`): the deficits are not looked at then (log 97). -/
def Chip.sweptWithDeficit : Chip :=
  { Chip.reset with atr := { Atr.reset with sweeping := true }, ports := [(0, { PortRt.init with defi := [((2, 0), 1)] })] }

/-- Refutes O32: `Chip.sweptWithDeficit` loses its deficit to the pass that is skipped, so the next state is not the state before. -/
theorem not_sweeperAndResequencer : ¬ Obligations.SweeperAndResequencer := by
  unfold Obligations.SweeperAndResequencer
  rintro ⟨hsweep, -⟩
  obtain ⟨-, hskip, -⟩ := hsweep { State.reset with chip := Chip.sweptWithDeficit } 0 0 []
  obtain ⟨t, hnext, hsame⟩ := hskip rfl
  have hchip : (atriumSweepPass Chip.sweptWithDeficit).dropAllDeficits = t.chip :=
    congrArg State.chip (Host.Outcome.next.inj hnext)
  rw [hsame, atriumSweepPass_skipped rfl] at hchip
  have hkept : ((Chip.sweptWithDeficit.dropDeficits 0).port 0).defi = [((2, 0), 1)] :=
    congrArg (fun c : Chip => (c.port 0).defi) hchip
  exact absurd (hkept.symm.trans (Chip.dropDeficits_idle rfl)) (by decide)

end Sys2Proof.Machine
end
